-- ==== Sys2Proof/Word.lean ====
section
/-! DEFINITION. The word types of the Tervos 9 (R5, R12). -/

namespace Sys2Proof

/-- A byte (R5). -/
abbrev Byte := BitVec 8
/-- A half (R5). -/
abbrev Half := BitVec 16
/-- A word of 32 bits; also a scalar instruction word (R5, R16). -/
abbrev W32 := BitVec 32
/-- A dword; also an `x` register and a VA in a register (R5, R29). -/
abbrev W64 := BitVec 64
/-- One bit for each of the 1,024 lane positions of a swath (R2, R70). -/
abbrev LaneMask := BitVec 1024
/-- A scalar instruction word (R16). -/
abbrev ScalarWord := BitVec 32
/-- A lane instruction word (R20). -/
abbrev LaneWord := BitVec 96

end Sys2Proof
end

