-- ==== Sys2Proof/Syntax.lean ====
section
/-! DEFINITION. The instructions of the Tervos 9: one constructor of `Instr` for each row of the
opcode table (scalar words, lane words, and the device's steps that have no encoding), and the
operand shapes of the lane words (R20-R24). -/

namespace Sys2Proof

/-- How a message reaches Heath: over I3C, or over PCIe from the physical function or from a virtual one
(R426). -/
inductive Via
  | i3c
  | pcie (vf : Option Nat)
  deriving DecidableEq, Repr, Inhabited

/-- What every lane word carries beside its operands: the guard predicate, its negation, the stall
count and the region mark (R21). -/
structure LHdr where
  guard : BitVec 4
  neg : Bool
  stall : BitVec 4
  mark : Bool
  deriving DecidableEq, Repr

/-- The element types of the lane words (R22). -/
inductive LTy
  | none | n32 | s32 | n64 | s64 | f32 | bf16x2 | f16x2 | n16x2 | s16x2 | n8x4 | s8x4
  deriving DecidableEq, Repr

/-- A source operand with a kind: a lane register, a uniform register or the immediate (R23). -/
inductive Opnd
  | reg (r : BitVec 8)
  | uni (w : BitVec 4)
  | imm (i : W32)
  deriving DecidableEq, Repr

/-- The base of a lane memory operand: the pair `v[r], v[r+1]` or a uniform register (R24). -/
inductive LBase
  | pair (r : BitVec 8)
  | uni (w : BitVec 4)
  deriving DecidableEq, Repr

/-- A lane memory operand: base, optional index register, scale and displacement (R24). -/
structure MemOp where
  base : LBase
  idx : Option (BitVec 8)
  sc : BitVec 2
  disp : W32
  deriving DecidableEq, Repr

/-- `op.ty vd, va, b` (R76, R78, R81). -/
structure LBin where
  h : LHdr
  ty : LTy
  sub : BitVec 4
  vd : BitVec 8
  va : BitVec 8
  b : Opnd
  deriving DecidableEq, Repr

/-- `op.ty vd, va, b, c` (R76, R78, R81). -/
structure LTern where
  h : LHdr
  ty : LTy
  sub : BitVec 4
  vd : BitVec 8
  va : BitVec 8
  b : Opnd
  c : Opnd
  deriving DecidableEq, Repr

/-- `op.ty vd, va` (R76, R78, R89). -/
structure LUn where
  h : LHdr
  ty : LTy
  sub : BitVec 4
  vd : BitVec 8
  va : BitVec 8
  deriving DecidableEq, Repr

/-- `ISETP.cc kd, va, b` and `FSETP.cc kd, va, b`; `cc` is in the sub field (R76, R80). -/
structure LSetp where
  h : LHdr
  ty : LTy
  cc : BitVec 4
  kd : BitVec 4
  va : BitVec 8
  b : Opnd
  deriving DecidableEq, Repr

/-- `CVT.dst.src vd, va` (R82). -/
structure LCvt where
  h : LHdr
  dst : LTy
  src : LTy
  sub : BitVec 4
  vd : BitVec 8
  va : BitVec 8
  deriving DecidableEq, Repr

/-- `CVTN.fmt.ty vd, va, slot` and `CVTW.fmt.ty vd, va, slot` (R83, R84). -/
structure LNarrow where
  h : LHdr
  ty : LTy
  sub : BitVec 4
  fmt : BitVec 4
  slot : BitVec 4
  vd : BitVec 8
  va : BitVec 8
  deriving DecidableEq, Repr

/-- `MOV.ty vd, b` (R85). -/
structure LMov where
  h : LHdr
  ty : LTy
  vd : BitVec 8
  b : Opnd
  deriving DecidableEq, Repr

/-- `SEL.ty vd, ka, b, c` (R85). -/
structure LSel where
  h : LHdr
  ty : LTy
  vd : BitVec 8
  ka : BitVec 4
  b : Opnd
  c : Opnd
  deriving DecidableEq, Repr

/-- `XLANE.mode.wN vd, va, b, c` (R86). -/
structure LXlane where
  h : LHdr
  sub : BitVec 4
  vd : BitVec 8
  va : BitVec 8
  b : Opnd
  c : Opnd
  deriving DecidableEq, Repr

/-- `LRED.op.ty wd, va` (R87). -/
structure LRedOp where
  h : LHdr
  ty : LTy
  op : BitVec 4
  wd : BitVec 4
  va : BitVec 8
  deriving DecidableEq, Repr

/-- `VOTE.op wd, ka`; `g` is the ballot's group (R88). -/
structure LVote where
  h : LHdr
  op : BitVec 4
  wd : BitVec 4
  ka : BitVec 4
  g : BitVec 4
  deriving DecidableEq, Repr

/-- `KMIX kd, ka, kb, kc, table` (R85). -/
structure LKmix where
  h : LHdr
  kd : BitVec 4
  ka : BitVec 4
  kb : BitVec 4
  kc : BitVec 4
  table : BitVec 8
  inv : Bool
  deriving DecidableEq, Repr

/-- `LMFSR.ty vd, sr` (R85). -/
structure LSysRead where
  h : LHdr
  ty : LTy
  vd : BitVec 8
  sr : BitVec 10
  deriving DecidableEq, Repr

/-- A lane load or store: the width code `sz`, the register loaded or stored, the address (R98). -/
structure LMem where
  h : LHdr
  sz : BitVec 3
  reg : BitVec 8
  m : MemOp
  deriving DecidableEq, Repr

/-- A lane atomic, `LDACQ` or `STREL`; the register a form does not use is 0 (R199, R203). -/
structure LAtom where
  h : LHdr
  ty : LTy
  scope : BitVec 3
  vd : BitVec 8
  va : BitVec 8
  m : MemOp
  deriving DecidableEq, Repr

/-- An accumulator access: tile, element index operand, data register (R101). -/
structure LAcc where
  h : LHdr
  sub : BitVec 4
  tile : BitVec 4
  e : Opnd
  reg : BitVec 8
  deriving DecidableEq, Repr

/-- A party that issues instructions: the scalar stream of a swath, one of its fragments (the first
or the second live one), or the pager core of a die (R2, R92, R301). -/
inductive PartyId
  | scalar (fid sw : Nat)
  | lane (fid sw : Nat) (second : Bool)
  | pager (die : Nat)
  deriving DecidableEq, Repr

/-- One instruction or one step of the device, as the opcode table lists them. -/
inductive Instr
  | add (d : BitVec 6) (a : BitVec 6) (b : BitVec 6) (s : BitVec 2)  -- ADD, R47
  | sub (d : BitVec 6) (a : BitVec 6) (b : BitVec 6) (s : BitVec 2)  -- SUB, R47
  | mul (d : BitVec 6) (a : BitVec 6) (b : BitVec 6) (s : BitVec 2)  -- MUL, R47
  | mulh (d : BitVec 6) (a : BitVec 6) (b : BitVec 6) (s : BitVec 2)  -- MULH, R47
  | mulhu (d : BitVec 6) (a : BitVec 6) (b : BitVec 6) (s : BitVec 2)  -- MULHU, R47
  | div (d : BitVec 6) (a : BitVec 6) (b : BitVec 6) (s : BitVec 2)  -- DIV, R49
  | divu (d : BitVec 6) (a : BitVec 6) (b : BitVec 6) (s : BitVec 2)  -- DIVU, R49
  | rem (d : BitVec 6) (a : BitVec 6) (b : BitVec 6) (s : BitVec 2)  -- REM, R49
  | remu (d : BitVec 6) (a : BitVec 6) (b : BitVec 6) (s : BitVec 2)  -- REMU, R49
  | and (d : BitVec 6) (a : BitVec 6) (b : BitVec 6) (s : BitVec 2)  -- AND, R47
  | or (d : BitVec 6) (a : BitVec 6) (b : BitVec 6) (s : BitVec 2)  -- OR, R47
  | xor (d : BitVec 6) (a : BitVec 6) (b : BitVec 6) (s : BitVec 2)  -- XOR, R47
  | shl (d : BitVec 6) (a : BitVec 6) (b : BitVec 6) (s : BitVec 2)  -- SHL, R47
  | shr (d : BitVec 6) (a : BitVec 6) (b : BitVec 6) (s : BitVec 2)  -- SHR, R47
  | sar (d : BitVec 6) (a : BitVec 6) (b : BitVec 6) (s : BitVec 2)  -- SAR, R47
  | min (d : BitVec 6) (a : BitVec 6) (b : BitVec 6) (s : BitVec 2)  -- MIN, R47
  | minu (d : BitVec 6) (a : BitVec 6) (b : BitVec 6) (s : BitVec 2)  -- MINU, R47
  | max (d : BitVec 6) (a : BitVec 6) (b : BitVec 6) (s : BitVec 2)  -- MAX, R47
  | maxu (d : BitVec 6) (a : BitVec 6) (b : BitVec 6) (s : BitVec 2)  -- MAXU, R47
  | cmp (d : BitVec 6) (a : BitVec 6) (b : BitVec 6) (c : BitVec 5) (s : BitVec 2)  -- CMP, R47
  | sel (d : BitVec 6) (a : BitVec 6) (b : BitVec 6) (c : BitVec 5) (s : BitVec 2)  -- SEL, R48
  | clz (d : BitVec 6) (a : BitVec 6) (s : BitVec 2)  -- CLZ, R47
  | ctz (d : BitVec 6) (a : BitVec 6) (s : BitVec 2)  -- CTZ, R47
  | popc (d : BitVec 6) (a : BitVec 6) (s : BitVec 2)  -- POPC, R47
  | addi (d : BitVec 6) (a : BitVec 6) (i : BitVec 11) (s : BitVec 2)  -- ADDI, R50
  | andi (d : BitVec 6) (a : BitVec 6) (i : BitVec 11) (s : BitVec 2)  -- ANDI, R50
  | ori (d : BitVec 6) (a : BitVec 6) (i : BitVec 11) (s : BitVec 2)  -- ORI, R50
  | xori (d : BitVec 6) (a : BitVec 6) (i : BitVec 11) (s : BitVec 2)  -- XORI, R50
  | shli (d : BitVec 6) (a : BitVec 6) (h : BitVec 6) (s : BitVec 2)  -- SHLI, R50
  | shri (d : BitVec 6) (a : BitVec 6) (h : BitVec 6) (s : BitVec 2)  -- SHRI, R50
  | sari (d : BitVec 6) (a : BitVec 6) (h : BitVec 6) (s : BitVec 2)  -- SARI, R50
  | slti (d : BitVec 6) (a : BitVec 6) (i : BitVec 11) (s : BitVec 2)  -- SLTI, R50
  | sltiu (d : BitVec 6) (a : BitVec 6) (i : BitVec 11) (s : BitVec 2)  -- SLTIU, R50
  | muli (d : BitVec 6) (a : BitVec 6) (i : BitVec 11) (s : BitVec 2)  -- MULI, R50
  | movpc (d : BitVec 6) (i : BitVec 17) (s : BitVec 2)  -- MOVPC, R51
  | ldb (d : BitVec 6) (a : BitVec 6) (i : BitVec 11) (s : BitVec 2)  -- LDB, R53
  | ldbu (d : BitVec 6) (a : BitVec 6) (i : BitVec 11) (s : BitVec 2)  -- LDBU, R53
  | ldh (d : BitVec 6) (a : BitVec 6) (i : BitVec 11) (s : BitVec 2)  -- LDH, R53
  | ldhu (d : BitVec 6) (a : BitVec 6) (i : BitVec 11) (s : BitVec 2)  -- LDHU, R53
  | ldw (d : BitVec 6) (a : BitVec 6) (i : BitVec 11) (s : BitVec 2)  -- LDW, R53
  | ldwu (d : BitVec 6) (a : BitVec 6) (i : BitVec 11) (s : BitVec 2)  -- LDWU, R53
  | ldd (d : BitVec 6) (a : BitVec 6) (i : BitVec 11) (s : BitVec 2)  -- LDD, R53
  | stb (d : BitVec 6) (a : BitVec 6) (i : BitVec 11) (s : BitVec 2)  -- STB, R53
  | sth (d : BitVec 6) (a : BitVec 6) (i : BitVec 11) (s : BitVec 2)  -- STH, R53
  | stw (d : BitVec 6) (a : BitVec 6) (i : BitVec 11) (s : BitVec 2)  -- STW, R53
  | std (d : BitVec 6) (a : BitVec 6) (i : BitVec 11) (s : BitVec 2)  -- STD, R53
  | lds (d : BitVec 6) (a : BitVec 6) (i : BitVec 11) (s : BitVec 2)  -- LDS, R53
  | sts (d : BitVec 6) (a : BitVec 6) (i : BitVec 11) (s : BitVec 2)  -- STS, R53
  | ldc (d : BitVec 6) (a : BitVec 6) (i : BitVec 11) (s : BitVec 2)  -- LDC, R53
  | beq (a : BitVec 6) (b : BitVec 6) (o : BitVec 11) (s : BitVec 2)  -- BEQ, R56
  | bne (a : BitVec 6) (b : BitVec 6) (o : BitVec 11) (s : BitVec 2)  -- BNE, R56
  | blt (a : BitVec 6) (b : BitVec 6) (o : BitVec 11) (s : BitVec 2)  -- BLT, R56
  | bge (a : BitVec 6) (b : BitVec 6) (o : BitVec 11) (s : BitVec 2)  -- BGE, R56
  | bltu (a : BitVec 6) (b : BitVec 6) (o : BitVec 11) (s : BitVec 2)  -- BLTU, R56
  | bgeu (a : BitVec 6) (b : BitVec 6) (o : BitVec 11) (s : BitVec 2)  -- BGEU, R56
  | jal (d : BitVec 6) (i : BitVec 17) (s : BitVec 2)  -- JAL, R57
  | jalr (d : BitVec 6) (a : BitVec 6) (i : BitVec 11) (s : BitVec 2)  -- JALR, R57
  | lrun (a : BitVec 6) (i : BitVec 11) (s : BitVec 2)  -- LRUN, R62
  | lgo (s : BitVec 2)  -- LGO, R63
  | lwait (d : BitVec 6) (a : BitVec 6) (i : BitVec 11) (s : BitVec 2)  -- LWAIT, R64
  | movxw (d : BitVec 4) (a : BitVec 6) (s : BitVec 2)  -- MOVXW, R58
  | movwx (d : BitVec 6) (a : BitVec 4) (s : BitVec 2)  -- MOVWX, R58
  | setfmt (a : BitVec 6) (m : BitVec 6) (s : BitVec 2)  -- SETFMT, R59
  | bara (n : BitVec 4) (a : BitVec 6) (s : BitVec 2)  -- BARA, R66
  | barw (n : BitVec 4) (s : BitVec 2)  -- BARW, R66
  | bars (n : BitVec 4) (a : BitVec 6) (s : BitVec 2)  -- BARS, R66
  | waitm (d : BitVec 6) (a : BitVec 6) (b : BitVec 6) (w : BitVec 1) (c : BitVec 2) (s : BitVec 2)  -- WAITM, R67
  | yield (s : BitVec 2)  -- YIELD, R68
  | exit (s : BitVec 2)  -- EXIT, R65
  | mloadFp (a : BitVec 6) (s : BitVec 2)  -- MLOAD_FP, R149
  | mloadTern (a : BitVec 6) (s : BitVec 2)  -- MLOAD_TERN, R149
  | mflipFp (s : BitVec 2)  -- MFLIP_FP, R149
  | mflipTern (s : BitVec 2)  -- MFLIP_TERN, R149
  | mmul (t : BitVec 4) (a : BitVec 6) (s : BitVec 2)  -- MMUL, R152
  | mtern (t : BitVec 4) (a : BitVec 6) (s : BitVec 2)  -- MTERN, R153
  | mzero (t : BitVec 4) (s : BitVec 2)  -- MZERO, R154
  | mdrain (t : BitVec 4) (a : BitVec 6) (s : BitVec 2)  -- MDRAIN, R156
  | mfence (d : BitVec 6) (s : BitVec 2)  -- MFENCE, R157
  | mwait (a : BitVec 6) (s : BitVec 2)  -- MWAIT, R158
  | mgrow (d : BitVec 6) (a : BitVec 6) (b : BitVec 6) (s : BitVec 2)  -- MGROW, R159
  | cpgo (a : BitVec 6) (s : BitVec 2)  -- CPGO, R162
  | waitc (c : BitVec 2) (a : BitVec 6) (s : BitVec 2)  -- WAITC, R170
  | pbinit (a : BitVec 6) (b : BitVec 6) (s : BitVec 2)  -- PBINIT, R172
  | pbarv (d : BitVec 6) (a : BitVec 6) (b : BitVec 6) (s : BitVec 2)  -- PBARV, R172
  | pbwait (d : BitVec 6) (a : BitVec 6) (b : BitVec 6) (s : BitVec 2)  -- PBWAIT, R172
  | atomAdd (d : BitVec 6) (a : BitVec 6) (b : BitVec 6) (w : BitVec 1) (p : BitVec 3) (s : BitVec 2)  -- ATOM_ADD, R200
  | atomXchg (d : BitVec 6) (a : BitVec 6) (b : BitVec 6) (w : BitVec 1) (p : BitVec 3) (s : BitVec 2)  -- ATOM_XCHG, R200
  | atomMin (d : BitVec 6) (a : BitVec 6) (b : BitVec 6) (w : BitVec 1) (p : BitVec 3) (s : BitVec 2)  -- ATOM_MIN, R200
  | atomMax (d : BitVec 6) (a : BitVec 6) (b : BitVec 6) (w : BitVec 1) (p : BitVec 3) (s : BitVec 2)  -- ATOM_MAX, R200
  | atomUmin (d : BitVec 6) (a : BitVec 6) (b : BitVec 6) (w : BitVec 1) (p : BitVec 3) (s : BitVec 2)  -- ATOM_UMIN, R200
  | atomUmax (d : BitVec 6) (a : BitVec 6) (b : BitVec 6) (w : BitVec 1) (p : BitVec 3) (s : BitVec 2)  -- ATOM_UMAX, R200
  | atomAnd (d : BitVec 6) (a : BitVec 6) (b : BitVec 6) (w : BitVec 1) (p : BitVec 3) (s : BitVec 2)  -- ATOM_AND, R200
  | atomOr (d : BitVec 6) (a : BitVec 6) (b : BitVec 6) (w : BitVec 1) (p : BitVec 3) (s : BitVec 2)  -- ATOM_OR, R200
  | atomXor (d : BitVec 6) (a : BitVec 6) (b : BitVec 6) (w : BitVec 1) (p : BitVec 3) (s : BitVec 2)  -- ATOM_XOR, R200
  | atomCas (d : BitVec 6) (a : BitVec 6) (b : BitVec 5) (w : BitVec 1) (p : BitVec 3) (s : BitVec 2)  -- ATOM_CAS, R200
  | ldacq (d : BitVec 6) (a : BitVec 6) (w : BitVec 1) (p : BitVec 3) (s : BitVec 2)  -- LDACQ, R204
  | strel (a : BitVec 6) (b : BitVec 6) (w : BitVec 1) (p : BitVec 3) (s : BitVec 2)  -- STREL, R204
  | fenceFull (p : BitVec 3) (s : BitVec 2)  -- FENCE_FULL, R204
  | fenceAcq (p : BitVec 3) (s : BitVec 2)  -- FENCE_ACQ, R204
  | fenceRel (p : BitVec 3) (s : BitVec 2)  -- FENCE_REL, R204
  | cwb (p : BitVec 3) (a : BitVec 6) (b : BitVec 6) (s : BitVec 2)  -- CWB, R209
  | cinv (p : BitVec 3) (a : BitVec 6) (b : BitVec 6) (s : BitVec 2)  -- CINV, R209
  | cwbi (p : BitVec 3) (a : BitVec 6) (b : BitVec 6) (s : BitVec 2)  -- CWBI, R209
  | pfh (d : BitVec 6) (a : BitVec 6) (b : BitVec 6) (s : BitVec 2)  -- PFH, R208
  | wpost (a : BitVec 6) (b : BitVec 5) (s : BitVec 2)  -- WPOST, R211
  | wget (a : BitVec 6) (b : BitVec 5) (s : BitVec 2)  -- WGET, R211
  | wcntw (d : BitVec 6) (a : BitVec 6) (b : BitVec 6) (s : BitVec 2)  -- WCNTW, R213
  | sigrel (p : BitVec 3) (a : BitVec 6) (b : BitVec 6) (s : BitVec 2)  -- SIGREL, R214
  | sigacq (d : BitVec 6) (a : BitVec 6) (p : BitVec 3) (s : BitVec 2)  -- SIGACQ, R215
  | mfsr (d : BitVec 6) (r : BitVec 10) (s : BitVec 2)  -- MFSR, R69
  | mtsr (a : BitVec 6) (r : BitVec 10) (s : BitVec 2)  -- MTSR, R69
  | trap (c : BitVec 11) (s : BitVec 2)  -- TRAP, R239
  | tret (s : BitVec 2)  -- TRET, R242
  | trun (a : BitVec 6) (b : BitVec 6) (s : BitVec 2)  -- TRUN, R241
  | rgn (s : BitVec 2)  -- RGN, R244
  | mapft (d : BitVec 6) (a : BitVec 6) (s : BitVec 2)  -- MAPFT, R245
  | park (s : BitVec 2)  -- PARK, R243
  | parkTerm (s : BitVec 2)  -- PARK_TERM, R243
  | tlbiR (d : BitVec 6) (a : BitVec 6) (b : BitVec 6) (s : BitVec 2)  -- TLBI_R, R246
  | tlbiCtx (d : BitVec 6) (s : BitVec 2)  -- TLBI_CTX, R246
  | brkpt (c : BitVec 11) (s : BitVec 2)  -- BRKPT, R247
  | pgfill (d : BitVec 6) (a : BitVec 6) (s : BitVec 2)  -- PGFILL, R248
  | pgevict (d : BitVec 6) (a : BitVec 6) (s : BitVec 2)  -- PGEVICT, R248
  | pgmove (d : BitVec 6) (a : BitVec 6) (b : BitVec 5) (s : BitVec 2)  -- PGMOVE, R326
  | pgupg (d : BitVec 6) (a : BitVec 6) (s : BitVec 2)  -- PGUPG, R323
  | leaseopRenew (d : BitVec 6) (a : BitVec 6) (b : BitVec 6) (s : BitVec 2)  -- LEASEOP_RENEW, R249
  | leaseopQuery (d : BitVec 6) (a : BitVec 6) (b : BitVec 6) (s : BitVec 2)  -- LEASEOP_QUERY, R249
  | leaseopRelease (d : BitVec 6) (a : BitVec 6) (b : BitVec 6) (s : BitVec 2)  -- LEASEOP_RELEASE, R249
  | leaseopAckwarn (d : BitVec 6) (a : BitVec 6) (b : BitVec 6) (s : BitVec 2)  -- LEASEOP_ACKWARN, R249
  | cins (d : BitVec 4) (a : BitVec 6) (b : BitVec 6) (s : BitVec 2)  -- CINS, R341
  | cnode (d : BitVec 4) (a : BitVec 6) (b : BitVec 6) (s : BitVec 2)  -- CNODE, R342
  | cref (d : BitVec 4) (a : BitVec 5) (b : BitVec 6) (s : BitVec 2)  -- CREF, R343
  | cunref (d : BitVec 4) (a : BitVec 5) (b : BitVec 6) (s : BitVec 2)  -- CUNREF, R343
  | cswap (d : BitVec 4) (a : BitVec 5) (b : BitVec 4) (s : BitVec 2)  -- CSWAP, R345
  | cbind (d : BitVec 4) (a : BitVec 5) (b : BitVec 5) (s : BitVec 2)  -- CBIND, R346
  | cunbind (d : BitVec 4) (a : BitVec 6) (s : BitVec 2)  -- CUNBIND, R347
  | ccopy (d : BitVec 4) (a : BitVec 5) (b : BitVec 5) (s : BitVec 2)  -- CCOPY, R348
  | cstat (d : BitVec 4) (a : BitVec 5) (b : BitVec 6) (s : BitVec 2)  -- CSTAT, R343
  | ctxnew (d : BitVec 5) (a : BitVec 6) (s : BitVec 2)  -- CTXNEW, R374
  | ctxgrant (d : BitVec 5) (a : BitVec 6) (b : BitVec 6) (s : BitVec 2)  -- CTXGRANT, R375
  | ctxrevoke (d : BitVec 5) (a : BitVec 6) (b : BitVec 6) (s : BitVec 2)  -- CTXREVOKE, R377
  | ctxbudg (d : BitVec 5) (a : BitVec 6) (b : BitVec 6) (s : BitVec 2)  -- CTXBUDG, R378
  | ctxq (d : BitVec 5) (a : BitVec 6) (b : BitVec 6) (s : BitVec 2)  -- CTXQ, R379
  | ctxinfo (d : BitVec 5) (a : BitVec 5) (b : BitVec 6) (s : BitVec 2)  -- CTXINFO, R380
  | ctxkill (d : BitVec 5) (a : BitVec 6) (s : BitVec 2)  -- CTXKILL, R381
  | rflt (d : BitVec 5) (a : BitVec 6) (b : BitVec 6) (s : BitVec 2)  -- RFLT, R382
  | lit (i : BitVec 25)  -- LIT, R19
  | iadd (o : LBin)  -- IADD, R76
  | isub (o : LBin)  -- ISUB, R76
  | imul (o : LBin)  -- IMUL, R76
  | imulh (o : LBin)  -- IMULH, R76
  | imad (o : LTern)  -- IMAD, R76
  | idiv (o : LBin)  -- IDIV, R77
  | irem (o : LBin)  -- IREM, R77
  | imin (o : LBin)  -- IMIN, R76
  | imax (o : LBin)  -- IMAX, R76
  | laneAnd (o : LBin)  -- LANE_AND, R76
  | laneOr (o : LBin)  -- LANE_OR, R76
  | laneXor (o : LBin)  -- LANE_XOR, R76
  | laneShl (o : LBin)  -- LANE_SHL, R76
  | laneShr (o : LBin)  -- LANE_SHR, R76
  | bfe (o : LBin)  -- BFE, R77
  | bfi (o : LTern)  -- BFI, R77
  | lanePopc (o : LUn)  -- LANE_POPC, R76
  | laneClz (o : LUn)  -- LANE_CLZ, R76
  | isetp (o : LSetp)  -- ISETP, R76
  | fadd (o : LBin)  -- FADD, R78
  | fsub (o : LBin)  -- FSUB, R78
  | fmul (o : LBin)  -- FMUL, R78
  | ffma (o : LTern)  -- FFMA, R78
  | fmin (o : LBin)  -- FMIN, R78
  | fmax (o : LBin)  -- FMAX, R78
  | frcp (o : LUn)  -- FRCP, R78
  | fsqrt (o : LUn)  -- FSQRT, R78
  | frsq (o : LUn)  -- FRSQ, R78
  | fexp2 (o : LUn)  -- FEXP2, R78
  | flog2 (o : LUn)  -- FLOG2, R78
  | fsetp (o : LSetp)  -- FSETP, R80
  | padd (o : LBin)  -- PADD, R81
  | psub (o : LBin)  -- PSUB, R81
  | pmul (o : LBin)  -- PMUL, R81
  | pfma (o : LTern)  -- PFMA, R81
  | pmin (o : LBin)  -- PMIN, R81
  | pmax (o : LBin)  -- PMAX, R81
  | dotb (o : LTern)  -- DOTB, R81
  | doth (o : LTern)  -- DOTH, R81
  | cvt (o : LCvt)  -- CVT, R82
  | cvtn (o : LNarrow)  -- CVTN, R83
  | cvtw (o : LNarrow)  -- CVTW, R84
  | laneMov (o : LMov)  -- LANE_MOV, R85
  | laneSel (o : LSel)  -- LANE_SEL, R85
  | xlane (o : LXlane)  -- XLANE, R86
  | lred (o : LRedOp)  -- LRED, R87
  | vote (o : LVote)  -- VOTE, R88
  | kmix (o : LKmix)  -- KMIX, R85
  | lmfsr (o : LSysRead)  -- LMFSR, R85
  | scan (o : LUn)  -- SCAN, R89
  | bru (h : LHdr) (off : W32)  -- BRU, R91
  | brd (h : LHdr) (off : W32)  -- BRD, R92
  | join (h : LHdr)  -- JOIN, R133
  | lfmt (h : LHdr) (w : BitVec 4)  -- LFMT, R94
  | lstop (h : LHdr)  -- LSTOP, R95
  | lhold (h : LHdr)  -- LHOLD, R95
  | lsig (h : LHdr) (n : BitVec 8)  -- LSIG, R96
  | laneBara (h : LHdr) (bar : BitVec 4) (n : Opnd)  -- LANE_BARA, R97
  | laneBarw (h : LHdr) (bar : BitVec 4)  -- LANE_BARW, R97
  | laneBars (h : LHdr) (bar : BitVec 4) (n : Opnd)  -- LANE_BARS, R97
  | lnop (h : LHdr)  -- LNOP, R37
  | laneLds (o : LMem)  -- LANE_LDS, R98
  | laneSts (o : LMem)  -- LANE_STS, R98
  | ldg (o : LMem)  -- LDG, R99
  | stg (o : LMem)  -- STG, R99
  | laneLdc (o : LMem)  -- LANE_LDC, R98
  | laneAtomAdd (o : LAtom)  -- LANE_ATOM_ADD, R199
  | laneAtomMin (o : LAtom)  -- LANE_ATOM_MIN, R199
  | laneAtomMax (o : LAtom)  -- LANE_ATOM_MAX, R199
  | laneAtomUmin (o : LAtom)  -- LANE_ATOM_UMIN, R199
  | laneAtomUmax (o : LAtom)  -- LANE_ATOM_UMAX, R199
  | laneAtomAnd (o : LAtom)  -- LANE_ATOM_AND, R199
  | laneAtomOr (o : LAtom)  -- LANE_ATOM_OR, R199
  | laneAtomXor (o : LAtom)  -- LANE_ATOM_XOR, R199
  | laneAtomXchg (o : LAtom)  -- LANE_ATOM_XCHG, R199
  | laneAtomCas (o : LAtom)  -- LANE_ATOM_CAS, R199
  | laneAtomFadd (o : LAtom)  -- LANE_ATOM_FADD, R200
  | laneLdacq (o : LAtom)  -- LANE_LDACQ, R204
  | laneStrel (o : LAtom)  -- LANE_STREL, R204
  | laneFenceFull (h : LHdr) (scope : BitVec 3)  -- LANE_FENCE_FULL, R204
  | laneFenceAcq (h : LHdr) (scope : BitVec 3)  -- LANE_FENCE_ACQ, R204
  | laneFenceRel (h : LHdr) (scope : BitVec 3)  -- LANE_FENCE_REL, R204
  | accrd (o : LAcc)  -- ACCRD, R101
  | accwr (o : LAcc)  -- ACCWR, R101
  | accadd (o : LAcc)  -- ACCADD, R101
  | ldgT (o : LMem) (kd : BitVec 4)  -- LDG_T, R207
  | scalarIssueDecision (core quad : Nat)  -- SCALAR_ISSUE_DECISION, R121
  | laneIssueDecision (core quad : Nat)  -- LANE_ISSUE_DECISION, R121
  | candidateAges (p : PartyId)  -- CANDIDATE_AGES, R122
  | variableLatencyResult (fid sw : Nat)  -- VARIABLE_LATENCY_RESULT, R285
  | lwaitResume (fid sw : Nat)  -- LWAIT_RESUME, R64
  | barrierWaitResume (p : PartyId)  -- BARRIER_WAIT_RESUME, R66
  | waitmReread (p : PartyId)  -- WAITM_REREAD, R67
  | pbwaitResume (fid sw : Nat)  -- PBWAIT_RESUME, R172
  | wcntwResume (fid sw : Nat)  -- WCNTW_RESUME, R213
  | mwaitResume (fid sw : Nat)  -- MWAIT_RESUME, R158
  | waitcResume (fid sw : Nat)  -- WAITC_RESUME, R170
  | exitResume (fid sw : Nat)  -- EXIT_RESUME, R65
  | armExchange (fid sw : Nat)  -- ARM_EXCHANGE, R134
  | handlerEntry (p : PartyId) (va : W64)  -- HANDLER_ENTRY, R239
  | pendingFaultTaken (fid sw : Nat) (second : Bool)  -- PENDING_FAULT_TAKEN, R240
  | ringWriteRetry (ctx : Nat)  -- RING_WRITE_RETRY, R393
  | fieldPlace (core : Nat)  -- FIELD_PLACE, R115
  | fieldSwapOut (fid : Nat)  -- FIELD_SWAP_OUT, R125
  | urgentClaim (core quad : Nat)  -- URGENT_CLAIM, R297
  | registerLineScanOut (fid sw : Nat)  -- REGISTER_LINE_SCAN_OUT, R298
  | tenantSliceEnd (ctx core quad : Nat)  -- TENANT_SLICE_END, R300
  | reconvWaitExpire (fid : Nat)  -- RECONV_WAIT_EXPIRE, R300
  | budgetPeriodBoundary  -- BUDGET_PERIOD_BOUNDARY, R397
  | matrixKstepComplete (fid sw : Nat)  -- MATRIX_KSTEP_COMPLETE, R152
  | matrixOpComplete (fid sw : Nat)  -- MATRIX_OP_COMPLETE, R141
  | matrixOpPause (fid sw : Nat)  -- MATRIX_OP_PAUSE, R160
  | chainCopy (fid sw chain : Nat)  -- CHAIN_COPY, R165
  | chainGather (fid sw chain : Nat)  -- CHAIN_GATHER, R165
  | chainLoop (fid sw chain : Nat)  -- CHAIN_LOOP, R165
  | chainSkipif (fid sw chain : Nat)  -- CHAIN_SKIPIF, R165
  | chainArrive (fid sw chain : Nat)  -- CHAIN_ARRIVE, R165
  | chainEnd (fid sw chain : Nat)  -- CHAIN_END, R165
  | chainComplete (fid sw : Nat)  -- CHAIN_COMPLETE, R141
  | wpostComplete (fid sw : Nat)  -- WPOST_COMPLETE, R211
  | wgetComplete (fid sw : Nat)  -- WGET_COMPLETE, R211
  | pfhComplete (fid sw : Nat)  -- PFH_COMPLETE, R277
  | ccopyComplete (fid sw chain : Nat)  -- CCOPY_COMPLETE, R348
  | walkComplete (gateway ctx : Nat) (va : W64)  -- WALK_COMPLETE, R267
  | cacheWriteback (l2 : Bool) (unit ctx vaLine : Nat)  -- CACHE_WRITEBACK, R221
  | cacheEvict (l2 : Bool) (unit ctx vaLine : Nat)  -- CACHE_EVICT, R221
  | pageFillStart (unit : Nat)  -- PAGE_FILL_START, R274
  | pageFillComplete (unit : Nat)  -- PAGE_FILL_COMPLETE, R272
  | serviceRecordAdmit (die : Nat)  -- SERVICE_RECORD_ADMIT, R308
  | deq (die : Nat)  -- DEQ, R302
  | deqTimeout (die : Nat)  -- DEQ_TIMEOUT, R302
  | pagerCompleteRetry (die idx : Nat)  -- PAGER_COMPLETE_RETRY, R309
  | pagerCompleteBind (die idx : Nat)  -- PAGER_COMPLETE_BIND, R309
  | pagerCompleteTerminal (die idx : Nat)  -- PAGER_COMPLETE_TERMINAL, R309
  | pagerCompleteReserved (die idx action : Nat)  -- PAGER_COMPLETE_RESERVED, R309
  | checkpointStart (lease : Nat) (halt : Bool)  -- CHECKPOINT_START, R315
  | checkpointComplete  -- CHECKPOINT_COMPLETE, R315
  | leaseDbaseWrite (lease : Nat) (value : W64)  -- LEASE_DBASE_WRITE, R304
  | routeWrite (node : Nat) (mask : BitVec 16)  -- ROUTE_WRITE, R311
  | frameRoleWrite (die frame : Nat) (value : W64)  -- FRAME_ROLE_WRITE, R313
  | pagerWindowWrite (die off : Nat) (value : W64)  -- PAGER_WINDOW_WRITE, R302
  | pagerRestart (die : Nat)  -- PAGER_RESTART, R310
  | leaseWarn (lease : Nat)  -- LEASE_WARN, R306
  | leaseWarnRepeat (lease : Nat)  -- LEASE_WARN_REPEAT, R306
  | leaseExpire (lease : Nat)  -- LEASE_EXPIRE, R305
  | grant (lease node : Nat) (pool len : Nat) (safe : Bool) (remain : Nat)  -- GRANT, R305
  | renewAck (lease remain : Nat)  -- RENEW_ACK, R305
  | renewNak (lease : Nat)  -- RENEW_NAK, R314
  | revoke (lease : Nat)  -- REVOKE, R305
  | revokeAck (lease : Nat)  -- REVOKE_ACK, R307
  | releaseAck (lease : Nat)  -- RELEASE_ACK, R305
  | nodeDown (node : Nat)  -- NODE_DOWN, R311
  | leaseMessageInvalid (kind : Nat)  -- LEASE_MESSAGE_INVALID, R314
  | leaseopTimeout (die : Nat)  -- LEASEOP_TIMEOUT, R314
  | pgmoveSwitch (die : Nat)  -- PGMOVE_SWITCH, R326
  | upg (node addr : Nat)  -- UPG, R323
  | bisnpinvblk (node addr : Nat)  -- BISNPINVBLK, R323
  | birspiblk (slot addr : Nat)  -- BIRSPIBLK, R323
  | upgCmp (addr status : Nat)  -- UPG_CMP, R323
  | snoopTimeout (slot addr : Nat)  -- SNOOP_TIMEOUT, R325
  | bisnpdata (node addr : Nat)  -- BISNPDATA, R324
  | hostSnoopResponse (line : Nat) (hi : Bool) (inv : Bool) (dirty : Option (BitVec 512))  -- HOST_SNOOP_RESPONSE, R328
  | cxlMemRequest (node addr : Nat) (host : Bool) (write : Option (BitVec 512)) (excl : Bool)  -- CXL_MEM_REQUEST, R320
  | unsupportedFeatureRequest (port : Nat)  -- UNSUPPORTED_FEATURE_REQUEST, R319
  | wreg (node pctx expno : Nat) (rd wr : Bool) (key : W32)  -- WREG, R330
  | wregAck (fid sw : Nat) (len : Nat)  -- WREG_ACK, R330
  | wregNak (fid sw : Nat) (reason : Nat)  -- WREG_NAK, R330
  | wregTimeout (fid sw : Nat)  -- WREG_TIMEOUT, R330
  | vendorMessageInvalid (kind : Nat)  -- VENDOR_MESSAGE_INVALID, R330
  | apertureAccess (node addr : Nat) (write : Option (List Byte)) (len : Nat)  -- APERTURE_ACCESS, R331
  | apertureResponse (fid sw : Nat) (ok : Bool) (data : List Byte)  -- APERTURE_RESPONSE, R331
  | windowArrivalWrite (node pctx expno : Nat)  -- WINDOW_ARRIVAL_WRITE, R331
  | heartbeat  -- HEARTBEAT, R431
  | agentDead (node : Nat)  -- AGENT_DEAD, R332
  | teaselDirectoryWalk (slot : Nat)  -- TEASEL_DIRECTORY_WALK, R333
  | directoryEccError (line : Nat)  -- DIRECTORY_ECC_ERROR, R334
  | portRetrain (port : Nat)  -- PORT_RETRAIN, R332
  | contentReclaim (region : Nat)  -- CONTENT_RECLAIM, R365
  | contextScrubUnit (ctx : Nat)  -- CONTEXT_SCRUB_UNIT, R406
  | contextScrubComplete (ctx : Nat)  -- CONTEXT_SCRUB_COMPLETE, R406
  | regionScrubComplete (region : Nat)  -- REGION_SCRUB_COMPLETE, R355
  | enqueue (vf : Option Nat) (page off : Nat) (pasid : Option Nat) (record : List W64)  -- ENQUEUE, R409
  | barUnsupportedAccess (vf : Option Nat) (bar off : Nat)  -- BAR_UNSUPPORTED_ACCESS, R408
  | agentClaim (core : Nat)  -- AGENT_CLAIM, R413
  | launchCheck (core : Nat)  -- LAUNCH_CHECK, R107
  | manageExecute (core : Nat)  -- MANAGE_EXECUTE, R411
  | launchComplete (launch : Nat)  -- LAUNCH_COMPLETE, R414
  | agentMismatch (core : Nat)  -- AGENT_MISMATCH, R412
  | debugStop (via : Via) (ctx ltag field : Nat)  -- DEBUG_STOP, R415
  | debugRelease (via : Via) (ctx ltag field : Nat)  -- DEBUG_RELEASE, R415
  | counterClear (vf : Option Nat)  -- COUNTER_CLEAR, R420
  | logModeWrite (vf : Option Nat) (off : Nat) (value : W64)  -- LOG_MODE_WRITE, R420
  | counterBankWrite (vf : Option Nat) (off : Nat) (value : W64)  -- COUNTER_BANK_WRITE, R420
  | deviceReset  -- DEVICE_RESET, R427
  | bootStepComplete (ok : Bool)  -- BOOT_STEP_COMPLETE, R427
  | mctpControl  -- MCTP_CONTROL, R426
  | getVersion  -- GET_VERSION, R426
  | getCapabilities  -- GET_CAPABILITIES, R426
  | negotiateAlgorithms  -- NEGOTIATE_ALGORITHMS, R426
  | getDigests  -- GET_DIGESTS, R426
  | getCertificate  -- GET_CERTIFICATE, R426
  | challenge  -- CHALLENGE, R426
  | getMeasurements  -- GET_MEASUREMENTS, R426
  | keyExchange  -- KEY_EXCHANGE, R426
  | finish  -- FINISH, R426
  | endSession  -- END_SESSION, R426
  | regionCreate (via : Via) (id capk owner : Nat) (store home : Nat) (follow : Option Nat)  -- REGION_CREATE, R353
  | regionDestroy (via : Via) (id : Nat)  -- REGION_DESTROY, R355
  | vfBind (via : Via) (vf : Nat) (ctx : Option Nat)  -- VF_BIND, R402
  | llcCarve (via : Via) (die mib : Nat)  -- LLC_CARVE, R255
  | bankCarve (via : Via) (core : Nat) (mask : W64) (release : Bool)  -- BANK_CARVE, R256
  | logRead (via : Via) (index : Nat)  -- LOG_READ, R429
  | updateStage (via : Via) (image : Nat) (version : W32) (verified : Bool)  -- UPDATE_STAGE, R428
  | sensorRead (via : Via) (index : Nat)  -- SENSOR_READ, R426
  | keyReplace (via : Via) (ctx : Nat) (key : BitVec 512)  -- KEY_REPLACE, R404
  | powerSample (milliwatt : Nat)  -- POWER_SAMPLE, R430
  | temperatureSample (readings : List Nat)  -- TEMPERATURE_SAMPLE, R430
  | correctedError (uclass index : Nat)  -- CORRECTED_ERROR, R432
  | uncorrectableError (uclass index : Nat) (line : Option Nat)  -- UNCORRECTABLE_ERROR, R432
  | unitTestComplete (uclass index : Nat) (pass : Bool)  -- UNIT_TEST_COMPLETE, R433
  | tagParityError (l2 : Bool) (unit set : Nat)  -- TAG_PARITY_ERROR, R435
  | heartbeatReceive (node : Nat)  -- HEARTBEAT_RECEIVE, R332
  | hostLinkDown  -- HOST_LINK_DOWN, R333
  | powerLoss  -- POWER_LOSS, R430
  | localFrameScrub (frame : Nat)  -- LOCAL_FRAME_SCRUB, R276
  | releasedBankZero (core bank : Nat)  -- RELEASED_BANK_ZERO, R256
  | context0RingsSet (rbase tbase : W64) (rsize tsize : Nat)  -- CONTEXT0_RINGS_SET, R393
  deriving DecidableEq, Repr, Inhabited

end Sys2Proof
end

