-- ==== Sys2Proof/Config.lean ====
section
/-! DEFINITION. What the specification leaves open: free values that nothing in Lean can evaluate.
Each is an opaque constant applied to a counter of the state or to the operands it depends on. -/

namespace Sys2Proof.Config

/-- Which happening comes next when nothing is pending (notes/assumptions/1.md). -/
opaque happening : Nat → Instr

/-- A free choice between two allowed outcomes (notes/assumptions/2.md, 7.md). -/
opaque freeBool : Nat → Bool

/-- A free choice among allowed alternatives; taken modulo how many there are (8.md). -/
opaque freeNat : Nat → Nat

/-- Whether a party is held back by timing alone at an issue decision: its stall count, or a result
of variable latency that has not come back (notes/assumptions/14.md). -/
opaque heldByTiming : Nat → Bool

/-- A key that Heath draws from its random source for a key slot (R404; notes/assumptions/24.md). -/
opaque freeKey : Nat → BitVec 512

/-- `sr.savemax`, which Heath sets at boot from the device's configuration (R391; 23.md). -/
opaque savemax : BitVec 32

/-- A sensor's reading (R426; notes/assumptions/23.md). -/
opaque sensor : Nat → Nat

/-- The answer Heath gives to an SPDM request, beyond what R426 says (notes/assumptions/13.md). -/
opaque spdmAnswer : Nat → List (BitVec 8)

/-- The bytes by which DSP0274 names the signing algorithm offered, ML-DSA-44 over SHA3-256 digests
(R14, R426; notes/assumptions/13.md). -/
opaque mlDsa44Sha3 : List (BitVec 8)

/-- The pager firmware that Heath loads into a pager core's SRAM (R301; notes/assumptions/25.md). -/
opaque pagerImage : Nat → List (BitVec 32)

/-- The node numbers that the pool manager's configuration gives the sharer agent table (R320). -/
opaque sharerNode : Nat → Option Nat

/-- The device's own node number, which its heartbeats carry (R320, R431). -/
opaque ownNode : Nat

/-- A line's range is of read-only class: its lease grants write to no agent (R322). -/
opaque readOnlyClass : Nat → Bool

/-- The slots whose lease or host mapping covers a line (R334). -/
opaque eligibleSlots : Nat → List Nat

/-- The MiB of a die's LLC that Heath carves for pinning at boot, in steps of 16 MiB taken modulo 9
(R427). -/
opaque bootCarve : Nat → Nat

/-- The set of a cluster's L2 that holds a line, from its context and VA (R435). -/
opaque cacheSet : Nat → Nat → Nat

/-- The lines that the LLC holds dirty when tags of it fail: each with the context that its summary
names for it, and its set (R435). -/
opaque llcDirtyLines : Nat → List (Nat × Nat × Nat)

/-- The slice, of the home die's 256, that holds a bucket of the directory of the region with a store
(R357, R434; notes/assumptions/156.md). -/
opaque bucketSlice : Nat → Nat → Nat

/-- What a line holds once its dirty copy in the LLC is discarded: its bytes as of some earlier write
(R435). -/
opaque olderLine : Nat → Nat → BitVec 1024

end Sys2Proof.Config
end

