-- ==== Sys2Proof/Machine/State.lean ====
section
/-! DEFINITION. The state of the device as plain data: swaths, fields, launches, contexts, memory and
its copies, the page cache and the pagers, content regions, queues and Heath. The rule of the
specification that names each piece of state stands beside it. -/

namespace Sys2Proof.Machine
open Sys2Proof

/-- Bytes by address in canonical form: addresses strictly rising, no entry equal to 0, which is what
an unlisted address reads as (notes/assumptions/3.md). -/
abbrev Mem := List Host.Cell

/-- A map from numbers, keys strictly rising. -/
abbrev NMap (V : Type) := List (Nat × V)

/-! ### A swath (R29, R279-R283) -/

/-- A register as the scoreboard and the region check name it (R26, R28). -/
inductive RegName
  | x (n : Nat) | v (n : Nat) | k (n : Nat) | w (n : Nat) | sr (n : Nat)
  deriving DecidableEq, Repr

/-- A result of fixed latency that still lacks `left` issue slots (R26, R45, R74). -/
structure Need where
  reg : RegName
  left : Nat
  deriving DecidableEq, Repr

/-- The lane stream's state in the handshake (R61). -/
inductive Handshake
  | idle | running | held
  deriving DecidableEq, Repr

/-- What the scalar stream waits in, with the operands of the waiting form (R65-R67, R121). -/
inductive SWait
  | none
  | lwait (d n : Nat)
  | barw (b : Nat)
  | bars (b : Nat)
  | waitm (d cc : Nat) (wide : Bool) (addr cmp : W64)
  | exit
  | mwait (batch : BitVec 16)
  | waitc (cls n : Nat)
  | pbwait (d : Nat) (off : W64) (phase : Bool)
  | wcntw (d exp : Nat) (threshold : W64)
  | tret
  /-- A `WAITM` whose condition held while its field was out: the value it writes at the resume
  (R126). -/
  | waitmHit (d : Nat) (value : W64)
  /-- A window form waits for its import to be registered (R330). -/
  | wreg (imp : Nat)
  /-- A pager form waits: DEQ read, `LEASEOP` answer, `PGMOVE` switch, `PGUPG` completion. -/
  | deq (d len : Nat)
  | leaseop (d lease : Nat) (release : Bool)
  | pgfill (d unit : Nat)
  | pgmove (d unit : Nat)
  | pgupg (d unit : Nat)
  deriving DecidableEq, Repr

/-- What a fragment waits in (R121, R138). -/
inductive FWait
  | ready
  | join
  /-- A `BARS` whose arrival has been made. -/
  | bars (b : Nat)
  | barw (b : Nat)
  deriving DecidableEq, Repr

/-- Who waits on a fault's service (R292, R308). -/
inductive Requester
  | swath (fid sw : Nat)
  | chain (fid sw uid : Nat)
  | xfer (fid sw uid : Nat)
  | tolerant
  | pfh
  /-- A field whose slot could not be reached: it is written or read again after the service (R285). -/
  | arena (fid : Nat)
  /-- A swath, one of whose register lines the register cache cannot fill (R285). -/
  | line (fid sw : Nat)
  /-- A ring of a context, whose oldest waiting record needs the service (R393). -/
  | ring (ctx : Nat) (retry : Bool)
  /-- A dword of a slot, by its number among those that wait (R285). -/
  | slot (uid : Nat)
  /-- An access of another agent at this exporter, by its number among those that wait (R212, R330). -/
  | exporting (uid : Nat)
  /-- A firmware agent: the one on a core with its claim, or, from 192 on, a launch's completion. -/
  | agent (who : Nat)
  deriving DecidableEq, Repr

/-- A parked swath, with what the record of its fault says (R287, R291). It becomes ready when its
service record or its owner releases it; a servicer that cannot resolve the fault sends this record on
(R292). -/
structure Park where
  cause : BitVec 16
  va : W64
  code : Nat := 0
  src : Bool := false
  level : Nat := 0
  lane : Nat := 0
  lpc : W32 := 0
  spc : W64 := 0
  deriving DecidableEq, Repr

/-- A trap frame (R237, R282). -/
structure TFrame where
  cause : BitVec 16
  code : BitVec 11
  src : Bool
  tpc : W64
  tva : W64
  tlpc : W32
  /-- The PC of the `BARS` that the trap interrupted after its arrival, so that `TRET` resumes the wait
  alone (R66; notes/assumptions/38.md). -/
  bars : Option W64 := none
  deriving DecidableEq, Repr

/-- A live fragment (R138, R282), with its scoreboard and the registers its region has read. -/
structure Frag where
  mask : LaneMask
  pc : W32
  rpc : W32
  fmt : W64
  rfmt : W64
  tok : BitVec 32
  wait : FWait
  held : Bool
  pend : Bool
  /-- The place of its pending fault in the order in which faults were raised, from 1; 0 for none, and
  again once the instruction has been executed afresh (R240). -/
  pendAt : Nat := 0
  /-- The end lane PC of the `TRUN` that runs the handler fragment (R241). -/
  endPc : Option W32
  sb : List Need
  rset : List RegName
  /-- Decisions of its class that chose another, and since when it is aged; its number in the order of
  creation within its swath (R122). -/
  passed : Nat
  aged : Option Nat
  born : Nat
  /-- Its instruction has had its issue slot and is performed once what it waits for is over: the slots in
  which it is tried again are idle (R418). -/
  charged : Bool := false
  deriving DecidableEq, Repr

/-- The kind of a stack entry (R129). -/
inductive EntKind
  | dual | first | second
  /-- A TRAP entry of nesting level 1 or 2. -/
  | trap (level : Nat)
  deriving DecidableEq, Repr

/-- An entry of the reconvergence stack (R129). -/
structure StackEnt where
  mask : LaneMask
  jpc : W32
  apc : W32
  kind : EntKind
  nest : Bool
  arm : Bool
  abars : Bool
  /-- The barrier in whose wait the held arm stopped: the word at APC names it (R134). -/
  hbar : Option Nat
  /-- The end lane PC of the fragment that the entry holds (R241). -/
  endPc : Option W32
  /-- The held arm's number in the order of creation (R122). -/
  born : Nat
  /-- The results that the held arm's next instructions still wait for (R132). -/
  sb : List Need := []
  /-- The held arm is trap-held (R139; notes/assumptions/120.md). -/
  held : Bool := false
  heldArm : Bool
  conv : Bool
  jfmt : W64
  afmt : W64
  atok : BitVec 32
  deriving DecidableEq, Repr

/-- A weight plane: where and in which format it was loaded, and the bytes then read (R147, R149).
Format 15 is none. -/
structure Plane where
  off : Nat
  fmt : BitVec 4
  img : Mem
  deriving DecidableEq, Repr

/-- A matrix operation that is not complete (R283). -/
structure MatOp where
  kind : Nat
  tile : Nat
  prog : Nat
  batch : BitVec 16
  closed : Bool
  fmt : W64
  gen : W32
  src : Nat
  desc : List W64
  /-- Flags raised so far; they enter `sr.flags` at completion (R142). -/
  flags : BitVec 7
  deriving DecidableEq, Repr

/-- A `CCOPY` in progress (R348). -/
structure CopyTree where
  region : Nat
  name : BitVec 128
  depth : Nat
  dst : W64
  len : Nat
  pos : Nat
  deriving DecidableEq, Repr

/-- A LOOP entry that a chain has reached: the offsets of its body's first entry and of itself, the
iteration count, and the increments that it held (R165). -/
structure LoopAt where
  start : Nat
  off : Nat
  j : Nat
  sinc : W64
  dinc : W64
  deriving DecidableEq, Repr

/-- A chain that has not counted as complete (R162, R169, R283). -/
structure Chain where
  uid : Nat
  head : Nat
  cur : Nat
  loops : List LoopAt
  i1 : Nat
  i2 : Nat
  done : Bool
  /-- It waits for the service of a fault (R168), at this VA. -/
  waiting : Bool
  faultVa : W64 := 0
  /-- The entry reached, as it was read then (R162). -/
  entry : Option (List W64) := none
  /-- The indices of the GATHER reached, read before it wrote anything (R227). -/
  idx : List Nat := []
  ccopy : Option CopyTree
  /-- Absent rows of the GATHER in progress (R165). -/
  absent : List Nat
  /-- The DPA units that its accesses have reached, and whether a range entry of one is gone (R399). -/
  units : List Nat
  revoked : Bool
  deriving DecidableEq, Repr

/-- How far a window transfer has come: its requests not sent, sent, answered by the exporter; or it
is complete and waits to count (R211, R331). -/
inductive XPhase
  | unsent | sent | answered | written | done
  deriving DecidableEq, Repr

/-- A window transfer in progress (R211). -/
structure Xfer where
  uid : Nat
  post : Bool
  src : W64
  off : Nat
  imp : Nat
  len : Nat
  node : Nat
  pctx : Nat
  expno : Nat
  phase : XPhase
  /-- It waits for the service of a fault (R212), at this VA. -/
  waiting : Bool
  faultVa : W64 := 0
  /-- The bytes that the exporter answered a `WGET` with. -/
  data : List Byte
  /-- As of a chain. -/
  units : List Nat
  revoked : Bool
  deriving DecidableEq, Repr

/-- A `PFH` hint whose fills are not all complete (R216, R277). -/
structure Hint where
  group : Nat
  deriving DecidableEq, Repr

/-- A result of `LRED` or `VOTE` not yet written (R90, R285). -/
structure Late where
  second : Bool
  w : Nat
  value : W64
  flags : BitVec 7
  deriving DecidableEq, Repr

/-- The registers of a swath (R29-R33). Unlisted `x`, `v` (keyed by number × 1,024 + lane), `k` and
`w` entries read 0. -/
structure Regs where
  x : NMap W64
  v : NMap W32
  k : NMap LaneMask
  wS : NMap W64
  wL : NMap W64
  pc : W64
  fmt : W64
  flags : BitVec 7
  /-- Flags of lane instructions not yet covered by an `LWAIT`, with ISSUED when set (R69, R72). -/
  laneFlags : List (W32 × BitVec 7)
  seed : W64
  chk : BitVec 2
  rgnEntry : W64
  rgnSeq : BitVec 8
  deriving DecidableEq, Repr

/-- The handshake and the transfers between the two views of the uniform registers (R61, R280). -/
structure Meet where
  hs : Handshake
  go : Bool
  sig : Nat
  fmtSet : Bool
  barsDone : Bool
  /-- The PC of the `BARS` whose arrival `barsDone` records. -/
  barsPc : W64
  wset : BitVec 16
  lwset : BitVec 16
  /-- Copies staged by `LGO`: which registers, their values, the format, the reseed (R63, R183). -/
  staged : BitVec 16
  wG : NMap W64
  stagedFmt : Option W64
  seedSet : Bool
  stagedSeed : Option W64
  issued : W32
  consumed : W32
  lwstamp : NMap (BitVec 16)
  deriving DecidableEq, Repr

/-- Trap state, waits and the checks of the scalar stream (R26, R28, R121, R237). -/
structure Ctl where
  level : Nat
  f1 : TFrame
  f2 : TFrame
  wait : SWait
  parked : Option Park
  exited : Bool
  /-- A handler is entered once the scalar instruction in progress has completed (R239). -/
  entering : Bool := false
  /-- It waits for the service of a fault on a line of its image, which the register cache fills (R285). -/
  lineWait : Bool := false
  yielded : Bool
  sb : List Need
  rset : List RegName
  passed : Nat
  aged : Option Nat
  deriving DecidableEq, Repr

/-- Engine state of a swath (R143, R147, R157, R183). -/
structure Engines where
  nb : BitVec 16
  copies : Nat
  matrix : Nat
  gathers : Nat
  windows : Nat
  stok : BitVec 32
  mgen : W32
  /-- A reseed of the matrix generator, carried by the next matrix operation issued (R183). -/
  mseed : Option W32
  /-- Lane generators: the seed they were last seeded from and the states since (R183). -/
  lseed : W64
  lgen : NMap W32
  fpA : Plane
  fpS : Plane
  tnA : Plane
  tnS : Plane
  mq : List MatOp
  chains : List Chain
  xfers : List Xfer
  hints : List Hint
  deriving DecidableEq, Repr

/-- The lane stream: the live fragments and the reconvergence stack, oldest entry first (R127). -/
structure LaneStream where
  f0 : Option Frag
  f1 : Option Frag
  stack : List StackEnt
  late : List Late
  /-- Fragments created so far (R122). -/
  births : Nat
  deriving DecidableEq, Repr

/-- A swath. -/
structure Swath where
  sw : Nat
  quad : Nat
  role : Nat
  /-- Lanes divided by 32, and lane registers (R279). -/
  ng : Nat
  vregs : Nat
  /-- The core on which it last issued (R231). -/
  lastCore : Nat
  regs : Regs
  meet : Meet
  ctl : Ctl
  eng : Engines
  lanes : LaneStream
  deriving DecidableEq, Repr

/-! ### Fields and launches (R106, R109-R120, R278) -/

/-- A named barrier (R66). -/
structure Bar where
  expected : Nat
  pending : Nat
  phase : Bool
  deriving DecidableEq, Repr

/-- Why a field is stopped for the debugger (R415, R416). -/
structure Stop where
  brk : Bool
  cmd : Bool
  code : Nat
  mask : W32
  /-- Every swath has halted and the field is out. -/
  halted : Bool
  deriving DecidableEq, Repr

/-- Where a field is (R278, R283). -/
inductive FStatus
  | resident | swapped | faulted | ended
  deriving DecidableEq, Repr

structure Field where
  launch : Nat
  ctx : Nat
  num : Nat
  mx : Nat
  my : Nat
  status : FStatus
  ready : Bool
  /-- When it became ready to resume (R115). -/
  readyAt : Nat
  core : Nat
  mquad : Nat
  slot : Nat
  banks : List Nat
  tiles : Nat
  scrKib : Nat
  acc : NMap W32
  spad : Mem
  bars : List Bar
  stop : Option Stop
  /-- A tenant slice end or reconvergence wait is running (R300). -/
  slicing : Bool
  /-- Its state is still to be written to its slot, which could not be reached (R285). -/
  saving : Bool := false
  /-- An access of its slot waits for a servicer (R285). -/
  arena : Bool := false
  sws : NMap Swath
  deriving DecidableEq, Repr

/-- The launch record (R106). -/
structure LaunchRec where
  scode : W64
  lcode : W64
  llen : Nat
  const : W64
  clen : Nat
  count : Nat
  swaths : Nat
  lanes : Nat
  acc : Nat
  barr : Nat
  vregs : Nat
  scr : Nat
  mw : Nat
  mh : Nat
  cls : Nat
  /-- Copy, matrix, epilogue, general: swath count and lane registers minus 1. -/
  roles : List (Nat × Nat)
  chk : BitVec 2
  seed : W64
  compl : W64
  imgva : W64
  imgslots : Nat
  deriving DecidableEq, Repr

structure Launch where
  ctx : Nat
  ltag : W32
  irq : Bool
  vec : Nat
  /-- The context's virtual function when the launch was submitted (R390, R402). -/
  vf : Option Nat
  lrec : LaunchRec
  cls : Nat
  accNo : Nat
  /-- The next field or meadow to start, and how many are finished and faulted. -/
  next : Nat
  finished : Nat
  faulted : Nat
  slots : List Nat
  completing : Bool
  complWait : Bool
  done : Bool
  /-- The lines of the constant block that have been read, by VA line: a copy that no later write
  changes (R55, R220). -/
  consts : NMap (BitVec 1024) := []
  /-- The lines of code that have been fetched for it, by DPA line, as they stood then (R234). -/
  code : NMap (BitVec 1024) := []
  deriving DecidableEq, Repr

/-- A record that an agent has claimed: queue, words, acceptance number, and the context, class and
virtual function of its binding at acceptance (R402, R410, R413). -/
structure Claim where
  queue : Nat
  words : List W64
  accNo : Nat
  ctx : Nat
  cls : Nat
  vf : Option Nat
  waiting : Bool
  /-- The launch record's dwords, once the agent has read them (R105). -/
  lrec : Option (List W64) := none
  deriving DecidableEq, Repr

/-! ### Contexts (R389) -/

inductive CtxState
  | live | dying | scrubbing
  deriving DecidableEq, Repr

/-- The policy dword of the creation descriptor (R374). -/
structure Policy where
  widest : Nat
  clampTrap : Bool
  debug : Bool
  tlbi : Bool
  create : Bool
  maxClass : Nat
  prot : Bool
  rwait : Nat
  deriving DecidableEq, Repr

/-- A range-table entry with its lineage: the (child, grant) pairs that made it (R261, R394). -/
structure RangeEnt where
  cbase : Nat
  dbase : Nat
  len : Nat
  r : Bool
  w : Bool
  x : Bool
  lineage : List (Nat × Nat)
  deriving DecidableEq, Repr

/-- What a grant gives (R375). -/
inductive GrantKind
  | quad (core qmask : Nat) (excl : Bool)
  | banks (core : Nat) (mask : W64)
  | range
  | queue (q : Nat)
  deriving DecidableEq, Repr

/-- A grant held from the parent. -/
structure Grant where
  id : Nat
  kind : GrantKind
  deriving DecidableEq, Repr

/-- Budgets (R378). -/
structure Budgets where
  weight : Nat
  overrun : Bool
  quantum : Nat
  frames : Nat
  poolbw : Nat
  gwbw : Nat
  faultsh : Nat
  deriving DecidableEq, Repr

/-- A fault ring (R393). `size` is log₂ of its records; 0 is no ring. -/
structure Ring where
  base : W64
  size : Nat
  prod : W32
  lost : Nat
  deriving DecidableEq, Repr

/-- A content binding (R346). -/
structure Binding where
  id : Nat
  region : Nat
  name : BitVec 128
  depth : Nat
  win : W64
  len : Nat
  deriving DecidableEq, Repr

/-- A window-table entry kept by the device, with the registration of an import (R329, R330). -/
structure WinEnt where
  num : Nat
  words : List W64
  /-- An import's registered length. -/
  reg : Option Nat
  /-- WREG has been sent and is not answered. -/
  asked : Bool
  /-- A `TLBI.ctx` has dropped the entry while its WREG is not answered: no later instruction uses it
  (R329, R330). -/
  stale : Bool := false
  deriving DecidableEq, Repr

/-- A lane-cycle bin (R418-R420). -/
structure Bin where
  lo : W32
  hi : W32
  active : W64
  masked : W64
  predOff : W64
  absent : W64
  idle : W64
  passes : W64
  deriving DecidableEq, Repr

/-- A counter bank with its log registers (R420). -/
structure Bank where
  en : Bool
  lcen : Bool
  /-- INTERF, FEVICT, four MISS, WALKS, FILLS, POOL, FAULTS, SWAPS, CEVICT. -/
  counters : NMap W64
  bins : NMap Bin
  logBase : W64
  logSz : Nat
  trace : Bool
  record : Bool
  replay : Bool
  logProd : W64
  /-- The next sequence number of a loggable event. -/
  logSeq : Nat
  nrseq : Nat
  nr : Bool
  /-- Since its counters were last zeroed it has counted, up to now or up to this index of the free
  counter (R420; notes/assumptions/80.md). -/
  ran : Option Nat := none
  deriving DecidableEq, Repr

structure Context where
  parent : Nat
  depth : Nat
  state : CtxState
  part : Nat
  policy : Policy
  root : Nat
  handler : W64
  ranges : List RangeEnt
  grants : List Grant
  budgets : Budgets
  pending : Option Budgets
  /-- WEIGHT used in the current period, by 2 × quadrant + (1 for lane passes) (R397). -/
  usedW : NMap Nat
  retry : Ring
  terminal : Ring
  winTab : W64
  wins : List WinEnt
  bindings : List Binding
  vf : Option Nat
  key : Option Nat
  /-- It has accessed pool space (R404). -/
  poolUsed : Bool
  /-- Units of its scrub left, and in all (R406). -/
  scrubLeft : List (Nat × Nat)
  scrubAll : Nat
  /-- Every unit of its scrub, withheld until the last one is scrubbed (R406). -/
  scrubHeld : List (Nat × Nat) := []
  deriving DecidableEq, Repr

/-- What a context has used in the current period beside WEIGHT: pool transfers, and line requests at its
gateways (R397). -/
structure Use where
  pool : Nat := 0
  gw : Nat := 0
  deriving DecidableEq, Repr

/-! ### Memory beside the bytes (R221, R214, R266, R271) -/

/-- A copy of a line in a core L1 or a cluster L2 (R221, R264). -/
structure Copy where
  unit : Nat
  ctx : Nat
  va : Nat
  dpa : Nat
  r : Bool
  w : Bool
  x : Bool
  s : Bool
  cls : Nat
  /-- The size code of the page through which it was filled (R270). -/
  size : Nat := 0
  valid : BitVec 128
  dirty : BitVec 128
  data : BitVec 1024
  deriving DecidableEq, Repr

/-- A composed translation held in a TLB (R266): a gateway's, by its number, or a die's last-level TLB,
by 32 and its number. `span` is the number of 64 KiB units that it is held as (R263). -/
structure TlbEnt where
  gateway : Nat
  ctx : Nat
  va : Nat
  size : Nat
  dpa : Nat
  r : Bool
  w : Bool
  x : Bool
  s : Bool
  home : Nat
  cls : Nat
  ace : Bool
  span : Nat := 1
  /-- The stage-2 entry grants R (R361). -/
  r2 : Bool := true
  deriving DecidableEq, Repr

/-- A table entry of level 3 to 1 that a die's walker cache holds, by the index bits of the VA above its
level (R267). -/
structure WalkEnt where
  die : Nat
  ctx : Nat
  level : Nat
  index : Nat
  pte : W64
  deriving DecidableEq, Repr

/-- What a child of a content node is: nothing, a line of a kind at a slot, or a name that its level or
the directory does not bear out (R361, R362). -/
inductive Kid
  | empty
  | at (kind slot : Nat)
  | bad
  deriving DecidableEq, Repr

/-- A resolved content node held in a TLB as an entry: window VA, span in bytes, and its children
(R362). The holder is numbered as a `TlbEnt`'s. -/
structure NodeEnt where
  gateway : Nat
  ctx : Nat
  va : Nat
  span : Nat
  kids : List Kid
  deriving DecidableEq, Repr

/-- A deferred-release record on a signal line (R214). -/
structure Deferred where
  line : Nat
  ctx : Nat
  core : Nat
  deriving DecidableEq, Repr

inductive FrRole
  | direct | cache | reserve | local_ | retired
  deriving DecidableEq, Repr

inductive FrState
  | free | filling | clean | dirty | writeback | shared | upgrading
  deriving DecidableEq, Repr

/-- A frame-map entry (R271), with the context it is charged to (R398) and the group of the `PFH` hint
that holds it, 0 for none (R274). -/
structure Frame where
  role : FrRole
  st : FrState
  count : Nat
  unit : Nat
  lease : Nat
  charge : Nat
  hold : Nat
  /-- It belongs to a set, for good once the sets are fixed (R275). -/
  inSet : Bool
  deriving DecidableEq, Repr

inductive LeaseState
  | empty | live | expired | revoked | lost | releasing
  deriving DecidableEq, Repr

/-- A lease (R303). -/
structure Lease where
  st : LeaseState
  warn : Bool
  ack : Bool
  node : Nat
  remain : Nat
  pbase : Nat
  dbase : Nat
  len : Nat
  safe : Bool
  /-- REVOKE_ACK is still to be sent (R307). -/
  ackDue : Bool := false
  deriving DecidableEq, Repr

/-- A pool node or agent: its ports, its lost state and its heartbeats (R311, R332). -/
structure Node where
  route : BitVec 16
  lost : Bool
  /-- A NODE_DOWN took part in the loss and no GRANT has come since. -/
  needGrant : Bool
  missed : Nat
  /-- It has been declared dead, and none of its ports has been retrained since (R332). -/
  dead : Bool := false
  deriving DecidableEq, Repr

/-- A fill that is asked for or in progress (R272), with the group of its hint (R277), the requester
kind (3 tolerant, 4 `PFH`; R308) and a snoop that met it (R324). -/
structure Fill where
  unit : Nat
  ctx : Nat
  group : Nat
  rq : Nat
  frame : Option Nat
  snooped : Bool
  deriving DecidableEq, Repr

/-- An open dual-home window (R326). -/
structure Move where
  unit : Nat
  die : Nat
  src : Nat
  dst : Nat
  off : Nat
  copied : Bool
  deriving DecidableEq, Repr

/-- A redirected unit (R327). -/
structure Redirect where
  die : Nat
  unit : Nat
  src : Nat
  dst : Nat
  off : Nat
  deriving DecidableEq, Repr

inductive RecState
  | waiting | queued | dequeued
  deriving DecidableEq, Repr

/-- A service record (R308). -/
structure Service where
  idx : Nat
  st : RecState
  cause : BitVec 16
  kind : Nat
  noLease : Bool
  merged : Bool
  lease : Nat
  ctx : Nat
  rq : Nat
  va : W64
  dpa : Nat
  coords : W64
  event : Nat
  seq : Nat
  reqs : List Requester
  deriving DecidableEq, Repr

/-- A die's pager core and its window (R301, R302). -/
structure Pager where
  sw : Swath
  sram : Mem
  imgLen : Nat
  running : Bool
  recs : List Service
  seq : Nat
  result : Nat
  mgrPort : Nat
  deriving DecidableEq, Repr

/-- A requester that waits for the owner of a range table (R269, R382). -/
structure S2Wait where
  owner : Nat
  seq : W32
  ctx : Nat
  va : W64
  req : Requester
  deriving DecidableEq, Repr

/-- A ring record that waits in the device (R288, R393). -/
structure RingWait where
  ctx : Nat
  retry : Bool
  words : List W64
  /-- The requester of a stage-2 walk fault, matched when the record is written. -/
  req : Option Requester
  /-- The ring access waits for the pager (R393). -/
  service : Bool
  /-- The die whose reporting port holds it. -/
  die : Nat
  deriving DecidableEq, Repr

/-- A coherence directory entry (R321). -/
structure DirEnt where
  hhi : Nat
  hlo : Nat
  owner : Nat
  shr : BitVec 48
  o : Bool
  deriving DecidableEq, Repr

/-- An upgrade at this home (R323): the owner's slot, the answers each sharer still owes, the agents
whose UPG waits for it, by their nodes. -/
structure Upgrade where
  unit : Nat
  owner : Nat
  owed : List (Nat × Nat)
  fenced : Bool
  queued : List Nat
  deriving DecidableEq, Repr

/-- What an agent asks of this exporter (R330, R331). -/
inductive ExportReq
  | wreg (rd wr : Bool) (key : W32)
  | access (off : Nat) (write : Option (List Byte)) (len : Nat)
  | arrival
  deriving DecidableEq, Repr

/-- A request to this exporter that waits: for the service of a fault, or for the host (R212, R328,
R330, R331). -/
structure ExportWait where
  uid : Nat
  node : Nat
  pctx : Nat
  expno : Nat
  req : ExportReq
  /-- It waits for a servicer. -/
  service : Bool
  /-- A servicer has given it up. -/
  refused : Bool := false
  deriving DecidableEq, Repr

/-- A dword of a field's slot that could not be written yet: it is written after the service of the fault
(R285). -/
structure SlotWait where
  uid : Nat
  die : Nat
  ctx : Nat
  va : Nat
  value : Nat
  /-- What a record of its fault says of the field (R287). -/
  coords : W64 := 0
  ltag : W32 := 0
  spc : W64 := 0
  /-- It waits for a servicer, and not for the fabric. -/
  service : Bool := true
  deriving DecidableEq, Repr

/-- A write of the device's own to a line that waits for the host or the fabric, with the counter bank
whose log it belongs to (R328, R423). -/
structure HomeWrite where
  line : Nat
  mask : BitVec 128
  data : BitVec 1024
  bank : Option Nat := none
  deriving DecidableEq, Repr

/-- An uncorrectable directory entry whose eligible agents have been asked (R334): the slots that have
not answered (the host's low half as slot 0, its high half as slot 48), and the halves that came back
dirty, with their slots. -/
structure EccWait where
  line : Nat
  owed : List Nat
  dirty : List (Nat × Nat × BitVec 512)
  /-- The accesses that wait with it: slot and address. -/
  fills : List (Nat × Nat)
  deriving DecidableEq, Repr

/-! ### Content regions (R351-R356) -/

inductive RegionState
  | free | live | destroying
  deriving DecidableEq, Repr

/-- A directory entry (R356). -/
structure DirName where
  name : BitVec 128
  slot : Nat
  count : Nat
  q : Bool
  deriving DecidableEq, Repr

structure Region where
  st : RegionState
  follow : Bool
  home : Nat
  capk : Nat
  owner : Nat
  agent : Nat
  store : Nat
  /-- Valid entries, keyed by bucket × 4 + j. -/
  dir : NMap DirName
  /-- Entries queued for reclaim, oldest first, each with its place in the order of the device (R365). -/
  reclaims : List (Nat × Nat)
  deriving DecidableEq, Repr

/-! ### Queues and Heath (R408-R413, R426-R435) -/

structure QBind where
  ctx : Nat
  pasid : Nat
  cls : Nat
  deriving DecidableEq, Repr

/-- A queue (R379, R408, R413). -/
structure Queue where
  binding : Option QBind
  head : W32
  tail : W32
  accepted : W32
  /-- Records accepted and not claimed: words, acceptance number, context and class at acceptance. -/
  recs : List Claim
  deriving DecidableEq, Repr

/-- A Heath log entry (R429). -/
structure LogEnt where
  event : Nat
  uclass : Nat
  uindex : Nat
  time : W64
  ctx : Nat
  detail : W64
  deriving DecidableEq, Repr

/-- A line as it stood before it was written while launches ran, and those launches (R234). -/
structure StaleLine where
  line : Nat
  old : BitVec 1024
  launches : List Nat
  deriving DecidableEq, Repr

/-- An image's two slots: the versions in the active one and in the other, whether the other holds a
verified image, and whether the active one has not yet been booted from (R428). -/
structure ImageSlots where
  active : W32
  other : W32
  staged : Bool
  fresh : Bool
  deriving DecidableEq, Repr

structure Heath where
  bootStep : Nat
  log : List LogEnt
  scrubMark : Bool
  llcCarve : NMap Nat
  /-- The banks of a core's pinned part, in the order in which its bytes lie in them (R256). -/
  carved : NMap (List Nat)
  released : List (Nat × Nat)
  images : NMap ImageSlots
  session : Bool
  clockMhz : Nat
  /-- The power samples of the last millisecond, in milliwatts, and the last temperatures, in °C. -/
  power : List Nat
  temps : List Nat
  /-- The coolant inlet's last temperature, in °C (R430; notes/assumptions/146.md). -/
  inlet : Nat := 0
  /-- Retired units and units under test, by class and index (R432, R433). -/
  retired : List (Nat × Nat)
  testing : List (Nat × Nat × Nat)
  /-- Every field stays out after a checkpoint with HALT (R315). -/
  halted : Bool
  /-- The device is held in reset, or has no power (R427, R430). -/
  held : Bool
  fenced : BitVec 16
  hostPcie : Bool
  hostDown : Bool
  /-- The frame that a running checkpoint copies next (R315). -/
  ckptAt : Nat := 0
  /-- The LLC slices whose share of the pinned part is lost (R434). -/
  lostShares : List Nat := []
  /-- The LLC slices that are fenced because they could not be retired (R434). -/
  shutSlices : List Nat := []
  deriving DecidableEq, Repr

/-- What the device has sent outward, newest last (R314, R316, R323, R330, R409, R414, R416, R426). A
message to an agent names the fabric port that carries it (R320); the host's port is 16. -/
inductive Out
  /-- A Vendor-Defined Type 1 message to the pool manager: its 32 bytes (R314). -/
  | lease (port : Nat) (payload : List Byte)
  /-- A Vendor-Defined Type 0 message: its 32 bytes (R330). -/
  | vendor (port node : Nat) (payload : List Byte)
  | snoop (port kind slot : Nat) (addr : Nat)
  | snoopAnswer (port kind node : Nat) (addr : Nat)
  | dataOut (port node addr : Nat) (data : List Byte)
  /-- An Unordered I/O read of an exporter's aperture (R331). -/
  | readOut (port node addr len : Nat)
  | completion (status : Nat)
  | msix (vf : Option Nat) (vec : Nat)
  | stopRec (words : List W64)
  | answer (kind : Nat) (data : List Byte)
  | heartbeat (port node own : Nat) (time : W64)
  deriving DecidableEq, Repr

/-- A step that another has brought about and that comes next: a write to the pager window takes
effect as an event of its own (R302), a lease runs out or warns by the clock (R305, R306), and a
candidate ages (R122). -/
inductive Pending
  | complete (die idx action : Nat)
  | windowWrite (die off : Nat) (value : W64)
  | checkpoint (lease : Nat) (halt : Bool)
  | dbase (lease : Nat) (value : W64)
  | route (node : Nat) (mask : BitVec 16)
  | role (die frame : Nat) (value : W64)
  | leaseExpire (lease : Nat)
  | leaseWarn (lease : Nat)
  | leaseWarnRepeat (lease : Nat)
  /-- A write has reached the line that a `WAITM` watches, or a budget period has passed (R67). -/
  | reread (p : PartyId)
  /-- What kept an access of another agent from this exporter is over: it is made again (R212, R330). -/
  | exportRetry (uid : Nat)
  /-- A candidate has stayed ready through 32 decisions of its class that chose another (R122). -/
  | ages (p : PartyId)
  deriving DecidableEq, Repr

/-- The state of the device. -/
structure State where
  /-- The model's scheduling: the party about to issue, happenings pending, the free counter
  (notes/assumptions/1.md, 2.md). -/
  chosen : Option PartyId
  agenda : List Pending
  freeCtr : Nat
  time : W64
  fields : NMap Field
  launches : NMap Launch
  nextFid : Nat
  nextReady : Nat
  /-- The next number of a chain, a transfer or a hint. -/
  nextUid : Nat
  accNo : Nat
  ctxs : NMap Context
  /-- The use of each context in the current period (R389, R397). -/
  used : NMap Use
  /-- Virtual functions whose vectors are masked, and the messages that this keeps back, by virtual
  function and vector (R402). -/
  masked : List Nat
  msixPending : List (Nat × Nat)
  claims : NMap Claim
  queues : NMap Queue
  mem : Mem
  pool : Mem
  /-- The key of each key slot, and the slot each pool unit is marked with (R404, R405). -/
  keys : NMap (BitVec 512)
  keyMap : NMap Nat
  l1 : List Copy
  l2 : List Copy
  tlb : List TlbEnt
  /-- The entry that the check of a lane's access found, while that access is performed (R99, R268). -/
  pin : Option TlbEnt
  walkCache : List WalkEnt
  nodeTlb : List NodeEnt
  deferred : List Deferred
  poisoned : List Nat
  frames : NMap Frame
  setsFixed : Bool
  fills : List Fill
  /-- Units whose LOCAL frame was lost: they read 0 (R275). -/
  zeroUnits : List Nat
  /-- Units that an access missed through an RO-SHARED page: their fills end SHARED (R271, R323;
  notes/assumptions/33.md). -/
  roUnits : List Nat
  leases : NMap Lease
  nodes : NMap Node
  moves : List Move
  redirects : List Redirect
  pagers : NMap Pager
  ckpt : W64
  ckptStat : W64
  s2waits : List S2Wait
  ringWaits : List RingWait
  dir : NMap DirEnt
  /-- The sharer agent table: the node of each slot (R320). -/
  sharers : NMap Nat
  upgrades : List Upgrade
  /-- Fills that this home holds: slot and address (R323, R324). -/
  heldFills : List (Nat × Nat)
  exportWaits : List ExportWait
  /-- Dwords of slots that wait to be written, oldest first (R285). -/
  slotWaits : List SlotWait
  /-- Writes of the device's own that wait for the host or the fabric, oldest first (R328). -/
  homeWrites : List HomeWrite
  /-- Lines written at their home while launches run that have not fetched from them, as they stood before
  (R234). -/
  stale : List StaleLine
  eccWaits : List EccWait
  regions : NMap Region
  banks : NMap Bank
  heath : Heath
  outbox : List Out
  deriving DecidableEq, Repr

/-! ### Stops -/

/-- A machine stop that is no event of the device. -/
inductive Fault
  /-- A scalar or lane instruction is executed while no party of the stream it belongs to is chosen
  to issue. No step of `Machine.step` raises it: a step issues only the instruction of the chosen
  party (safe). -/
  | noStream
  deriving DecidableEq, Repr

/-- An instruction or step without a meaning. -/
inductive Refusal
  /-- Not modelled yet, by mnemonic. No arm answers it (safe). -/
  | notModelled (mnemonic : String)
  deriving DecidableEq, Repr

/-! ### Reset -/

def TFrame.zero : TFrame :=
  { cause := 0, code := 0, src := false, tpc := 0, tva := 0, tlpc := 0 }

def Plane.none : Plane := { off := 0, fmt := 15, img := [] }

def Regs.zero : Regs :=
  { x := [], v := [], k := [], wS := [], wL := [], pc := 0, fmt := 0, flags := 0, laneFlags := [],
    seed := 0, chk := 0, rgnEntry := 0, rgnSeq := 0 }

def Meet.zero : Meet :=
  { hs := .idle, go := false, sig := 0, fmtSet := false, barsDone := false, barsPc := 0, wset := 0, lwset := 0,
    staged := 0, wG := [], stagedFmt := .none, seedSet := false, stagedSeed := .none, issued := 0,
    consumed := 0, lwstamp := [] }

def Ctl.zero : Ctl :=
  { level := 0, f1 := .zero, f2 := .zero, wait := .none, parked := .none, exited := false,
    yielded := false, sb := [], rset := [], passed := 0, aged := .none }

def Engines.zero : Engines :=
  { nb := 0, copies := 0, matrix := 0, gathers := 0, windows := 0, stok := 0, mgen := 0, mseed := .none, lseed := 0,
    lgen := [], fpA := .none, fpS := .none, tnA := .none, tnS := .none, mq := [], chains := [],
    xfers := [], hints := [] }

/-- A swath all of whose registers read 0 (R110, R301). -/
def Swath.zero : Swath :=
  { sw := 0, quad := 0, role := 0, ng := 1, vregs := 0, lastCore := 0, regs := .zero, meet := .zero,
    ctl := .zero, eng := .zero, lanes := { f0 := .none, f1 := .none, stack := [], late := [], births := 0 } }

/-- A pager core before its firmware runs (R301, R302). -/
def Pager.zero : Pager :=
  { sw := .zero, sram := [], imgLen := 0, running := false, recs := [], seq := 0, result := 0,
    mgrPort := 0 }

def Budgets.zero : Budgets :=
  { weight := 0, overrun := false, quantum := 0, frames := 0, poolbw := 0, gwbw := 0, faultsh := 0 }

def Ring.none : Ring := { base := 0, size := 0, prod := 0, lost := 0 }

/-- Context 0 (R392; its policy is notes/assumptions/20.md). FRAMES follows the frame roles. -/
def Context.root0 : Context :=
  { parent := 0, depth := 0, state := .live, part := 0,
    policy := { widest := 6, clampTrap := false, debug := true, tlbi := true, create := true,
                maxClass := 0, prot := false, rwait := 0 },
    root := 0, handler := 0, ranges := [], grants := [],
    budgets := { weight := 65535, overrun := false, quantum := 4294967295, frames := 0,
                 poolbw := 4294967295, gwbw := 4294967295, faultsh := 255 },
    pending := .none, usedW := [], retry := .none, terminal := .none, winTab := 0, wins := [],
    bindings := [], vf := .none, key := .none, poolUsed := false, scrubLeft := [], scrubAll := 0 }

def Heath.reset : Heath :=
  { bootStep := 0, log := [], scrubMark := false, llcCarve := [], carved := [], released := [],
    images := [], session := false, clockMhz := 2000, power := [], temps := [],
    retired := [], testing := [], halted := false, held := false, fenced := 0, hostPcie := false,
    hostDown := false }

/-- The device after reset, before its first boot step (R427; notes/assumptions/3.md, 4.md, 22.md). -/
def State.reset : State :=
  { chosen := none, agenda := [], freeCtr := 0, time := 0, fields := [], launches := [], nextFid := 0,
    nextReady := 0, nextUid := 0, accNo := 0, ctxs := [(0, Context.root0)], used := [], masked := [],
    msixPending := [], claims := [], queues := [], mem := [], pool := [], keys := [], keyMap := [],
    l1 := [], l2 := [], tlb := [], pin := none, walkCache := [], nodeTlb := [], deferred := [],
    poisoned := [], frames := [], setsFixed := false, fills := [], zeroUnits := [], roUnits := [],
    leases := [], nodes := [], moves := [], redirects := [],
    pagers := [(0, Pager.zero), (1, Pager.zero), (2, Pager.zero), (3, Pager.zero)], ckpt := 0,
    ckptStat := 0, s2waits := [], ringWaits := [], dir := [], sharers := [], upgrades := [],
    heldFills := [], exportWaits := [], slotWaits := [], homeWrites := [], stale := [], eccWaits := [],
    regions := [], banks := [], heath := Heath.reset, outbox := [] }

end Sys2Proof.Machine
end

