-- ==== Sys2Proof/Machine/Bits.lean ====
section
/-! DEFINITION. Maps, bytes of memory, bit fields and lane masks: the helpers that every other
definition of the machine uses. -/

namespace Sys2Proof.Machine
open Sys2Proof

/-! ### Maps -/

/-- The entry at `k`. -/
def mget {V : Type} : NMap V → Nat → Option V
  | [], _ => none
  | (a, b) :: r, k => if k = a then some b else mget r k

/-- The entry at `k`, or `d`. -/
def mgetD {V : Type} (m : NMap V) (k : Nat) (d : V) : V := (mget m k).getD d

/-- Set the entry at `k`; keys rise strictly. -/
def mput {V : Type} : NMap V → Nat → V → NMap V
  | [], k, v => [(k, v)]
  | (a, b) :: r, k, v =>
    if k < a then (k, v) :: (a, b) :: r
    else if k = a then (k, v) :: r
    else (a, b) :: mput r k v

/-- Remove the entry at `k`. -/
def mdel {V : Type} (m : NMap V) (k : Nat) : NMap V := m.filter (fun (a, _) => a != k)

/-- Change the entry at `k`, if there is one. -/
def mupd {V : Type} (m : NMap V) (k : Nat) (f : V → V) : NMap V :=
  match mget m k with
  | some v => mput m k (f v)
  | none => m

/-- Change every entry. -/
def mmap {V : Type} (m : NMap V) (f : Nat → V → V) : NMap V := m.map (fun (k, v) => (k, f k v))

/-- The lowest key from `k` upward, among the next `n`, that has no entry. -/
def lowestFree {V : Type} (m : NMap V) : Nat → Nat → Option Nat
  | _, 0 => none
  | k, n + 1 => if (mget m k).isNone then some k else lowestFree m (k + 1) n

/-- Insertion before the first element that `le` puts after `a`. -/
def insertBy {α : Type} (le : α → α → Bool) (a : α) : List α → List α
  | [] => [a]
  | b :: r => if le a b then a :: b :: r else b :: insertBy le a r

/-- The elements in the order of `le`; equal ones stay in the order in which they stand. -/
def sortBy {α : Type} (le : α → α → Bool) (l : List α) : List α := l.foldr (insertBy le) []

/-! ### Bytes of memory -/

/-- The byte at an address; an unlisted address reads 0 (notes/assumptions/3.md). -/
def Mem.rd : Mem → Nat → Byte
  | [], _ => 0
  | (a, b) :: r, k => if k < a then 0 else if k = a then b else Mem.rd r k

/-- Write one byte; writing 0 removes the entry. -/
def Mem.wr : Mem → Nat → Byte → Mem
  | [], k, v => if v = 0 then [] else [(k, v)]
  | (a, b) :: r, k, v =>
    if k < a then (if v = 0 then (a, b) :: r else (k, v) :: (a, b) :: r)
    else if k = a then (if v = 0 then r else (k, v) :: r)
    else (a, b) :: Mem.wr r k v

/-- Every address is above `lo`, addresses rise strictly, and no entry is 0. -/
def Mem.wfFrom : Option Nat → Mem → Bool
  | _, [] => true
  | lo, (a, b) :: r => (lo.all (· < a)) && b != 0 && Mem.wfFrom (some a) r

/-- The canonical form. -/
def Mem.wf (m : Mem) : Bool := Mem.wfFrom none m

/-- `n` bytes from `a`, the first least significant (R5). -/
def Mem.rdN (m : Mem) (a : Nat) : Nat → Nat
  | 0 => 0
  | n + 1 => (Mem.rd m a).toNat + 256 * Mem.rdN m (a + 1) n

/-- Write the `n` low bytes of `v` from `a`, the least significant first (R5). -/
def Mem.wrN (m : Mem) (a : Nat) : Nat → Nat → Mem
  | 0, _ => m
  | n + 1, v => Mem.wrN (Mem.wr m a (BitVec.ofNat 8 v)) (a + 1) n (v / 256)

/-- Bytes of a number, least significant first. -/
def leBytes : Nat → Nat → List Byte
  | 0, _ => []
  | n + 1, v => BitVec.ofNat 8 v :: leBytes n (v / 256)

/-- Write a list of bytes from `a`. -/
def Mem.wrList (m : Mem) (a : Nat) : List Byte → Mem
  | [] => m
  | b :: r => Mem.wrList (Mem.wr m a b) (a + 1) r

/-- Write the bytes of `data` that `mask` names at the line whose address is `a`, from byte `i`. -/
def Mem.wrMask (m : Mem) (a : Nat) (mask : BitVec 128) (data : BitVec 1024) : Nat → Nat → Mem
  | _, 0 => m
  | i, n + 1 =>
    Mem.wrMask
      (if mask.getLsbD i then Mem.wr m (a + i) (data.extractLsb' (8 * i) 8) else m)
      a mask data (i + 1) n

/-- The 128 bytes of a line. -/
def Mem.line (m : Mem) (a : Nat) : BitVec 1024 := BitVec.ofNat 1024 (Mem.rdN m a 128)

/-- Zero `n` bytes from `a`: the entries in the range go. -/
def Mem.zero (m : Mem) (a n : Nat) : Mem := m.filter (fun c => c.1 < a || a + n ≤ c.1)

/-- The entries in a range, moved to another base. -/
def Mem.slice (m : Mem) (a n base : Nat) : Mem :=
  (m.filter (fun c => a ≤ c.1 && c.1 < a + n)).map (fun c => (c.1 - a + base, c.2))

/-- Write every listed byte of `s`. -/
def Mem.overlay (m : Mem) (s : Mem) : Mem := s.foldl (fun acc c => Mem.wr acc c.1 c.2) m

/-! ### Bits -/

/-- Bits `[hi:lo]` as a number. -/
def fld {n : Nat} (w : BitVec n) (hi lo : Nat) : Nat := (w.toNat >>> lo) % 2 ^ (hi - lo + 1)

/-- One bit. -/
def bitAt {n : Nat} (w : BitVec n) (i : Nat) : Bool := w.getLsbD i

/-- A Bool as a number. -/
def b2n (b : Bool) : Nat := if b then 1 else 0

/-- A number as a register value. -/
def w64 (n : Nat) : W64 := BitVec.ofNat 64 n

/-- A number as a 32-bit word. -/
def w32 (n : Nat) : W32 := BitVec.ofNat 32 n

/-- Sign extension to 64 bits. -/
def sx64 {n : Nat} (v : BitVec n) : W64 := v.signExtend 64

/-- Zero extension to 64 bits. -/
def zx64 {n : Nat} (v : BitVec n) : W64 := v.setWidth 64

/-- The low `bits` of a number, sign-extended to 64 bits. -/
def sextN (bits v : Nat) : W64 :=
  let m := v % 2 ^ bits
  if m < 2 ^ (bits - 1) then w64 m else w64 (m + 2 ^ 64 - 2 ^ bits)

/-- The number of one bits among the `n` lowest. -/
def onesBelow {w : Nat} (v : BitVec w) : Nat → Nat
  | 0 => 0
  | n + 1 => b2n (v.getLsbD n) + onesBelow v n

/-- The leading zeros of a value, `n` bits examined from the top. -/
def leadingZeros {w : Nat} (v : BitVec w) : Nat → Nat
  | 0 => 0
  | n + 1 => if v.getLsbD n then 0 else 1 + leadingZeros v n

/-- The trailing zeros of a value from bit `i`, `n` bits examined. -/
def trailingZeros {w : Nat} (v : BitVec w) : Nat → Nat → Nat
  | _, 0 => 0
  | i, n + 1 => if v.getLsbD i then 0 else 1 + trailingZeros v (i + 1) n

/-! ### Lane masks -/

/-- The lanes of a mask, ascending, among the `n` from `i`. -/
def lanesFrom (m : LaneMask) : Nat → Nat → List Nat
  | _, 0 => []
  | i, n + 1 => if m.getLsbD i then i :: lanesFrom m (i + 1) n else lanesFrom m (i + 1) n

/-- The lanes of a mask, ascending. -/
def lanesOf (m : LaneMask) : List Nat := lanesFrom m 0 1024

/-- The mask with the given lanes. -/
def maskOf (ls : List Nat) : LaneMask :=
  ls.foldl (fun m l => m ||| ((1 : LaneMask) <<< l)) 0

/-- The lanes present in a swath of `ng` groups (R70). -/
def presentMask (ng : Nat) : LaneMask := BitVec.ofNat 1024 (2 ^ (32 * ng) - 1)

/-- The summary word of a mask: bit g is 1 when group g is not empty (R129). -/
def summary (m : LaneMask) : W32 :=
  (List.range 32).foldl
    (fun s g => if m.extractLsb' (32 * g) 32 = 0 then s else s ||| ((1 : W32) <<< g)) 0

end Sys2Proof.Machine
end

