-- ==== Sys2Proof/Machine/Aes.lean ====
section
/-! DEFINITION. The cipher of the pool's marked units: AES-256 (FIPS 197) from the arithmetic of its
field, and XTS (IEEE 1619) over one 128-byte line (R404, R405; notes/assumptions/24.md). -/

namespace Sys2Proof.Machine
open Sys2Proof

/-! ### The field of 256 elements -/

/-- Twice an element: the polynomial is x^8 + x^4 + x^3 + x + 1. -/
def gfDouble (a : Byte) : Byte := (a <<< 1) ^^^ (if a.getLsbD 7 then 0x1B else 0)

/-- The product of two elements, over the bits of the second from bit `i`. -/
def gfMulFrom (a b : Byte) : Nat → Nat → Byte
  | _, 0 => 0
  | i, n + 1 => (if b.getLsbD i then a else 0) ^^^ gfMulFrom (gfDouble a) b (i + 1) n

def gfMul (a b : Byte) : Byte := gfMulFrom a b 0 8

/-- The inverse of an element, which is its 254th power; 0 for 0. -/
def gfInv (a : Byte) : Byte :=
  let p2 := gfMul a a
  let p4 := gfMul p2 p2
  let p8 := gfMul p4 p4
  let p16 := gfMul p8 p8
  let p32 := gfMul p16 p16
  let p64 := gfMul p32 p32
  let p128 := gfMul p64 p64
  [p4, p8, p16, p32, p64, p128].foldl gfMul p2

/-- The substitution of a byte: its inverse, then the affine map. -/
def aesSub (a : Byte) : Byte :=
  let b := gfInv a
  [1, 2, 3, 4].foldl (fun acc n => acc ^^^ b.rotateLeft n) (b ^^^ 0x63)

/-- The substitution undone. -/
def aesUnsub (a : Byte) : Byte :=
  gfInv ([3, 6].foldl (fun acc n => acc ^^^ a.rotateLeft n) (a.rotateLeft 1 ^^^ 0x05))

/-! ### The rounds: a block is 16 bytes, column by column -/

def xorBytes (a b : List Byte) : List Byte := List.zipWith (· ^^^ ·) a b

/-- Row r of a block moves `r` columns to the left, or `turn * r` for the way back (`turn` = 3). -/
def aesShift (turn : Nat) (b : List Byte) : List Byte :=
  (List.range 16).map (fun i => b.getD ((i + 4 * turn * (i % 4)) % 16) 0)

/-- Each column times the circulant matrix whose first row is `k`. -/
def aesMix (k : List Byte) (b : List Byte) : List Byte :=
  (List.range 16).map (fun i => (List.range 4).foldl (fun acc d =>
    acc ^^^ gfMul (b.getD (i / 4 * 4 + (i % 4 + d) % 4) 0) (k.getD d 0)) 0)

/-- The next four-byte word of the key schedule, from those before it, the newest first: `i` is its
number, `rc` the round constant of the group of eight it begins. -/
def nextKeyWord (i : Nat) (rc : Byte) (ws : List (List Byte)) : List Byte :=
  let last := ws.getD 0 []
  let f := if i % 8 = 0 then xorBytes ((last.drop 1 ++ last.take 1).map aesSub) [rc, 0, 0, 0]
    else if i % 8 = 4 then last.map aesSub
    else last
  xorBytes (ws.getD 7 []) f

/-- `n` more words of the key schedule from word `i`, the newest first. -/
def keyWords : Nat → Nat → Byte → List (List Byte) → List (List Byte)
  | 0, _, _, ws => ws
  | n + 1, i, rc, ws =>
    keyWords n (i + 1) (if i % 8 = 0 then gfDouble rc else rc) (nextKeyWord i rc ws :: ws)

/-- The 15 round keys of a 32-byte key. -/
def roundKeys (key : List Byte) : List (List Byte) :=
  let first := (List.range 8).map (fun i => (key.drop (4 * i)).take 4)
  let ws := (keyWords 52 8 1 first.reverse).reverse
  (List.range 15).map (fun r => ((ws.drop (4 * r)).take 4).flatten)

/-- AES-256 of a block under its round keys. -/
def aesEncrypt (ks : List (List Byte)) (b : List Byte) : List Byte :=
  let whiten := xorBytes b (ks.getD 0 [])
  let mid := (List.range 13).foldl (fun b r =>
    xorBytes (aesMix [2, 3, 1, 1] (aesShift 1 (b.map aesSub))) (ks.getD (r + 1) [])) whiten
  xorBytes (aesShift 1 (mid.map aesSub)) (ks.getD 14 [])

/-- AES-256 undone. -/
def aesDecrypt (ks : List (List Byte)) (b : List Byte) : List Byte :=
  let last := (aesShift 3 (xorBytes b (ks.getD 14 []))).map aesUnsub
  let mid := (List.range 13).foldl (fun b r =>
    (aesShift 3 (aesMix [14, 11, 13, 9] (xorBytes b (ks.getD (13 - r) [])))).map aesUnsub) last
  xorBytes mid (ks.getD 0 [])

/-! ### XTS over a line -/

/-- The tweak of the next block: the last one times x in the field of 2^128 elements. -/
def nextTweak (t : BitVec 128) : BitVec 128 := (t <<< 1) ^^^ (if t.getLsbD 127 then 0x87 else 0)

/-- The blocks of a line under a block cipher, each masked before and after by its tweak. -/
def xtsBlocks (cipher : List Byte → List Byte) (line : BitVec 1024) : BitVec 128 → Nat → Nat → List Byte
  | _, _, 0 => []
  | t, i, n + 1 =>
    let mask := leBytes 16 t.toNat
    let block := leBytes 16 (line.extractLsb' (128 * i) 128).toNat
    xorBytes (cipher (xorBytes block mask)) mask ++ xtsBlocks cipher line (nextTweak t) (i + 1) n

/-- The number that little-endian bytes hold. -/
def ofLeBytes : List Byte → Nat
  | [] => 0
  | b :: r => b.toNat + 256 * ofLeBytes r

/-- One line through XTS: the low 32 bytes of the key serve the blocks and the high 32 the tweak, which
is `n` (notes/assumptions/24.md). -/
def xtsLine (cipher : List (List Byte) → List Byte → List Byte) (key : BitVec 512) (n : Nat)
    (line : BitVec 1024) : BitVec 1024 :=
  let ks := roundKeys (leBytes 32 key.toNat)
  let tk := roundKeys (leBytes 32 (key.toNat / 2 ^ 256))
  let t := BitVec.ofNat 128 (ofLeBytes (aesEncrypt tk (leBytes 16 n)))
  BitVec.ofNat 1024 (ofLeBytes (xtsBlocks (cipher ks) line t 0 8))

/-- A line's ciphertext under a key and its number, the DPA divided by 128 (R405). -/
def encryptLine (key : BitVec 512) (n : Nat) (line : BitVec 1024) : BitVec 1024 := xtsLine aesEncrypt key n line

/-- A line read back from its ciphertext (R405). -/
def decryptLine (key : BitVec 512) (n : Nat) (line : BitVec 1024) : BitVec 1024 := xtsLine aesDecrypt key n line

end Sys2Proof.Machine
end

