-- ==== Sys2Proof/Machine/Cause.lean ====
section
/-! DEFINITION. Causes of traps and faults, their codes and the rung each takes (R286, R289), and
what an instruction that faults reports. -/

namespace Sys2Proof.Machine
open Sys2Proof

/-- The causes of R286. -/
inductive Cause
  | illegal | stallShort | regionWar | misaligned | range | streamState | barCount | branchMixed
  | stackOverflow | privileged | denied | scopeClamp | software | trapNest
  | notMapped | pteMalformed | walkStage2 | stage2 | placement | permission | contentRo
  | contentMalformed | sharedWrite | firstTouch | poolMiss | revoked | poisoned
  | engineArg | chainInvalid | windowInvalid | windowLost
  | leaseExpired | leaseRevoked | nodeLost
  | launchInvalid | capacity | imageInvalid | dataLoss
  deriving DecidableEq, Repr

/-- The code of a cause (R286). -/
def Cause.code : Cause → BitVec 16
  | .illegal => 0x0001 | .stallShort => 0x0002 | .regionWar => 0x0003 | .misaligned => 0x0004
  | .range => 0x0005 | .streamState => 0x0006 | .barCount => 0x0007 | .branchMixed => 0x0008
  | .stackOverflow => 0x0009 | .privileged => 0x000A | .denied => 0x000B | .scopeClamp => 0x000C
  | .software => 0x000D | .trapNest => 0x000E | .notMapped => 0x0101 | .pteMalformed => 0x0102
  | .walkStage2 => 0x0103 | .stage2 => 0x0104 | .placement => 0x0105 | .permission => 0x0106
  | .contentRo => 0x0107 | .contentMalformed => 0x0108 | .sharedWrite => 0x0109
  | .firstTouch => 0x010A | .poolMiss => 0x010B | .revoked => 0x010C | .poisoned => 0x010D
  | .engineArg => 0x0201 | .chainInvalid => 0x0202 | .windowInvalid => 0x0203
  | .windowLost => 0x0204 | .leaseExpired => 0x0301 | .leaseRevoked => 0x0302
  | .nodeLost => 0x0303 | .launchInvalid => 0x0401 | .capacity => 0x0402
  | .imageInvalid => 0x0403 | .dataLoss => 0x0404

/-- The causes that take the in-swath handler when there is one (R289). -/
def Cause.vectoring : Cause → Bool
  | .firstTouch | .software => true
  | _ => false

/-- The causes that a servicer handles while the requester waits: rung 3 (R286, R289). -/
def Cause.parks : Cause → Bool
  | .walkStage2 | .sharedWrite | .firstTouch | .poolMiss | .leaseExpired | .leaseRevoked
  | .nodeLost => true
  | _ => false

/-- What a faulting access or instruction reports. -/
structure Raise where
  cause : Cause
  va : W64 := 0
  /-- The code of a `TRAP` or `BRKPT`. -/
  code : Nat := 0
  /-- The faulting DPA, for the service record (R308); 0 for none. -/
  dpa : Nat := 0
  /-- The CPA of the table entry and the level, for `WALK_STAGE2` (R269). -/
  addr2 : Nat := 0
  level : Nat := 0
  /-- The lanes that failed with the cause of the lowest failing lane (R239). -/
  lanes : LaneMask := 0
  lane : Nat := 0
  /-- The page is of class RO-SHARED. -/
  ro : Bool := false
  /-- The kind of the access, as the owner's record carries it: 1 for a read, 2 for a write, 4 for a fetch,
  added (R269). -/
  kind : Nat := 0
  deriving DecidableEq, Repr

/-- Raise a cause that carries nothing more. -/
def raise (c : Cause) : Raise := { cause := c }

end Sys2Proof.Machine
end

