-- ==== Sys2Proof/Machine/Translate.lean ====
section
/-! DEFINITION. Address spaces and translation: DPA regions, the stage-1 walk, the range table, the
page cache's lookup, the walk of a content window, and the checks of R265 in their order. -/

namespace Sys2Proof.Machine
open Sys2Proof

/-! ### DPA space (R255) -/

def hbmPerDie : Nat := 0xC_0000_0000
def poolBase : Nat := 0x4_0000_0000_0000
def poolEnd : Nat := 0x8_0000_0000_0000
def sramBase : Nat := 0x1_0000_0000_0000
def llcBase : Nat := 0x1_0001_0000_0000
def framesPerDie : Nat := 786432

/-- The regions of DPA space (R255). -/
inductive DRegion
  | hbm | sram (core off : Nat) | llc (die off : Nat) | pool | reserved
  deriving DecidableEq, Repr

def dregion (a : Nat) : DRegion :=
  if a < 4 * hbmPerDie then .hbm
  else if sramBase ≤ a && a < sramBase + 192 * 0x10_0000 then
    .sram ((a - sramBase) / 0x10_0000) ((a - sramBase) % 0x10_0000)
  else if llcBase ≤ a && a < llcBase + 4 * 0x800_0000 then
    .llc ((a - llcBase) / 0x800_0000) ((a - llcBase) % 0x800_0000)
  else if poolBase ≤ a && a < poolEnd then .pool
  else .reserved

/-- The number of the region, for tests that a range crosses no boundary (R376, R353). -/
def DRegion.tag : DRegion → Nat
  | .hbm => 0 | .sram _ _ => 1 | .llc _ _ => 2 | .pool => 3 | .reserved => 4

/-- `[a, a + n)` lies in one region that is not reserved. -/
def inOneRegion (a n : Nat) : Bool :=
  let t := (dregion a).tag
  n == 0 || (t != 4 && (dregion (a + n - 1)).tag == t)

/-- The home die of a DPA (R255). -/
def homeDie (a : Nat) : Nat :=
  match dregion a with
  | .hbm => a / hbmPerDie
  | .sram n _ => n / 48
  | .llc d _ => d
  | _ => ((a - poolBase) / 65536) % 4

/-- The DPA at which frame `f` (numbered over the dies) lies (R255). -/
def frameDpa (f : Nat) : Nat := (f / framesPerDie) * hbmPerDie + (f % framesPerDie) * 65536

/-- The frame that an HBM-direct DPA lies in. -/
def frameOf (a : Nat) : Nat := (a / hbmPerDie) * framesPerDie + (a % hbmPerDie) / 65536

/-- A frame-map entry at reset (R271). -/
def Frame.zero : Frame :=
  { role := .direct, st := .free, count := 0, unit := 0, lease := 0, charge := 0, hold := 0,
    inSet := false }

def State.frame (s : State) (f : Nat) : Frame := mgetD s.frames f .zero
def State.setFrame (s : State) (f : Nat) (v : Frame) : State :=
  { s with frames := mput s.frames f v }

/-- Scratchpad banks of a core carved for pinning, in the order of the bytes of the pinned part (R256). -/
def State.carvedBanks (s : State) (core : Nat) : List Nat := mgetD s.heath.carved core []

/-- The same as a mask. -/
def State.carvedMask (s : State) (core : Nat) : W64 :=
  (s.carvedBanks core).foldl (fun m b => m ||| ((1 : W64) <<< b)) 0

/-- Bytes of a die's LLC carved for pinning (R255). -/
def State.llcCarved (s : State) (die : Nat) : Nat := mgetD s.heath.llcCarve die 0 * 0x10_0000

/-! ### Contexts and the range table (R261, R262) -/

def State.ctx? (s : State) (c : Nat) : Option Context := mget s.ctxs c

def State.setCtx (s : State) (c : Nat) (v : Context) : State := { s with ctxs := mput s.ctxs c v }

def State.updCtx (s : State) (c : Nat) (f : Context → Context) : State :=
  { s with ctxs := mupd s.ctxs c f }

/-! ### Counter banks (R420, R421) -/

/-- A bank as it stands after reset. -/
def Bank.zero : Bank :=
  { en := false, lcen := false, counters := [], bins := [], logBase := 0, logSz := 0, trace := false,
    record := false, replay := false, logProd := 0, logSeq := 0, nrseq := 0, nr := false }

/-- The bank that counts for a context: its virtual function's, numbered from 1, or the physical
function's, 0. -/
def State.bankNo (s : State) (c : Nat) : Nat :=
  match (s.ctx? c).bind (·.vf) with
  | some v => v + 1
  | none => 0

def State.bankOf (s : State) (c : Nat) : Option Bank := mget s.banks (s.bankNo c)
def State.setBank (s : State) (n : Nat) (b : Bank) : State := { s with banks := mput s.banks n b }

/-- Add to the counter at offset 8 × `i` of the bank that counts for a context. -/
def State.countFor (s : State) (c i n : Nat) : State :=
  match s.bankOf c with
  | some b =>
    if b.en then
      s.setBank (s.bankNo c) { b with counters := mput b.counters i (mgetD b.counters i 0 + w64 n) }
    else s
  | none => s

/-- Core L1, cluster L2 and die last-level TLB misses; walks; page-cache fills; pool transfers; ring
records; swap-outs: the offsets of their counters, divided by 8. -/
def cINTERF : Nat := 1
def cL1 : Nat := 3
def cL2 : Nat := 4
def cLLC : Nat := 5
def cTLB : Nat := 6
def cWALKS : Nat := 7
def cFILLS : Nat := 8
def cPOOL : Nat := 9
def cFAULTS : Nat := 10
def cSWAPS : Nat := 11

def cFEVICT : Nat := 2
def cCEVICT : Nat := 12

/-- A context's use of the current period. -/
def State.useOf (s : State) (c : Nat) : Use := mgetD s.used c {}

/-- Pool transfers that a context's request has caused: they are counted, and charged to its POOLBW (R397,
R420). -/
def State.usePool (s : State) (c n : Nat) : State :=
  let u := s.useOf c
  { s.countFor c cPOOL n with used := mput s.used c { u with pool := u.pool + n } }

/-- A line request at a gateway, charged to its context's GWBW (R397). -/
def State.useGateway (s : State) (c : Nat) : State :=
  let u := s.useOf c
  { s with used := mput s.used c { u with gw := u.gw + 1 } }

/-- Lines of one context that a request of another evicts (R421). -/
def State.countEvict (s : State) (by_ owner n : Nat) : State :=
  if by_ = owner then s else (s.countFor by_ cCEVICT n).countFor owner cFEVICT n

/-- A range entry covers a CPA (R262). -/
def RangeEnt.covers (e : RangeEnt) (cpa : Nat) : Bool :=
  decide (e.cbase ≤ cpa) && decide (cpa < e.cbase + e.len * 65536)

/-- The range entry of context 0 at a CPA: CPA equals DPA over each region (R376). -/
def identityEnt (cpa : Nat) : Option RangeEnt :=
  if dregion cpa = .reserved then none
  else some { cbase := cpa / 65536 * 65536, dbase := cpa / 65536 * 65536, len := 1, r := true,
              w := true, x := true, lineage := [] }

/-- Stage 2: the DPA of a CPA and the entry that gives it (R262). -/
def stage2 (s : State) (c cpa : Nat) : Option (Nat × RangeEnt) :=
  let ent := if c = 0 then identityEnt cpa
    else (s.ctx? c).bind (fun x => x.ranges.find? (fun e => e.covers cpa))
  ent.map (fun e => (e.dbase + (cpa - e.cbase), e))

/-! ### Pool units (R272, R303, R307, R311, R398) -/

/-- The unit number of a pool DPA (R255). -/
def unitNo (dpa : Nat) : Nat := (dpa - poolBase) / 65536

def Lease.zero : Lease :=
  { st := .empty, warn := false, ack := false, node := 0, remain := 0, pbase := 0, dbase := 0,
    len := 0, safe := false }

def Node.zero : Node := { route := 0, lost := false, needGrant := false, missed := 0 }

def State.lease (s : State) (n : Nat) : Lease := mgetD s.leases n .zero
def State.setLease (s : State) (n : Nat) (l : Lease) : State := { s with leases := mput s.leases n l }
def State.node (s : State) (n : Nat) : Node := mgetD s.nodes n .zero
def State.setNode (s : State) (n : Nat) (v : Node) : State := { s with nodes := mput s.nodes n v }

/-- The lease, if any, that covers a DPA (R303). -/
def coveringLease (s : State) (dpa : Nat) : Option (Nat × Lease) :=
  s.leases.find? (fun (_, l) => l.dbase != 0 && l.dbase ≤ dpa && dpa < l.dbase + l.len * 65536)

/-- Where a pool unit's backing lies: its lease, node and pool address, redirects first (R327). -/
def backing (s : State) (dpa : Nat) : Option (Nat × Lease × Nat) :=
  let unit := dpa / 65536
  match s.redirects.find? (fun r => r.unit == unit) with
  | some r => some (r.dst, s.lease r.dst, (s.lease r.dst).pbase + r.off + dpa % 65536)
  | none => (coveringLease s dpa).map (fun (n, l) => (n, l, l.pbase + (dpa - l.dbase)))

/-- The key of a pool byte: node and pool address. -/
def poolAddr (node a : Nat) : Nat := node * 2 ^ 50 + a

/-- The port that carries the pool traffic of a unit on a node: the k-th of its ROUTE, counted from 0,
with k the unit's number modulo how many there are (R312). -/
def State.poolPort (s : State) (node unit : Nat) : Option Nat :=
  let ports := (List.range 16).filter (fun i => (s.node node).route.getLsbD i)
  ports[(unit - poolBase / 65536) % ports.length]?

/-- The port that a transfer of a pool unit needs is fenced: it carries nothing until it is retrained
(R312, R332; notes/assumptions/127.md). -/
def portShut (s : State) (unit : Nat) : Bool :=
  match backing s (unit * 65536) with
  | some (_, l, _) => (s.poolPort l.node unit).any (fun p => s.heath.fenced.getLsbD p)
  | none => false

/-- No write-back to the pool starts for a unit: its lease is not LIVE, or the node has no port or is lost
(R305, R311). -/
def unitShut (s : State) (unit : Nat) : Bool :=
  match backing s (unit * 65536) with
  | some (_, l, _) => l.st != .live || (s.node l.node).lost || (s.node l.node).route == 0
  | none => false

/-- A write-back of a unit waits: its lease or its port does not carry it. -/
def poolShut (s : State) (unit : Nat) : Bool := portShut s unit || unitShut s unit

/-- The lease check of a pool access (check 10 of R265; R307). -/
def leaseCheck (s : State) (dpa : Nat) : Option Cause :=
  match backing s dpa with
  | none => some .leaseRevoked
  | some (_, l, _) =>
    match l.st with
    | .live => if (s.node l.node).lost || (s.node l.node).route = 0 then some .nodeLost else none
    | .expired => some .leaseExpired
    | .lost => some .nodeLost
    | _ => some .leaseRevoked

/-- The frame bound to a unit by `MAPFT` or BIND (R276). -/
def localFrame (s : State) (unit : Nat) : Option Nat :=
  (s.frames.find? (fun (_, f) => f.role == .local_ && f.unit == unit && f.st != .free)).map (·.1)

/-- The CACHE frame that holds a unit, in any state but FREE (R271). -/
def cacheFrame (s : State) (unit : Nat) : Option Nat :=
  (s.frames.find? (fun (_, f) => f.role == .cache && f.unit == unit && f.st != .free)).map (·.1)

/-- The frame in which a pool unit is present (R272). -/
def presentFrame (s : State) (unit : Nat) : Option Nat :=
  match localFrame s unit with
  | some f => some f
  | none =>
    match cacheFrame s unit with
    | some f =>
      match (s.frame f).st with
      | .clean | .dirty | .shared => some f
      | _ => none
    | none => none

/-- A pool unit that a LOCAL frame serves, or that reads 0 since its LOCAL frame was lost: it passes
checks 10 and 11 (R275, R276). -/
def State.localUnit (s : State) (unit : Nat) : Bool :=
  (localFrame s unit).isSome || s.zeroUnits.contains unit

/-- The frames of a die that form its sets, ascending (R271, R275). -/
def setFrames (s : State) (die : Nat) : List Nat :=
  (s.frames.filter (fun (f, e) => f / framesPerDie == die
    && (if s.setsFixed then e.inSet else e.role == .cache))).map (·.1)

/-- The set of a pool unit: its frames (R271). -/
def unitSet (s : State) (unit : Nat) : List Nat :=
  let u := unit - poolBase / 65536
  let fs := setFrames s (u % 4)
  let n := fs.length / 8
  if n = 0 then [] else (fs.drop (8 * ((u / 32) % n))).take 8

/-- Whether a context lies in the subtree of another; walks the parents, at most 8 levels (R392). -/
def inSubtree (s : State) (root : Nat) : Nat → Nat → Bool
  | 0, c => c == root
  | n + 1, c =>
    c == root ||
      (match s.ctx? c with
       | some x => if c = 0 then false else inSubtree s root n x.parent
       | none => false)

/-- `c` is `root` or one of its descendants. -/
def State.descends (s : State) (root c : Nat) : Bool := inSubtree s root 8 c

/-- The contexts that a context made. -/
def State.children (s : State) (c : Nat) : List (Nat × Context) :=
  s.ctxs.filter (fun (i, x) => i != 0 && x.parent == c)

/-- The live children of a context. -/
def State.liveChildren (s : State) (c : Nat) : List (Nat × Context) :=
  (s.children c).filter (fun (_, x) => x.state == .live)

/-- The frames charged to a subtree (R398). -/
def heldFrames (s : State) (c : Nat) : Nat :=
  (s.frames.filter (fun (_, f) => (f.role == .cache || f.role == .local_) && f.st != .free
    && s.descends c f.charge)).length

/-- A frame is under test (R433). -/
def frameFenced (s : State) (f : Nat) : Bool := s.heath.testing.any (fun (c, i, _) => c == 5 && i == f)

/-- A frame of a set that a fill may take (R274). -/
def eligible (s : State) (f : Nat) : Bool :=
  let e := s.frame f
  e.role == .cache && e.hold == 0 && !frameFenced s f && !(s.moves.any (fun m => m.unit == e.unit && e.st != .free))
    && !s.heath.retired.contains (5, f)
    && (match e.st with
        | .free => true
        | .clean | .dirty | .shared =>
          match (s.lease e.lease).st with
          | .live | .releasing => true
          | _ => false
        | _ => false)

/-- The victim among candidate frames: the first FREE one, else the lowest COUNT (R274). -/
def victimOf (s : State) (fs : List Nat) : Option Nat :=
  match fs.find? (fun f => (s.frame f).st == .free) with
  | some f => some f
  | none =>
    fs.foldl (fun best f =>
      match best with
      | none => some f
      | some b => if (s.frame f).count < (s.frame b).count then some f else some b) none

/-- The FRAMES budget in force for a context; context 0 holds the device's CACHE frames and its RESERVE
frames (R392). -/
def State.frameBudget (s : State) (c : Nat) : Nat :=
  if c = 0 then
    (s.frames.filter (fun (_, f) => f.role == .cache || f.role == .reserve)).length
  else match s.ctx? c with
  | some x => x.budgets.frames
  | none => 0

/-- The candidates for a fill's victim, by the charged subtree's holding (R274, R398); none for a context
with a FRAMES budget of 0, whose every fill bypasses (R397). -/
def victimCandidates (s : State) (unit ctx : Nat) : List Nat :=
  let el := (unitSet s unit).filter (eligible s)
  if s.frameBudget ctx = 0 then []
  else if s.frameBudget ctx ≤ heldFrames s ctx then
    el.filter (fun f => (s.frame f).st != .free && s.descends ctx (s.frame f).charge)
  else el

/-- A fill for `ctx` could take no victim, so the access is served by bypass (R272, R275, R398). -/
def bypasses (s : State) (unit ctx : Nat) : Bool :=
  ((unitSet s unit).all (fun f => (s.frame f).role == .retired) && !(unitSet s unit).isEmpty)
    || (s.frameBudget ctx ≤ heldFrames s ctx && (victimCandidates s unit ctx).isEmpty)

/-! ### Where a byte of DPA space is stored -/

/-- Where the bytes at a DPA are: device memory, the pool, or nowhere. -/
inductive Loc
  | mem (a : Nat)
  | pool (node a : Nat)
  | nowhere
  deriving DecidableEq, Repr

/-- The storage behind a DPA as it stands: a frame, the pinned parts, or the pool (R272). -/
def locate (s : State) (dpa : Nat) : Loc :=
  match dregion dpa with
  | .pool =>
    match presentFrame s (dpa / 65536) with
    | some f => .mem (frameDpa f + dpa % 65536)
    | none =>
      if s.zeroUnits.contains (dpa / 65536) then .nowhere
      else match backing s dpa with
        | some (_, l, a) => .pool l.node a
        | none => .nowhere
  | .reserved => .nowhere
  | _ => .mem dpa

/-- What the transfers of a marked unit are encrypted with: its slot's key, and the unit, from which the
tweaks of its lines are numbered (R405). -/
structure UnitKey where
  key : BitVec 512
  unit : Nat
  deriving DecidableEq, Repr

/-- The key that a pool unit is marked with, none for a unit without a mark (R405). -/
def unitKey (s : State) (unit : Nat) : Option UnitKey :=
  (mget s.keyMap unit).map (fun slot => { key := mgetD s.keys slot 0, unit := unit })

/-- The bytes on the fabric of line `i` of a unit, and the line that such bytes hold (R405). -/
def sealLine (k : Option UnitKey) (i : Nat) (line : BitVec 1024) : BitVec 1024 :=
  match k with
  | some u => encryptLine u.key (u.unit * 512 + i) line
  | none => line

def openLine (k : Option UnitKey) (i : Nat) (line : BitVec 1024) : BitVec 1024 :=
  match k with
  | some u => decryptLine u.key (u.unit * 512 + i) line
  | none => line

/-- Line `i` of a unit, read from the pool at the line's address (R405). -/
def poolLine (s : State) (pa : Nat) (k : Option UnitKey) (i : Nat) : BitVec 1024 :=
  openLine k i (s.pool.line pa)

/-- The line at a DPA, as its home reads it. -/
def homeLine (s : State) (dpa : Nat) : BitVec 1024 :=
  match locate s dpa with
  | .mem a => s.mem.line a
  | .pool node a => poolLine s (poolAddr node a) (unitKey s (dpa / 65536)) (dpa / 128 % 512)
  | .nowhere => 0

/-- `n` bytes at a DPA, within one line, as the home reads them. -/
def homeRd (s : State) (dpa n : Nat) : Nat :=
  (homeLine s (dpa / 128 * 128)).toNat / 2 ^ (8 * (dpa % 128)) % 2 ^ (8 * n)

/-! ### Accesses and the checks on a DPA (R264, R265) -/

/-- What an access needs (R264). -/
structure Access where
  rd : Bool
  wr : Bool
  ex : Bool
  /-- The access is at trap level 1 or 2. -/
  super : Bool
  /-- S is not judged: the access is made for the context and not for an instruction (R264). -/
  ignoreS : Bool := false
  /-- It writes whole lines, which mends a poisoned one (R333). -/
  whole : Bool := false
  deriving DecidableEq, Repr

/-- Why an access does not proceed. -/
structure XErr where
  cause : Cause
  dpa : Nat := 0
  addr2 : Nat := 0
  level : Nat := 0
  /-- The conditions under which a tolerant access is absent (R166, R207). -/
  absent : Bool := false
  /-- An access that is held: a store at its gateway because the unit is UPGRADING (R265), or one whose
  transfer a fenced port does not carry (R332). -/
  gate : Option Nat := none
  /-- The page is of class RO-SHARED. -/
  ro : Bool := false
  /-- The kind of the access: 1 for a read, 2 for a write, 4 for a fetch, added (R269). -/
  kind : Nat := 0
  deriving DecidableEq, Repr

def XErr.of (c : Cause) : XErr := { cause := c }

/-- A translated access: the DPA of its first byte and what its copies carry (R264, R266). -/
structure Xl where
  dpa : Nat
  r : Bool
  w : Bool
  x : Bool
  s : Bool
  home : Nat
  cls : Nat
  ace : Bool
  /-- The size code of the page. -/
  size : Nat := 0
  /-- The bytes read as zero: an empty part of a content tree (R361). -/
  zero : Bool := false
  deriving DecidableEq, Repr

/-- Check 5 for any DPA: an HBM-direct frame of ROLE DIRECT, a carved pinned part (R255). -/
def dpaCheck (s : State) (dpa : Nat) : Option Cause :=
  match dregion dpa with
  | .hbm => if (s.frame (frameOf dpa)).role = .direct then none else some .placement
  | .sram core off =>
    if off < 16384 * (s.carvedBanks core).length then none else some .stage2
  | .llc die off => if off < s.llcCarved die then none else some .stage2
  | .pool => none
  | .reserved => some .stage2

/-- Checks 10 and 11 of a pool DPA for a requesting context; a LOCAL frame passes both (R276). -/
def poolCheck (s : State) (ctx dpa : Nat) : Option XErr :=
  if (dregion dpa).tag ≠ 3 then none
  else if s.localUnit (dpa / 65536) then none
  else match leaseCheck s dpa with
    | some c => some { cause := c, dpa := dpa }
    | none =>
      if (presentFrame s (dpa / 65536)).isSome then none
      else if bypasses s (dpa / 65536) ctx then
        if portShut s (dpa / 65536) then some { cause := .poolMiss, dpa := dpa, gate := some (dpa / 65536) }
        else none
      else some { cause := .poolMiss, dpa := dpa, absent := true }

/-- Read a page-table entry at its home slice (R260). -/
def tableRead (s : State) (c cpa level : Nat) : Except XErr W64 :=
  match stage2 s c cpa with
  | none => .error { cause := .walkStage2, addr2 := cpa, level := level }
  | some (dpa, e) =>
    if !e.r then .error { cause := .walkStage2, addr2 := cpa, level := level }
    else match dpaCheck s dpa with
      | some .stage2 => .error { cause := .walkStage2, addr2 := cpa, level := level }
      | some cause => .error { cause := cause, dpa := dpa }
      | none =>
        match poolCheck s c dpa with
        | some x => .error { x with absent := false }
        | none =>
          if s.poisoned.contains (dpa / 128) then .error { cause := .poisoned, dpa := dpa }
          else .ok (w64 (homeRd s dpa 8))

/-! ### Content regions: lookup of a name (R356, R357, R361) -/

/-- The KIND of a name (R335). -/
def nameKind (n : BitVec 128) : Nat := fld n 3 0

/-- The directory key of the entry of a name: bucket × 4 + j, over the probe sequence (R357). -/
def probeKeys (capk : Nat) (n : BitVec 128) : List Nat :=
  let b := 512 * capk
  let h := fld n 127 8 % b
  (List.range 32).map (fun i => ((h + i / 4) % b) * 4 + i % 4)

/-- Read an entry of a follower's directory image (R353, R356, R368). -/
def imageEntry (s : State) (g : Region) (key : Nat) : Option DirName :=
  let a := g.store + 128 * (1024 * g.capk) + 32 * key
  let n := BitVec.ofNat 128 (homeRd s a 16)
  let w2 := homeRd s (a + 16) 8
  if (w2 / 2 ^ 56) % 2 = 1 then
    some { name := n, slot := w2 % 2 ^ 32, count := 0, q := false }
  else none

/-- The directory entry of a key: the region's own, or the image of the region it follows. -/
def Region.entry (s : State) (g : Region) (key : Nat) : Option DirName :=
  if g.follow then imageEntry s g key else mget g.dir key

/-- The entry that bears a name, with its key (R357). -/
def findName (s : State) (g : Region) (n : BitVec 128) : Option (Nat × DirName) :=
  (probeKeys g.capk n).findSome? (fun k =>
    match g.entry s k with
    | some e => if e.name = n then some (k, e) else none
    | none => none)

/-- Child `i` of a node line (R335). -/
def childName (line : BitVec 1024) (i : Nat) : BitVec 128 := line.extractLsb' (128 * i) 128

/-- Why a line of a store or of an image cannot be read for a context at its home: its unit is under the
lease checks and the page cache as any other of the pool (R361, R368; notes/assumptions/126.md). -/
def storeFault (s : State) (c dpa : Nat) : Option XErr :=
  match poolCheck s c dpa with
  | some e => some e
  | none => if s.poisoned.contains (dpa / 128) then some { cause := .poisoned, dpa := dpa } else none

/-- The fault of a lookup among the buckets of a follower's image, which is read through its own page
cache until the name is found (R357, R368). -/
def imageFault (s : State) (c : Nat) (g : Region) (n : BitVec 128) : List Nat → Option XErr
  | [] => none
  | b :: r =>
    match storeFault s c (g.store + 128 * (1024 * g.capk) + 128 * b) with
    | some e => some e
    | none =>
      if (List.range 4).any (fun j => (imageEntry s g (4 * b + j)).any (fun e => e.name == n)) then none
      else imageFault s c g n r

/-- The slice whose share of the pinned part holds a bucket of a region's directory (R353, R357). -/
def bucketSlice (g : Region) (b : Nat) : Nat := 256 * g.home + Config.bucketSlice g.store b % 256

/-- A bucket was lost with the share that held it (R434). -/
def bucketLost (s : State) (g : Region) (b : Nat) : Bool := s.heath.lostShares.contains (bucketSlice g b)

/-- The buckets of a name's probe sequence (R357). -/
def probeBuckets (g : Region) (n : BitVec 128) : List Nat :=
  (List.range 8).map (fun i => (fld n 127 8 % (512 * g.capk) + i) % (512 * g.capk))

/-- A lookup in a region's own directory reads a lost bucket before it finds the name (R434). -/
def readsLost (s : State) (g : Region) (n : BitVec 128) : List Nat → Bool
  | [] => false
  | b :: r =>
    bucketLost s g b ||
      (!(List.range 4).any (fun j => (mget g.dir (4 * b + j)).any (fun e => e.name == n)) && readsLost s g n r)

/-- The fault that the lookup of a name meets: of the image of the region that a follower follows, or
`POISONED` at a bucket that is lost (R368, R434). -/
def lookupFault (s : State) (c : Nat) (g : Region) (n : BitVec 128) : Option XErr :=
  if n = 0 then none
  else if g.follow then imageFault s c g n (probeBuckets g n)
  else if readsLost s g n (probeBuckets g n) then some (.of .poisoned)
  else none

/-- What a name of a region stands for: a line at a slot, nothing, or no line that the region holds. -/
def kidOf (s : State) (c : Nat) (g : Region) (n : BitVec 128) : Except XErr Kid :=
  if n = 0 then .ok .empty
  else match lookupFault s c g n, findName s g n with
    | some e, _ => .error e
    | none, some (_, e) =>
      .ok (if nameKind n = 1 || nameKind n = 2 then .at (nameKind n) e.slot else .bad)
    | none, none => .ok .bad

/-- The children of the node line at a slot (R361). -/
def nodeKids (s : State) (c : Nat) (g : Region) (slot : Nat) : List (Except XErr Kid) :=
  let dpa := g.store + 128 * slot
  match storeFault s c dpa with
  | some e => List.replicate 8 (.error e)
  | none => (List.range 8).map (fun i => kidOf s c g (childName (homeLine s dpa) i))

/-- The die whose last-level TLB and walkers serve a gateway, of which a device has 32 (R14, R266); a die's
own accesses come through its own port, numbered from 32. -/
def gwDie (gw : Nat) : Nat := if gw < 32 then gw / 8 else gw - 32

/-- The number under which a die's last-level TLB holds its entries: that of the die's own port, whose
accesses come to it and to no gateway TLB. -/
def lastLevel (die : Nat) : Nat := 32 + die

/-- An entry of this holder serves requests of a gateway. -/
def serves (holder gw : Nat) : Bool := holder == gw || holder == lastLevel (gwDie gw)

/-- The children of the node of a window at a VA, as a TLB that serves a gateway holds them (R362). -/
def heldKids (s : State) (gw c va span : Nat) : Option (List Kid) :=
  (s.nodeTlb.find? (fun e => serves e.gateway gw && e.ctx == c && e.va == va && e.span == span)).map
    (·.kids)

/-- What a walk of a content tree finds at an offset (R361). -/
inductive TreeAt
  | zero
  | slot (dpa : Nat)
  | malformed
  /-- A directory line or a node line could not be read. -/
  | fault (e : XErr)
  deriving DecidableEq, Repr

/-- The bytes under a node of level `k`. -/
def nodeSpan (k : Nat) : Nat := 128 * 8 ^ k

/-- Walk from what stands at a node of level `k`, whose part of the window starts at `va`, to the leaf
that holds byte `o` of that part; with the nodes resolved on the way (R359, R361, R362). -/
def treeWalk (s : State) (g : Region) (gw c : Nat) : Nat → Kid → Nat → Nat → TreeAt × List NodeEnt
  | 0, kid, _, o =>
    match kid with
    | .empty => (.zero, [])
    | .at 1 slot => (.slot (g.store + 128 * slot + o % 128), [])
    | _ => (.malformed, [])
  | k + 1, kid, va, o =>
    match kid with
    | .empty => (.zero, [])
    | .at 2 slot =>
      let kids := match heldKids s gw c va (nodeSpan (k + 1)) with
        | some l => l.map Except.ok
        | none => nodeKids s c g slot
      let i := o / nodeSpan k % 8
      match kids.getD i (.ok .bad) with
      | .error e => (.fault e, [])
      | .ok kid =>
        let (r, l) := treeWalk s g gw c k kid (va + i * nodeSpan k) (o % nodeSpan k)
        match kids.mapM id with
        | .ok ks => (r, { gateway := gw, ctx := c, va := va, span := nodeSpan (k + 1), kids := ks } :: l)
        | .error _ => (r, l)
    | _ => (.malformed, [])

/-- Walk a tree from its root's name: its directory entry is looked up unless the root's own children are
held (R361, R362). -/
def treeFrom (s : State) (g : Region) (gw c depth : Nat) (root : BitVec 128) (va o : Nat) :
    TreeAt × List NodeEnt :=
  let kid := if depth ≠ 0 && (heldKids s gw c va (nodeSpan depth)).isSome then .ok (.at 2 0)
    else kidOf s c g root
  match kid with
  | .error e => (.fault e, [])
  | .ok kid => treeWalk s g gw c depth kid va o

/-- A DPA lies in the store or the image of a region that is LIVE or DESTROYING (R354). -/
def inContentStore (s : State) (dpa : Nat) : Bool :=
  s.regions.any (fun (_, g) => g.st != .free && g.store ≤ dpa
    && dpa < g.store + 128 * (1024 * g.capk)
        + (if (dregion g.store).tag == 3 then 128 * (512 * g.capk) else 0))

/-! ### The stage-1 walk (R258-R262, R267, R268) -/

/-- A stage-1 leaf (R259). -/
structure Leaf where
  cpa : Nat
  pte : W64
  deriving DecidableEq, Repr

/-- The offset bits of a leaf at a level (R258). -/
def leafBits (level : Nat) : Nat := 16 + 10 * level

/-- The table entry of level `level` on the way to a VA: as its home reads it, or as the die's walker
cache holds it where that differs, which of the two is free (R267, R268). -/
def walkRead (s : State) (die c va level base : Nat) : Except XErr W64 :=
  let fresh := tableRead s c (base + 8 * (va / 2 ^ leafBits level % 1024)) level
  match s.walkCache.find? (fun e => e.die == die && e.ctx == c && e.level == level
      && e.index == va / 2 ^ leafBits level) with
  | none => fresh
  | some e =>
    match fresh with
    | .ok v => if v = e.pte || !Config.freeBool (s.freeCtr + level) then fresh else .ok e.pte
    | .error _ => if Config.freeBool (s.freeCtr + level) then .ok e.pte else fresh

/-- What a table entry of a level says of a VA (R259): the page, the next table, or a fault. -/
inductive Pte
  | leaf (l : Leaf)
  | table (base : Nat)
  | fault (e : XErr)

def readPte (pte : W64) (level va : Nat) : Pte :=
  if !bitAt pte 0 then .fault { cause := .notMapped, absent := true }
  else if fld pte 63 52 ≠ 0 then .fault (.of .pteMalformed)
  else if bitAt pte 1 then
    -- a leaf: its size is that of its level, and its low address bits are 0
    if level = 3 || fld pte 3 2 ≠ level || fld pte 51 13 * 8192 % 2 ^ leafBits level ≠ 0 then
      .fault (.of .pteMalformed)
    else .leaf { cpa := fld pte 51 13 * 8192 + va % 2 ^ leafBits level, pte := pte }
  else if fld pte 12 2 ≠ 0 || level = 0 then .fault (.of .pteMalformed)
  else .table (fld pte 51 13 * 8192)

/-- Walk the stage-1 table from the table at `base`, of level `level`, for a VA (R258, R259). -/
def walkFrom (s : State) (die c va : Nat) : Nat → Nat → Except XErr Leaf
  | level, base =>
    match walkRead s die c va level base with
    | .error e => .error e
    | .ok pte =>
      match readPte pte level va with
      | .fault e => .error e
      | .leaf l => .ok l
      | .table b =>
        match level with
        | 0 => .error (.of .pteMalformed)
        | l + 1 => walkFrom s die c va l b

/-- The table entries of levels 3 to 1 that a walk passes, for the walker cache (R267). -/
def walkPath (s : State) (die c va : Nat) : Nat → Nat → List WalkEnt
  | 0, _ => []
  | l + 1, base =>
    match walkRead s die c va (l + 1) base with
    | .error _ => []
    | .ok pte =>
      match readPte pte (l + 1) va with
      | .table b =>
        { die := die, ctx := c, level := l + 1, index := va / 2 ^ leafBits (l + 1), pte := pte }
          :: walkPath s die c va l b
      | _ => []

/-- The units that a leaf is held as: all of its page when one range entry covers it whole, else one
(R263). -/
def heldSpan (cpa size : Nat) (e : RangeEnt) : Nat :=
  let n := 1024 ^ size
  let base := cpa / (n * 65536) * (n * 65536)
  if e.covers base && e.covers (base + n * 65536 - 1) then n else 1

/-- The composed entry of a VA's unit: both stages (checks 1 to 4). Context 0 is the identity map. -/
def compose (s : State) (gw c va : Nat) : Except XErr TlbEnt :=
  if c = 0 then
    match identityEnt va with
    | none => .error { cause := .notMapped, absent := true }
    | some _ =>
      .ok { gateway := gw, ctx := 0, va := va / 65536, size := 0, dpa := va / 65536 * 65536,
            r := true, w := true, x := true, s := false,
            home := (match dregion va with | .sram _ _ => 2 | .llc _ _ => 1 | _ => 0),
            cls := 0, ace := false }
  else if va / 2 ^ 56 ≠ 0 then .error { cause := .notMapped, absent := true }
  else match s.ctx? c with
    | none => .error { cause := .notMapped, absent := true }
    | some x =>
      match walkFrom s (gwDie gw) c va 3 x.root with
      | .error e => .error e
      | .ok leaf =>
        match stage2 s c leaf.cpa with
        | none => .error (.of .stage2)
        | some (dpa, e) =>
          .ok { gateway := gw, ctx := c, va := va / 65536, size := fld leaf.pte 3 2,
                dpa := dpa / 65536 * 65536, r := bitAt leaf.pte 4 && e.r,
                w := bitAt leaf.pte 5 && e.w, x := bitAt leaf.pte 6 && e.x, s := bitAt leaf.pte 7,
                home := fld leaf.pte 9 8, cls := fld leaf.pte 11 10, ace := bitAt leaf.pte 12,
                span := heldSpan leaf.cpa (fld leaf.pte 3 2) e, r2 := e.r }

/-- HOME against the region of the DPA, and FILL-ON-TOUCH outside pool space (check 5, R259). -/
def homeCheck (e : TlbEnt) (dpa : Nat) : Bool :=
  (match dregion dpa with
   | .sram _ _ => e.home == 2
   | .llc _ _ => e.home == 1
   | _ => e.home == 0 || e.home == 3)
  && !(e.cls == 1 && (dregion dpa).tag != 3)

/-- The unit of a pool page that stores may not reach while it is shared (checks 8; R323). -/
def sharedCheck (s : State) (cls dpa : Nat) : Option XErr :=
  if cls ≠ 2 then none
  else match cacheFrame s (dpa / 65536) with
    | some f =>
      match (s.frame f).st with
      | .shared => some { cause := .sharedWrite, dpa := dpa }
      | .upgrading => some { cause := .sharedWrite, dpa := dpa, gate := some (dpa / 65536) }
      | _ => none
    | none => none

/-- The directory entry of a line is being rebuilt: accesses to the line wait (R334). -/
def rebuilt (s : State) (line : Nat) : Bool := s.eccWaits.any (fun w => w.line == line)

/-- Checks 8 to 11 on the DPA that an access reaches. -/
def lastChecks (s : State) (c : Nat) (acc : Access) (cls dpa : Nat) : Option XErr :=
  if rebuilt s (dpa / 128) then some { cause := .poisoned, dpa := dpa, gate := some (dpa / 65536) }
  else
  match (if acc.wr then sharedCheck s cls dpa else none) with
  | some e => some e
  | none =>
    if cls = 1 && !s.localUnit (dpa / 65536) && (cacheFrame s (dpa / 65536)).isNone then
      some { cause := .firstTouch, dpa := dpa, absent := true }
    else match poolCheck s c dpa with
      | some e => some { e with ro := cls == 2 }
      | none =>
        if s.poisoned.contains (dpa / 128) && !acc.whole then some { cause := .poisoned, dpa := dpa } else none

/-- The binding of a context whose window holds a VA (R361). -/
def bindingAt (s : State) (c va : Nat) : Option Binding :=
  (s.ctx? c).bind (fun x =>
    x.bindings.find? (fun b => b.win.toNat ≤ va && va < b.win.toNat + b.len))

/-- The walk of a bound window at a VA, through a gateway; none where no window holds the VA. -/
def windowWalk (s : State) (gw c va : Nat) : Option (TreeAt × List NodeEnt) :=
  (bindingAt s c va).map (fun b =>
    let o := va - b.win.toNat
    if nodeSpan b.depth ≤ o then (.zero, [])
    else match mget s.regions b.region with
      | none => (.malformed, [])
      | some g => treeFrom s g gw c b.depth b.name b.win.toNat o)

/-- Checks 5 to 11 of a composed entry, and the content walk (R265, R361). A leaf of class CONTENT is
covered at stage 2 with R, whatever the access, or it lacks permission. -/
def judge (s : State) (c va : Nat) (acc : Access) (e : TlbEnt) : Except XErr Xl :=
  let dpa := e.dpa + va % 65536
  let xl : Xl := { dpa := dpa, r := e.r, w := e.w, x := e.x, s := e.s, home := e.home, cls := e.cls,
                   ace := e.ace, size := e.size }
  match dpaCheck s dpa with
  | some .stage2 => .error { cause := .stage2, dpa := dpa }
  | bad =>
    if !homeCheck e dpa || bad.isSome then .error { cause := .placement, dpa := dpa }
    else
      if (acc.rd && !e.r) || (acc.wr && !e.w) || (acc.ex && !e.x)
          || (e.s && !acc.super && !acc.ignoreS) || inContentStore s dpa || (e.cls == 3 && !e.r2) then
        .error (.of .permission)
      else if e.cls = 3 then
        if acc.wr then .error (.of .contentRo)
        else match windowWalk s e.gateway c va with
          | none => .error (.of .notMapped)
          | some (.zero, _) => .ok { xl with zero := true }
          | some (.malformed, _) => .error (.of .contentMalformed)
          | some (.fault x, _) => .error x
          | some (.slot d, _) =>
            match lastChecks s c acc 3 d with
            | some x => .error x
            | none => .ok { xl with dpa := d }
      else match lastChecks s c acc e.cls dpa with
        | some x => .error x
        | none => .ok xl

/-! ### TLBs (R263, R266-R268) -/

/-- An entry covers a context's unit. -/
def TlbEnt.covers (e : TlbEnt) (c u : Nat) : Bool :=
  e.ctx == c && decide (e.va ≤ u) && decide (u < e.va + e.span)

/-- What an entry says of a unit that it covers, seen through a gateway. -/
def TlbEnt.unit (e : TlbEnt) (gw u : Nat) : TlbEnt :=
  { e with gateway := gw, va := u, dpa := e.dpa + (u - e.va) * 65536 }

/-- The entry that a holder keeps for a composed unit: of its own size where it is held so (R263). -/
def TlbEnt.wide (e : TlbEnt) (holder : Nat) : TlbEnt :=
  let base := e.va / e.span * e.span
  { e with gateway := holder, va := base, dpa := e.dpa - (e.va - base) * 65536 }

/-- The entries that the TLBs which serve a gateway hold for a VA (R266). -/
def tlbHeld (s : State) (gw c va : Nat) : List TlbEnt :=
  (s.tlb.filter (fun e => serves e.gateway gw && e.covers c (va / 65536))).map (·.unit gw (va / 65536))

/-- The entry a translation finds: one that a TLB holds, or the tables as they stand; where they
differ, which it is is free (R268; notes/assumptions/7.md). -/
def freshEntry (s : State) (gw c va : Nat) : Except XErr TlbEnt :=
  let now := compose s gw c va
  let old := (tlbHeld s gw c va).filter (fun e =>
    match now with
    | .ok e' => e != e'
    | .error _ => true)
  match old[Config.freeNat s.freeCtr % (old.length + 1)]? with
  | some e => .ok e
  | none => now

/-- The entry an access translates by: the one that its check before found (R99), else a new one. -/
def entryFor (s : State) (gw c va : Nat) : Except XErr TlbEnt :=
  match s.pin with
  | some e => if e.covers c (va / 65536) then .ok e else freshEntry s gw c va
  | none => freshEntry s gw c va

/-- The kind of an access, as the record of R269 carries it. -/
def Access.kind (a : Access) : Nat := b2n a.rd + 2 * b2n a.wr + 4 * b2n a.ex

/-- Translate one access through a gateway (R265). -/
def translate (s : State) (gw c va : Nat) (acc : Access) : Except XErr Xl :=
  match entryFor s gw c va with
  | .error e => .error { e with kind := acc.kind }
  | .ok e => judge s c va acc e

/-- The unit numbers of the entries of a holder's TLB, from the first one (R432): 2,048 for each of the 32
gateways by its number, and beyond those 32,768 for each die's last-level TLB (R14, R266;
notes/assumptions/134.md). -/
def tlbFirst (holder : Nat) : Nat := if holder < 32 then 2048 * holder else 65536 + 32768 * (holder - 32)

/-- The unit numbers of all of them. -/
def tlbUnits : Nat := 65536 + 32768 * 4

/-- The entries that a holder may allocate: those that are neither retired nor under test (R266, R432,
R433). -/
def tlbSize (s : State) (holder : Nat) : Nat :=
  let n := if holder < 32 then 2048 else 32768
  let out := (s.heath.retired ++ s.heath.testing.map (fun t => (t.1, t.2.1))).eraseDups
  n - (out.filter (fun (c, i) =>
    c == 6 && decide (tlbFirst holder ≤ i) && decide (i < tlbFirst holder + n))).length

/-- The entries that a holder holds: translations and content nodes. -/
def tlbUse (s : State) (holder : Nat) : Nat :=
  (s.tlb.filter (fun e => e.gateway == holder)).length
    + (s.nodeTlb.filter (fun e => e.gateway == holder)).length

/-- One entry of a holder goes; which one is not architected (R266). -/
def State.tlbDrop (s : State) (holder : Nat) : State :=
  let mine := s.tlb.filter (fun e => e.gateway == holder)
  let nodes := s.nodeTlb.filter (fun e => e.gateway == holder)
  let i := Config.freeNat s.freeCtr % (mine.length + nodes.length)
  let s := { s with freeCtr := s.freeCtr + 1 }
  match mine[i]?, nodes[i - mine.length]? with
  | some e, _ => { s with tlb := s.tlb.erase e }
  | none, some e => { s with nodeTlb := s.nodeTlb.erase e }
  | none, none => s

/-- A holder with no more entries than `n`: others go. -/
def State.tlbRoom (s : State) (holder n : Nat) : State :=
  (List.range (tlbUse s holder - n)).foldl (fun s _ => s.tlbDrop holder) s

/-- Keep an entry in a holder, unless it holds one for the unit or may allocate none: a stale entry stays
until it is invalidated or makes room (R266, R268, R432). -/
def State.addTlb (s : State) (holder : Nat) (e : TlbEnt) : State :=
  if s.tlb.any (fun t => t.gateway == holder && t.covers e.ctx e.va) || tlbSize s holder == 0 then s
  else
    let s := s.tlbRoom holder (tlbSize s holder - 1)
    { s with tlb := e.wide holder :: s.tlb }

/-- Keep a resolved content node in a holder (R362). -/
def State.addNode (s : State) (holder : Nat) (e : NodeEnt) : State :=
  if s.nodeTlb.any (fun t => t.gateway == holder && t.ctx == e.ctx && t.va == e.va && t.span == e.span)
      || tlbSize s holder == 0 then s
  else
    let s := s.tlbRoom holder (tlbSize s holder - 1)
    { s with nodeTlb := { e with gateway := holder } :: s.nodeTlb }

/-- Keep the table entries that a walk has read (R267). -/
def State.addWalks (s : State) (l : List WalkEnt) : State :=
  l.foldl (fun s e =>
    if s.walkCache.any (fun t => t.die == e.die && t.ctx == e.ctx && t.level == e.level
        && t.index == e.index) then s
    else { s with walkCache := e :: s.walkCache }) s

/-- A walk's result enters the translating gateway's TLB and its die's last-level TLB (R267); the die's own
port has no other TLB. -/
def State.walked (s : State) (gw c va : Nat) (e : TlbEnt) : State :=
  let s := match s.ctx? c with
    | some x => if c = 0 then s else s.addWalks (walkPath s (gwDie gw) c va 3 x.root)
    | none => s
  (s.addTlb (lastLevel (gwDie gw)) e).addTlb gw e

/-- The effect of a completed translation on the TLBs. The next access draws anew between an old entry and
the tables (R268). -/
def State.learn (s : State) (gw c va : Nat) : State :=
  match entryFor s gw c va with
  | .ok e =>
    let s := if (dregion e.dpa).tag = 3 && (s.ctx? c).any (fun x => !x.poolUsed) then
        s.updCtx c (fun x => { x with poolUsed := true })
      else s
    let nodes := if e.cls = 3 then ((windowWalk s gw c va).map (·.2)).getD [] else []
    let s := if (tlbHeld s gw c va).isEmpty then
        ((s.countFor c cTLB 1).countFor c cWALKS 1).walked gw c va e
      else s
    let s := nodes.foldl (fun s n => (s.addNode (lastLevel (gwDie gw)) n).addNode gw n) s
    { s with freeCtr := s.freeCtr + 4 }.useGateway c
  | .error _ => s

end Sys2Proof.Machine
end

