-- ==== Sys2Proof/Machine/Cache.lean ====
section
/-! DEFINITION. Copies of lines in core L1s and cluster L2s, the home, and accesses performed at a
level: fills, writes, write-backs, the remap filter, releases and acquires (R196, R202, R204,
R214, R215, R220-R231, R328). -/

namespace Sys2Proof.Machine
open Sys2Proof

/-- Where an access is performed (R196). -/
inductive Level
  | l1 | l2 | home
  deriving DecidableEq, Repr

/-- Who accesses global memory: a core's swath in a context, at trap level above 0 or not. -/
structure Agent where
  core : Nat
  ctx : Nat
  super : Bool
  /-- Accesses made for the context and not for an instruction (R264). -/
  ignoreS : Bool := false
  deriving DecidableEq, Repr

/-- The cluster, numbered over the dies; also the translating gateway (R266). -/
def Agent.cluster (a : Agent) : Nat := a.core / 6

def Agent.access (a : Agent) (rd wr ex : Bool) : Access :=
  { rd := rd, wr := wr, ex := ex, super := a.super, ignoreS := a.ignoreS }

/-- The outcome of a memory operation. -/
inductive MRes (α : Type)
  | ok (a : α) (s : State)
  | fault (e : XErr)
  /-- It waits for a unit or for the host; nothing has been performed (R265, R328). -/
  | hold (s : State)

/-- Go on with the result of a memory operation. -/
def MRes.bind {α β : Type} (r : MRes α) (f : α → State → MRes β) : MRes β :=
  match r with
  | .ok a s => f a s
  | .fault e => .fault e
  | .hold s => .hold s

/-! ### The host's half lines (R321, R328) -/

def DirEnt.zero : DirEnt := { hhi := 0, hlo := 0, owner := 0, shr := 0, o := false }

def State.dirEnt (s : State) (line : Nat) : DirEnt := mgetD s.dir line .zero

/-- The host's port, beyond the 16 of the fabric. -/
def hostPort : Nat := 16

/-- The port for messages to an agent: the lowest of its ROUTE (R320). -/
def State.portTo (s : State) (node : Nat) : Option Nat :=
  (List.range 16).find? (fun i => (s.node node).route.getLsbD i)

/-- The port for messages to the agent of a slot; slot 0 is the host. -/
def State.slotPort (s : State) (slot : Nat) : Option Nat :=
  if slot = 0 then some hostPort else (mget s.sharers slot).bind s.portTo

/-- Traffic of an agent reaches this device: some port of its ROUTE is not fenced; one without a port is
told apart from none by nothing that the device can see (R332; notes/assumptions/127.md). -/
def heard (s : State) (node : Nat) : Bool :=
  (s.node node).route == 0 || (s.node node).route &&& ~~~s.heath.fenced != 0

/-- Traffic of the agent of a slot reaches this device; slot 0 is the host. -/
def heardSlot (s : State) (slot : Nat) : Bool :=
  slot == 0 || (mget s.sharers slot).any (heard s)

/-- A port that is not fenced carries traffic (R332). -/
def State.carries (s : State) (port : Nat) : Bool := port == hostPort || !s.heath.fenced.getLsbD port

/-- Send a message on a port; one without a port, or on a fenced one, is lost (R320, R332). -/
def State.emit (s : State) (port : Option Nat) (o : Nat → Out) : State :=
  match port with
  | some p => if s.carries p then { s with outbox := s.outbox ++ [o p] } else s
  | none => s

/-- The 32 bytes of a Vendor-Defined message: each field with the byte at which it begins; every other
byte is 0 (R314, R330). -/
def vdm (fields : List (Nat × Nat)) : List Byte :=
  leBytes 32 (fields.foldl (fun v (at_, x) => v + x * 256 ^ at_) 0)

/-- Send a message of R330 to an agent. -/
def State.vendor (s : State) (node : Nat) (fields : List (Nat × Nat)) : State :=
  s.emit (s.portTo node) (.vendor · node (vdm fields))

/-- Ask for the fill of a unit for an absent access or a hint (R166, R207, R277), or for a write of a content
directory's own (R366); one missed through an RO-SHARED page ends SHARED (R271, R323). -/
def State.askFill (s : State) (unit ctx group rq : Nat) (ro : Bool) : State :=
  if (presentFrame s unit).isSome || s.localUnit unit then s
  else { s with
    roUnits := if ro && !s.roUnits.contains unit then s.roUnits ++ [unit] else s.roUnits,
    fills := s.fills ++
      [{ unit := unit, ctx := ctx, group := group, rq := rq, frame := none, snooped := false }] }

/-- Steps 1 and 2 of an upgrade: the frame becomes UPGRADING, and the home of its unit is asked (R323). -/
def State.beginUpgrade (s : State) (f : Nat) : State :=
  let t := s.setFrame f { s.frame f with st := .upgrading }
  match backing s ((s.frame f).unit * 65536) with
  | some (_, l, a) => t.vendor l.node [(0, 0x31), (8, a / 65536 * 65536)]
  | none => t

/-- A message is this snoop. -/
def Out.isSnoop (kind slot addr : Nat) : Out → Bool
  | .snoop _ k n a => k == kind && n == slot && a == addr
  | _ => false

/-- A snoop is on its way. -/
def State.snooping (s : State) (kind slot addr : Nat) : Bool := s.outbox.any (·.isSnoop kind slot addr)

/-- A snoop has been answered. -/
def State.endSnoop (s : State) (kind slot addr : Nat) : State :=
  { s with outbox := s.outbox.filter (fun o => !o.isSnoop kind slot addr) }

/-- Send a snoop unless it is already on its way. -/
def State.sendSnoop (s : State) (kind slot addr : Nat) : State :=
  if s.snooping kind slot addr then s else s.emit (s.slotPort slot) (.snoop · kind slot addr)

/-- The snoop kinds: 1 BISnpInv, 2 BISnpData, of the half at an address; 3, 4 their Blk forms. -/
def snpInv : Nat := 1
def snpData : Nat := 2

/-- The halves of a line (0 low, 1 high) that a byte mask touches. -/
def halvesOf (mask : BitVec 128) : List Nat :=
  (if mask.extractLsb' 0 64 = 0 then [] else [0]) ++ (if mask.extractLsb' 64 64 = 0 then [] else [1])

/-- The host's state of a half: 0 I, 1 S, 2 A (R321). -/
def hostHalf (s : State) (line half : Nat) : Nat :=
  if (dregion (line * 128)).tag ≠ 0 || s.heath.hostPcie then 0
  else if half = 0 then (s.dirEnt line).hlo else (s.dirEnt line).hhi

/-- A write at the home of a line waits: it goes to the pool over a fenced port or for a lease that takes
none, or the line's directory entry is being rebuilt (R305, R332, R334). -/
def lineShut (s : State) (line : Nat) : Bool :=
  ((dregion (line * 128)).tag == 3 && (presentFrame s (line / 512)).isNone
      && !s.zeroUnits.contains (line / 512) && poolShut s (line / 512))
    || rebuilt s line

/-- Ask the host for the halves that a home write needs in state I; none when it may proceed. A write
that waits for a port or a directory entry waits too. -/
def writeHold (s : State) (line : Nat) (mask : BitVec 128) : Option State :=
  let hs := (halvesOf mask).filter (fun h => hostHalf s line h != 0)
  if lineShut s line then some s
  else if hs.isEmpty then none
  else some (hs.foldl (fun s h => s.sendSnoop snpInv 0 (line * 128 + 64 * h)) s)

/-- Ask the host for the halves that a `system`-scope read needs; none when it may proceed. -/
def readHold (s : State) (line : Nat) (mask : BitVec 128) : Option State :=
  let hs := (halvesOf mask).filter (fun h => hostHalf s line h == 2)
  if hs.isEmpty then none
  else some (hs.foldl (fun s h => s.sendSnoop snpData 0 (line * 128 + 64 * h)) s)

/-! ### The home (R221, R225, R272, R405) -/

/-- The byte mask of `n` bytes from byte `o` of a line. -/
def byteMask (o n : Nat) : BitVec 128 := BitVec.ofNat 128 ((2 ^ n - 1) * 2 ^ o)

/-- The bits that a byte mask names. -/
def bitMask (m : BitVec 128) : Nat → Nat → Nat
  | _, 0 => 0
  | i, n + 1 => (if m.getLsbD i then 255 * 256 ^ i else 0) + bitMask m (i + 1) n

/-- `old` with the bytes of `new` that the mask names. -/
def mergeLine (m : BitVec 128) (new old : BitVec 1024) : BitVec 1024 :=
  let b := BitVec.ofNat 1024 (bitMask m 0 128)
  (new &&& b) ||| (old &&& ~~~b)

/-- Write the masked bytes of line `i` of a unit at one home; of a marked unit the whole line is written,
for a line is encrypted as one (R405). -/
def State.poolWrite (s : State) (pa : Nat) (k : Option UnitKey) (i : Nat) (mask : BitVec 128)
    (data : BitVec 1024) : State :=
  match k with
  | none => { s with pool := s.pool.wrMask pa mask data 0 128 }
  | some _ =>
    { s with pool := s.pool.wrMask pa (BitVec.allOnes 128)
                       (sealLine k i (mergeLine mask data (poolLine s pa k i))) 0 128 }

/-- The second home of a unit while a dual-home window is open (R326). -/
def secondHome (s : State) (dpa : Nat) : Option Nat :=
  (s.moves.find? (fun m => m.unit == dpa / 65536)).map (fun m =>
    let l := s.lease m.dst
    poolAddr l.node (l.pbase + m.off + dpa % 65536))

/-- Write a line's masked bytes to the pool behind a DPA, both homes while a window is open. -/
def State.poolWriteDpa (s : State) (dpa : Nat) (mask : BitVec 128) (data : BitVec 1024) : State :=
  match (if s.zeroUnits.contains (dpa / 65536) then none else backing s dpa) with
  | none => s
  | some (_, l, a) =>
    let k := unitKey s (dpa / 65536)
    let s := s.poolWrite (poolAddr l.node a) k (dpa / 128 % 512) mask data
    match secondHome s dpa with
    | some pa => s.poolWrite pa k (dpa / 128 % 512) mask data
    | none => s

/-- Keep a line as it stands before a write, for the launches that run and have none of it kept yet: they may
still fetch its old pieces (R234; notes/assumptions/9.md). -/
def State.noteOld (s : State) (line : Nat) : State :=
  let new := (s.launches.map (·.1)).filter (fun l =>
    !s.stale.any (fun e => e.line == line && e.launches.contains l))
  if s.launches.isEmpty then { s with stale := [] }
  else if new.isEmpty then s
  else { s with stale := s.stale ++ [{ line := line, old := homeLine s (line * 128), launches := new }] }

/-- A write performed at the home of the line that starts at `dpa`. -/
def State.homeWrite (s : State) (dpa : Nat) (mask : BitVec 128) (data : BitVec 1024) : State :=
  let s := s.noteOld (dpa / 128)
  let s := if mask = BitVec.allOnes 128 then
      { s with poisoned := s.poisoned.filter (· != dpa / 128) } else s
  match dregion dpa with
  | .reserved => s
  | .pool =>
    match presentFrame s (dpa / 65536) with
    | some f =>
      let s := { s with mem := s.mem.wrMask (frameDpa f + dpa % 65536) mask data 0 128 }
      let e := s.frame f
      if e.role == .cache && e.st == .clean then s.setFrame f { e with st := .dirty } else s
    | none => s.poolWriteDpa dpa mask data
  | _ => { s with mem := s.mem.wrMask dpa mask data 0 128 }

/-- Count a line request of an ACE page (R273). -/
def State.countAccess (s : State) (dpa : Nat) (ace : Bool) : State :=
  if !ace || (dregion dpa).tag ≠ 3 then s
  else match presentFrame s (dpa / 65536) with
    | some f => let e := s.frame f
                s.setFrame f { e with count := Nat.min 255 (e.count + 1) }
    | none => s

/-! ### Writes of the device's own (R278, R423) -/

/-- A write that nothing holds is performed; a record of a log raises LOGPROD (R423). -/
def State.landWrite (s : State) (w : HomeWrite) : State :=
  let s := s.homeWrite (w.line * 128) w.mask w.data
  match w.bank with
  | some n => { s with banks := mupd s.banks n (fun b => { b with logProd := b.logProd + 1 }) }
  | none => s

/-- A write that the device makes of its own accord waits for the host's half, for a fenced port and for a
directory entry as any other does (R328, R332, R334), behind earlier ones of its line. -/
def State.deviceWrite (s : State) (w : HomeWrite) : State :=
  if s.homeWrites.any (fun v => v.line == w.line) then { s with homeWrites := s.homeWrites ++ [w] }
  else match writeHold s w.line w.mask with
    | some t => { t with homeWrites := t.homeWrites ++ [w] }
    | none => s.landWrite w

/-- The writes that wait are tried again, in their order. -/
def State.retryWrites (s : State) : State :=
  s.homeWrites.foldl State.deviceWrite { s with homeWrites := [] }

/-! ### Copies (R221, R226) -/

/-- The copy of a line under an alias. -/
def copyAt (cs : List Copy) (unit ctx va : Nat) : Option Copy :=
  cs.find? (fun c => c.unit == unit && c.ctx == ctx && c.va == va)

/-- Put a copy in the place of the one under its alias; a copy with no byte goes. -/
def putCopy (cs : List Copy) (c : Copy) : List Copy :=
  let rest := cs.filter (fun d => !(d.unit == c.unit && d.ctx == c.ctx && d.va == c.va))
  if c.valid = 0 then rest else c :: rest

/-- A copy that a translation would fill. -/
def emptyCopy (unit ctx va : Nat) (xl : Xl) : Copy :=
  { unit := unit, ctx := ctx, va := va, dpa := xl.dpa / 128, r := xl.r, w := xl.w, x := xl.x,
    s := xl.s, cls := xl.cls, size := xl.size, valid := 0, dirty := 0, data := 0 }

/-- The bytes that a unit's copy holds, under the marks of a fresh translation (R264). -/
def Copy.over (tags : Copy) (unit : Nat) : Option Copy → Copy
  | some c => { tags with unit := unit, valid := c.valid, dirty := c.dirty, data := c.data }
  | none => { tags with unit := unit, valid := 0, dirty := 0, data := 0 }

/-- The copy permits the access without a fresh translation (R264). -/
def Copy.permits (c : Copy) (a : Access) : Bool :=
  (!a.rd || c.r) && (!a.wr || (c.w && decide (c.cls < 2))) && (!a.ex || c.x)
    && (!c.s || a.super || a.ignoreS)

/-- Copy into the absent bytes of `c`; they become clean (a fill, R221). -/
def Copy.fill (c : Copy) (line : BitVec 1024) (have_ : BitVec 128) : Copy :=
  let m := have_ &&& ~~~c.valid
  { c with data := mergeLine m line c.data, valid := c.valid ||| have_ }

/-- Write bytes into a copy; they become dirty. -/
def Copy.write (c : Copy) (mask : BitVec 128) (data : BitVec 1024) : Copy :=
  { c with data := mergeLine mask data c.data, valid := c.valid ||| mask, dirty := c.dirty ||| mask }

/-- The copy after its dirty bytes are written back. -/
def Copy.cleaned (c : Copy) : Copy := { c with dirty := 0 }

/-- The copy after its clean bytes are made absent (R222). -/
def Copy.dropClean (c : Copy) : Copy := { c with valid := c.dirty }

/-- Transfers of a line that the home has in no frame: the pool is read or written for it, and the context
whose request this is has used as many (R397, R398). -/
def State.poolUse (s : State) (c line n : Nat) : State :=
  match locate s (line * 128) with
  | .pool _ _ => s.usePool c n
  | _ => s

/-- Write back an L2 copy to the home (R221), for the context whose request has caused it. -/
def State.wbL2 (s : State) (c : Copy) (by_ : Nat := c.ctx) : State :=
  if c.dirty = 0 then s
  else
    let s := (s.poolUse by_ c.dpa 1).homeWrite (c.dpa * 128) c.dirty c.data
    { s with l2 := putCopy s.l2 c.cleaned }

/-- Remove a copy. -/
def State.dropL2 (s : State) (c : Copy) : State := { s with l2 := putCopy s.l2 { c with valid := 0 } }

/-- Lines that a cluster L2 holds: 8 MiB (R9). -/
def l2Lines : Nat := 65536

/-- The copy that a full cluster L2 gives up for a new line: one whose write-back nothing keeps waiting;
which one is free (R9, R226; notes/assumptions/111.md). -/
def l2Victim (s : State) (cl ctx va : Nat) : Option Copy :=
  let mine := s.l2.filter (fun c => c.unit == cl)
  if (copyAt s.l2 cl ctx va).isSome || decide (mine.length < l2Lines) then none
  else
    let go := mine.filter (fun c => c.dirty == 0 || (writeHold s c.dpa c.dirty).isNone)
    go[Config.freeNat s.freeCtr % go.length]?

/-- Room in a cluster L2 for a line: its victim is written back and goes, and is counted where it is
another context's (R421). -/
def State.l2Room (s : State) (cl ctx va : Nat) : State :=
  match l2Victim s cl ctx va with
  | some v => ((s.countEvict ctx v.ctx 1).wbL2 v ctx).dropL2 v
  | none => s

/-- Write back an L1 copy: its dirty bytes become dirty in the cluster's L2 (R221). -/
def State.wbL1 (s : State) (c : Copy) : State :=
  if c.dirty = 0 then s
  else
    let cl := c.unit / 6
    let s := s.l2Room cl c.ctx c.va
    let base := (copyAt s.l2 cl c.ctx c.va).getD { c with unit := cl, valid := 0, dirty := 0 }
    { s with l2 := putCopy s.l2 (base.write c.dirty c.data), l1 := putCopy s.l1 c.cleaned }

/-- Write back every L1 copy that satisfies `p` to its L2. -/
def State.wbL1s (s : State) (p : Copy → Bool) : State :=
  (s.l1.filter (fun c => p c && c.dirty != 0)).foldl (fun s c => s.wbL1 c) s

/-- Write back every L2 copy that satisfies `p` to the home, each for a context. -/
def State.wbL2s (s : State) (p : Copy → Bool) (by_ : Copy → Nat := Copy.ctx) : State :=
  (s.l2.filter (fun c => p c && c.dirty != 0)).foldl (fun s c => s.wbL2 c (by_ c)) s

/-- The lines with dirty bytes among the copies that satisfy the predicates, with those bytes. -/
def dirtyLines (s : State) (p1 p2 : Copy → Bool) : List (Nat × BitVec 128) :=
  ((s.l1.filter p1) ++ (s.l2.filter p2)).filterMap
    (fun c => if c.dirty = 0 then none else some (c.dpa, c.dirty))

/-- Ask the host for every half that a set of write-backs needs (R328). -/
def linesHold (s : State) : List (Nat × BitVec 128) → Option State
  | [] => none
  | (line, m) :: rest =>
    match writeHold s line m with
    | some s' => some ((linesHold s' rest).getD s')
    | none => linesHold s rest

/-- Write back the matching copies of L1s and then of L2s to the home, and drop what matches. -/
def State.flush (s : State) (p1 p2 : Copy → Bool) (by_ : Copy → Nat := Copy.ctx) : State :=
  let s := (s.wbL1s p1).wbL2s p2 by_
  { s with l1 := s.l1.filter (fun c => !p1 c), l2 := s.l2.filter (fun c => !p2 c) }

/-- Exempt from the remap filter: RO-SHARED and CONTENT (R226). -/
def Copy.exempt (c : Copy) : Bool := decide (2 ≤ c.cls)

/-- A copy that may not stand beside a line's alias in a cluster: the line under another alias, unless
its class is exempt, and the alias on another line (R226). -/
def otherAlias (cl ctx va : Nat) (xl : Xl) (c : Copy) (cluster : Nat) : Bool :=
  let alias_ := c.ctx == ctx && c.va == va
  cluster == cl && ((decide (xl.cls < 2) && c.dpa == xl.dpa / 128 && !c.exempt && !alias_)
    || (alias_ && c.dpa != xl.dpa / 128))

/-- What leaves a cluster's L1s and its L2 before it takes a line under an alias. -/
def leavesL1 (cl ctx va : Nat) (xl : Xl) (c : Copy) : Bool := otherAlias cl ctx va xl c (c.unit / 6)
def leavesL2 (s : State) (cl ctx va : Nat) (xl : Xl) (c : Copy) : Bool :=
  otherAlias cl ctx va xl c c.unit
    || (l2Victim s cl ctx va).any (fun v => v.unit == c.unit && v.ctx == c.ctx && v.va == c.va)

/-- The lines of other contexts among copies that leave for a request of a context (R421). -/
def State.countGone (s : State) (by_ : Nat) (l : List Copy) : State :=
  l.foldl (fun s c => s.countEvict by_ c.ctx 1) s

/-- Before a cluster takes a line under an alias, every other alias of it there goes, and in a full L2
one line makes room (R226). -/
def State.remap (s : State) (cl ctx va : Nat) (xl : Xl) : State :=
  (s.countGone ctx (s.l2.filter (leavesL2 s cl ctx va xl))).flush (leavesL1 cl ctx va xl)
    (leavesL2 s cl ctx va xl) (fun _ => ctx)

/-- The lines that a remap would write back. -/
def remapLines (s : State) (cl ctx va : Nat) (xl : Xl) : List (Nat × BitVec 128) :=
  dirtyLines s (leavesL1 cl ctx va xl) (leavesL2 s cl ctx va xl)

/-! ### Accesses at a level -/

/-- Bytes `[o, o + n)` of a line as a number. -/
def lineBytes (line : BitVec 1024) (o n : Nat) : Nat := line.toNat / 2 ^ (8 * o) % 2 ^ (8 * n)

/-- A line that holds the `n` low bytes of `v` at byte `o`. -/
def lineWith (o v n : Nat) : BitVec 1024 := BitVec.ofNat 1024 (v % 2 ^ (8 * n) * 2 ^ (8 * o))

/-- The copies of a line in the agent's own core L1 and cluster L2 (R223). -/
def ownL1 (a : Agent) (line dpaLine : Nat) (c : Copy) : Bool :=
  c.unit == a.core && ((c.ctx == a.ctx && c.va == line) || (c.dpa == dpaLine && !c.exempt))

def ownL2 (a : Agent) (line dpaLine : Nat) (c : Copy) : Bool :=
  c.unit == a.cluster && ((c.ctx == a.ctx && c.va == line) || (c.dpa == dpaLine && !c.exempt))

/-- Before an access that is performed at the home, the agent's own copies of the line are written back
and made absent (R223). For a `system`-scope access the host's dirty half is collected (R225, R328). -/
def State.clearOwn (s : State) (a : Agent) (va : Nat) (xl : Xl) (wr sys : Bool)
    (touch : BitVec 128) : MRes Unit :=
  let line := va / 128
  let dl := xl.dpa / 128
  let wbs := dirtyLines s (ownL1 a line dl) (ownL2 a line dl)
  match linesHold s (if wr then (dl, touch) :: wbs else wbs) with
  | some s' => .hold s'
  | none =>
    match (if sys then readHold s dl touch else none) with
    | some s' => .hold s'
    | none => .ok () ((s.flush (ownL1 a line dl) (ownL2 a line dl)).countAccess xl.dpa xl.ace)

/-- The line at its home, the agent's own copies written back and made absent first (R223). -/
def atHome (s : State) (a : Agent) (va : Nat) (acc : Access) (sys : Bool) (touch : BitVec 128) :
    MRes Xl :=
  match translate s a.cluster a.ctx va acc with
  | .error e => if e.gate.isSome then .hold s else .fault e
  | .ok xl =>
    let s := s.learn a.cluster a.ctx va
    if xl.zero then .ok xl s
    else (s.clearOwn a va xl acc.wr sys touch).bind fun _ s =>
      .ok xl (s.poolUse a.ctx (xl.dpa / 128) (b2n acc.rd + b2n acc.wr))

/-- Where an access inside the home finds its line: a copy, an empty part of a content tree, or the home
of a page that is never cached (R224). -/
inductive Where
  | copy (c : Copy)
  | zero
  | home (xl : Xl)

/-- A line that goes to its gateway for a fresh translation: the marks of its copies in the cluster once
every other alias has gone, or the home of a page that is never cached, whose own copies under another
alias have gone (R223, R224, R226, R264). The ACE of a cached page is told too. -/
def missLine (s : State) (a : Agent) (va : Nat) (acc : Access) (touch : BitVec 128) :
    MRes (Where × Bool) :=
  match translate s a.cluster a.ctx va acc with
  | .error e => if e.gate.isSome then .hold s else .fault e
  | .ok xl =>
    let s := s.learn a.cluster a.ctx va
    if xl.zero then .ok (.zero, false) s
    else if 2 ≤ xl.home then
      (s.clearOwn a va xl acc.wr false touch).bind fun _ s =>
        .ok (.home xl, false) (s.poolUse a.ctx (xl.dpa / 128) (b2n acc.rd + b2n acc.wr))
    else match linesHold s (remapLines s a.cluster a.ctx (va / 128) xl) with
      | some s' => .hold s'
      | none => .ok (.copy (emptyCopy a.cluster a.ctx (va / 128) xl), xl.ace)
                  (s.remap a.cluster a.ctx (va / 128) xl)

/-- The cluster's copy with the bytes that `need` names present: where one of them is absent, every absent
byte is filled from the home (R221). Which bytes are needed is judged anew once a fresh translation has
made other aliases leave. -/
def fullL2 (s : State) (a : Agent) (va : Nat) (acc : Access) (need : State → BitVec 128) : MRes Where :=
  let line := va / 128
  let old := copyAt s.l2 a.cluster a.ctx line
  match old.filter (fun c => (need s &&& ~~~c.valid) == 0 && c.permits acc) with
  | some c => .ok (.copy c) s
  | none =>
    (missLine s a va acc (need s)).bind fun (w, ace) s =>
      let s := s.countFor a.ctx cL2 1
      match w with
      | .copy tags =>
        let c := tags.over a.cluster (copyAt s.l2 a.cluster a.ctx line)
        if (need s &&& ~~~c.valid) == 0 then .ok (.copy c) { s with l2 := putCopy s.l2 c }
        else
          let c := c.fill (homeLine s (c.dpa * 128)) (BitVec.allOnes 128)
          .ok (.copy c) (({ s with l2 := putCopy s.l2 c }.countAccess (c.dpa * 128) ace).poolUse a.ctx c.dpa 1)
      | w => .ok w s

/-- The bytes that a core L1 asks its L2 for: none where it holds the bytes `need`, else every one that it
lacks (R221). -/
def lacksL1 (a : Agent) (line : Nat) (need : BitVec 128) (s : State) : BitVec 128 :=
  let have_ := ((copyAt s.l1 a.core a.ctx line).map (·.valid)).getD 0
  if (need &&& ~~~have_) == 0 then 0 else ~~~have_

/-- The core L1's copy with the bytes `need` present: where one of them is absent, every absent byte is
filled from the cluster L2 (R221). -/
def fullL1 (s : State) (a : Agent) (va : Nat) (acc : Access) (need : BitVec 128) : MRes Where :=
  let line := va / 128
  let old := copyAt s.l1 a.core a.ctx line
  match old.filter (fun c => (need &&& ~~~c.valid) == 0 && c.permits acc) with
  | some c => .ok (.copy c) s
  | none =>
    (fullL2 s a va acc (lacksL1 a line need)).bind fun w s =>
      let s := s.countFor a.ctx cL1 1
      match w with
      | .copy c2 =>
        let c := c2.over a.core (copyAt s.l1 a.core a.ctx line)
        let c := if (need &&& ~~~c.valid) == 0 then c else c.fill c2.data c2.valid
        .ok (.copy c) { s with l1 := putCopy s.l1 c }
      | w => .ok w s

/-- The core L1's copy is written back to the L2 and made absent, before an access at the L2 (R223). -/
def State.clearL1 (s : State) (a : Agent) (va : Nat) : State :=
  let own (c : Copy) : Bool := c.unit == a.core && c.ctx == a.ctx && c.va == va / 128
  let s := s.wbL1s own
  { s with l1 := s.l1.filter (fun c => !own c) }

/-- Load `n` bytes at a level; they lie in one line. -/
def loadAt (lvl : Level) (sys : Bool) (s : State) (a : Agent) (va n : Nat) : MRes Nat :=
  let acc := a.access true false false
  let o := va % 128
  let read (w : Where) (s : State) : MRes Nat :=
    match w with
    | .copy c => .ok (lineBytes c.data o n) s
    | .zero => .ok 0 s
    | .home xl => .ok (homeRd s xl.dpa n) s
  match lvl with
  | .l1 => (fullL1 s a va acc (byteMask o n)).bind read
  | .l2 => (fullL2 (s.clearL1 a va) a va acc (fun _ => byteMask o n)).bind read
  | .home =>
    (atHome s a va acc sys (byteMask o n)).bind fun xl s =>
      if xl.zero then .ok 0 s else .ok (homeRd s xl.dpa n) s

/-- Write `n` bytes at the home of a translated line. -/
def homePut (s : State) (dpa v n : Nat) : State :=
  s.homeWrite (dpa / 128 * 128) (byteMask (dpa % 128) n) (lineWith (dpa % 128) v n)

/-- The outcome of a home write that may wait for the host (R328). -/
def homePutHold (s : State) (dpa v n : Nat) : MRes Unit :=
  match writeHold s (dpa / 128) (byteMask (dpa % 128) n) with
  | some s' => .hold s'
  | none => .ok () (homePut s dpa v n)

/-- A write performed at the core L1: the bytes become dirty, and a line absent from it is allocated
without a fill (R221). -/
def writeL1 (s : State) (a : Agent) (acc : Access) (va v n : Nat) : MRes Unit :=
  let line := va / 128
  let o := va % 128
  let put (s : State) (tags : Copy) : MRes Unit :=
    let c := tags.over a.core (copyAt s.l1 a.core a.ctx line)
    .ok () { s with l1 := putCopy s.l1 (c.write (byteMask o n) (lineWith o v n)) }
  match ((copyAt s.l1 a.core a.ctx line).filter (·.permits acc)).or
      ((copyAt s.l2 a.cluster a.ctx line).filter (·.permits acc)) with
  | some c => put s c
  | none =>
    (missLine s a va acc (byteMask o n)).bind fun (w, _) s =>
      match w with
      | .copy tags => put s tags
      | .home xl => homePutHold s xl.dpa v n
      | .zero => .ok () s

/-- A plain write (R221). -/
def storeL1 (s : State) (a : Agent) (va v n : Nat) : MRes Unit :=
  writeL1 s a (a.access false true false) va v n

/-- A write performed at the cluster L2; a line absent from it is allocated without a fill (R221). -/
def writeL2 (s : State) (a : Agent) (acc : Access) (va v n : Nat) : MRes Unit :=
  let line := va / 128
  let o := va % 128
  let put (s : State) (tags : Copy) : MRes Unit :=
    let c := tags.over a.cluster (copyAt s.l2 a.cluster a.ctx line)
    .ok () { s with l2 := putCopy s.l2 (c.write (byteMask o n) (lineWith o v n)) }
  match (copyAt s.l2 a.cluster a.ctx line).filter (·.permits acc) with
  | some c => put s c
  | none =>
    (missLine s a va acc (byteMask o n)).bind fun (w, _) s =>
      match w with
      | .copy tags => put s tags
      | .home xl => homePutHold s xl.dpa v n
      | .zero => .ok () s

/-- A store performed at a level (R204, R214). -/
def storeAt (lvl : Level) (sys : Bool) (s : State) (a : Agent) (acc : Access) (va v n : Nat) :
    MRes Unit :=
  match lvl with
  | .l1 => writeL1 s a acc va v n
  | .l2 => writeL2 (s.clearL1 a va) a acc va v n
  | .home =>
    (atHome s a va acc sys (byteMask (va % 128) n)).bind fun xl s => .ok () (homePut s xl.dpa v n)

/-- An atomic at a level: `f` gives the new value from the old one, or none to write nothing
(R200, R202). -/
def atomicAt (lvl : Level) (sys : Bool) (s : State) (a : Agent) (va n : Nat)
    (f : Nat → Option Nat) : MRes Nat :=
  let acc := a.access true true false
  let o := va % 128
  let atCopy (c : Copy) (put : Copy → State) (s : State) : MRes Nat :=
    let old := lineBytes c.data o n
    match f old with
    | some v => .ok old (put (c.write (byteMask o n) (lineWith o v n)))
    | none => .ok old s
  let uncached (xl : Xl) (s : State) : MRes Nat :=
    let old := homeRd s xl.dpa n
    match f old with
    | some v => (homePutHold s xl.dpa v n).bind fun _ s => .ok old s
    | none => .ok old s
  match lvl with
  | .l1 =>
    (fullL1 s a va acc (byteMask o n)).bind fun w s =>
      match w with
      | .copy c => atCopy c (fun c => { s with l1 := putCopy s.l1 c }) s
      | .zero => .ok 0 s
      | .home xl => uncached xl s
  | .l2 =>
    (fullL2 (s.clearL1 a va) a va acc (fun _ => byteMask o n)).bind fun w s =>
      match w with
      | .copy c => atCopy c (fun c => { s with l2 := putCopy s.l2 c }) s
      | .zero => .ok 0 s
      | .home xl => uncached xl s
  | .home =>
    (atHome s a va acc sys (byteMask o n)).bind fun xl s =>
      let old := homeRd s xl.dpa n
      match f old with
      | some v => .ok old (homePut s xl.dpa v n)
      | none => .ok old s

/-! ### Releases and acquires (R204, R209, R214, R215) -/

/-- Lines of a context in a core L1; in the L2 of the core's cluster. -/
def inL1 (core ctx : Nat) (c : Copy) : Bool := c.unit == core && c.ctx == ctx
def inL2 (core ctx : Nat) (c : Copy) : Bool := c.unit == core / 6 && c.ctx == ctx

/-- The write-backs of a release whose performing level is `lvl`, unless the host must answer
first (R204). -/
def releaseTo (lvl : Level) (s : State) (core ctx : Nat) : MRes Unit :=
  match lvl with
  | .l1 => .ok () s
  | .l2 => .ok () (s.wbL1s (inL1 core ctx))
  | .home =>
    match linesHold s (dirtyLines s (inL1 core ctx) (inL2 core ctx)) with
    | some s' => .hold s'
    | none => .ok () ((s.wbL1s (inL1 core ctx)).wbL2s (inL2 core ctx))

/-- Make the clean bytes of matching copies absent (R204, R222). -/
def dropCleanOf (p : Copy → Bool) (cs : List Copy) : List Copy :=
  (cs.map (fun c => if p c then c.dropClean else c)).filter (fun c => c.valid != 0)

/-- The invalidation of an acquire whose performing level is `lvl` (R204). -/
def acquireFrom (lvl : Level) (s : State) (core ctx : Nat) : State :=
  match lvl with
  | .l1 => s
  | .l2 => { s with l1 := dropCleanOf (inL1 core ctx) s.l1 }
  | .home => { s with l1 := dropCleanOf (inL1 core ctx) s.l1, l2 := dropCleanOf (inL2 core ctx) s.l2 }

/-- Pull the deferred-release records of a signal line: the named lines are written back and the
records dropped (R215). -/
def pullRecords (s : State) (line : Nat) : MRes Unit :=
  let rs := s.deferred.filter (fun d => d.line == line)
  let p1 (c : Copy) := rs.any (fun d => inL1 d.core d.ctx c)
  let p2 (c : Copy) := rs.any (fun d => inL2 d.core d.ctx c)
  match linesHold s (dirtyLines s p1 p2) with
  | some s' => .hold s'
  | none =>
    let s := (s.wbL1s p1).wbL2s p2
    .ok () { s with deferred := s.deferred.filter (fun d => d.line != line) }

/-- A covering read at the home: the records of the line are pulled before it returns (R215). -/
def coveringLoad (sys : Bool) (s : State) (a : Agent) (va n : Nat) : MRes Nat :=
  match translate s a.cluster a.ctx va (a.access true false false) with
  | .error e => if e.gate.isSome then .hold s else .fault e
  | .ok xl =>
    if xl.zero then loadAt .home sys s a va n
    else (pullRecords s (xl.dpa / 128)).bind fun _ s => loadAt .home sys s a va n

/-- What the device may do of its own accord to the copies of a line between two events of one
instruction (R222, R225): write them back, and make clean bytes absent; each of them is free. -/
def State.stir (s : State) (line : Nat) : State :=
  let p (c : Copy) : Bool := c.dpa == line
  let k := s.freeCtr
  let s := { s with freeCtr := k + 4 }
  let s := if Config.freeBool k then s.wbL1s p else s
  let s := if Config.freeBool (k + 1) && (linesHold s (dirtyLines s (fun _ => false) p)).isNone then
    s.wbL2s p else s
  let s := if Config.freeBool (k + 2) then { s with l1 := dropCleanOf p s.l1 } else s
  if Config.freeBool (k + 3) then { s with l2 := dropCleanOf p s.l2 } else s

/-- The copies of the line that a context's VA line is held as, stirred. -/
def State.stirAt (s : State) (a : Agent) (va : Nat) : State :=
  match (copyAt s.l1 a.core a.ctx (va / 128)).or (copyAt s.l2 a.cluster a.ctx (va / 128)) with
  | some c => s.stir c.dpa
  | none => s

/-- The line that a launch may still fetch pieces of: as it first fetched from it, or as it stood when it was
first written while the launch ran. -/
def oldLine (s : State) (launch line : Nat) : Option (BitVec 1024) :=
  ((mget s.launches launch).bind (fun l => mget l.code line)).or
    ((s.stale.find? (fun e => e.line == line && e.launches.contains launch)).map (·.old))

/-- A 4-byte piece of code, read at its home for a launch. Where the launch has fetched from the line
before, or it was written while the launch ran, the piece may still be the old one, each piece by itself
(R234; notes/assumptions/9.md). -/
def fetchWord (s : State) (a : Agent) (launch va : Nat) : MRes W32 :=
  match translate s a.cluster a.ctx va (a.access false false true) with
  | .error e => if e.gate.isSome then .hold s else .fault e
  | .ok xl =>
    if xl.zero then .ok 0 (s.learn a.cluster a.ctx va)
    else
      let line := xl.dpa / 128
      let now := w32 (homeRd s xl.dpa 4)
      match oldLine s launch line with
      | some old =>
        let was := w32 (lineBytes old (xl.dpa % 128) 4)
        let v := if was = now then now else if Config.freeBool (s.freeCtr + va / 4 % 4) then was else now
        .ok v (s.learn a.cluster a.ctx va)
      | none =>
        let s' := s.learn a.cluster a.ctx va
        .ok now { s' with launches := mupd s'.launches launch (fun l =>
          { l with code := mput l.code line (homeLine s (line * 128)) }) }

end Sys2Proof.Machine
end

