-- ==== Sys2Proof/Machine/Flags.lean ====
section
/-! DEFINITION. The flags of `sr.flags` (R33, R187) and the check of `sr.fmt` (R32). -/

namespace Sys2Proof.Machine
open Sys2Proof

/-- The seven flags, laid out as bits [6:0] of `sr.flags` (R33). -/
abbrev Flags := BitVec 7

def flIV : Flags := 1
def flOF : Flags := 2
def flUF : Flags := 4
def flNX : Flags := 8
def flDZ : Flags := 16
def flRSV : Flags := 32
def flSCOPE : Flags := 64

/-- A flag when a condition holds. -/
def flIf (c : Bool) (f : Flags) : Flags := if c then f else 0

/-- The union of a list of flags. -/
def flAll (l : List Flags) : Flags := l.foldl (· ||| ·) 0

/-! ### `sr.fmt` (R32) -/

def fmtAF (v : W64) : Nat := fld v 3 0
def fmtWF (v : W64) : Nat := fld v 7 4
def fmtACC (v : W64) : Nat := fld v 11 8
def fmtOUT (v : W64) : Nat := fld v 15 12
def fmtBS (v : W64) : Nat := fld v 17 16
def fmtRM (v : W64) : Nat := fld v 20 18

/-- No field of `sr.fmt` holds a reserved code and bits [63:21] are 0 (R32). -/
def fmtOk (v : W64) : Bool :=
  fld v 63 21 == 0 && decide (fmtRM v ≤ 4) && decide (fmtBS v ≤ 1) && decide (fmtOUT v ≤ 11)
    && (fmtACC v == 0 || fmtACC v == 8) && decide (fmtWF v ≤ 11) && decide (fmtAF v ≤ 11)

/-- The bits of `sr.fmt` that a `SETFMT` field mask selects (R59). -/
def fmtMask (m : BitVec 6) : W64 :=
  w64 ((if m.getLsbD 0 then 0xF else 0) + (if m.getLsbD 1 then 0xF0 else 0)
    + (if m.getLsbD 2 then 0xF00 else 0) + (if m.getLsbD 3 then 0xF000 else 0)
    + (if m.getLsbD 4 then 0x3_0000 else 0) + (if m.getLsbD 5 then 0x1C_0000 else 0))

end Sys2Proof.Machine
end

