-- ==== Sys2Proof/Machine/Num.lean ====
section
/-! DEFINITION. Number formats and exact arithmetic (R176-R194): decoding to exact dyadic values,
one rounding function for every mode, conversions, the stochastic generator, and the arithmetic of
the lane and matrix forms. -/

namespace Sys2Proof.Machine
open Sys2Proof

/-! ### Formats and exact values -/

/-- Which codes of a floating-point format are special (R178). -/
inductive FKind
  /-- Infinities and NaNs at the highest exponent. -/
  | ieee
  /-- One NaN code of each sign and no infinity (E4M3). -/
  | oneNan
  /-- Every code is finite. -/
  | finite
  deriving DecidableEq, Repr

/-- A floating-point format (R177): mantissa and exponent widths and the bias. -/
structure Fmt where
  mant : Nat
  ew : Nat
  bias : Nat
  kind : FKind
  deriving DecidableEq, Repr

def binary32 : Fmt := { mant := 23, ew := 8, bias := 127, kind := .ieee }
def bf16 : Fmt := { mant := 7, ew := 8, bias := 127, kind := .ieee }
def binary16 : Fmt := { mant := 10, ew := 5, bias := 15, kind := .ieee }
def e4m3 : Fmt := { mant := 3, ew := 4, bias := 7, kind := .oneNan }
def e5m2 : Fmt := { mant := 2, ew := 5, bias := 15, kind := .ieee }
def e3m2 : Fmt := { mant := 2, ew := 3, bias := 3, kind := .finite }
def e2m3 : Fmt := { mant := 3, ew := 2, bias := 1, kind := .finite }
def e2m1 : Fmt := { mant := 1, ew := 2, bias := 1, kind := .finite }

/-- The floating-point format of a code of R32. -/
def Fmt.ofCode : Nat → Option Fmt
  | 0 => some binary32 | 1 => some bf16 | 2 => some binary16 | 3 => some e4m3 | 4 => some e5m2
  | 5 => some e3m2 | 6 => some e2m3 | 7 => some e2m1 | _ => none

/-- The bits of an element of a format code (R177, R179). -/
def codeWidth : Nat → Nat
  | 0 => 32 | 1 => 16 | 2 => 16 | 3 => 8 | 4 => 8 | 5 => 6 | 6 => 6 | 7 => 4 | 8 => 32 | 9 => 8
  | 10 => 4 | _ => 2

/-- An exact value: a NaN, an infinity or m × 2^e with its sign (R176). -/
inductive FVal
  | nan (signalling : Bool)
  | inf (neg : Bool)
  | num (neg : Bool) (m : Nat) (e : Int)
  deriving DecidableEq, Repr

def FVal.zero (neg : Bool) : FVal := .num neg 0 0

/-- The highest exponent field. -/
def Fmt.topE (f : Fmt) : Nat := 2 ^ f.ew - 1

/-- The sign bit's place value. -/
def Fmt.signBit (f : Fmt) (neg : Bool) : Nat := if neg then 2 ^ (f.ew + f.mant) else 0

/-- The exact value of an element (R176-R178). -/
def Fmt.decode (f : Fmt) (bits : Nat) : FVal :=
  let neg := bits / 2 ^ (f.ew + f.mant) % 2 == 1
  let e := bits / 2 ^ f.mant % 2 ^ f.ew
  let m := bits % 2 ^ f.mant
  let special := match f.kind with
    | .ieee => e == f.topE
    | .oneNan => e == f.topE && m == 2 ^ f.mant - 1
    | .finite => false
  if special then
    if f.kind == .oneNan then .nan false
    else if m = 0 then .inf neg
    else .nan (m / 2 ^ (f.mant - 1) == 0)
  else if e = 0 then .num neg m (1 - (f.bias : Int) - f.mant)
  else .num neg (m + 2 ^ f.mant) ((e : Int) - f.bias - f.mant)

/-- The canonical NaN of a format, +0 where it has none (R178). -/
def Fmt.canon (f : Fmt) : Nat :=
  match f.kind with
  | .ieee => f.topE * 2 ^ f.mant + 2 ^ (f.mant - 1)
  | .oneNan => f.topE * 2 ^ f.mant + 2 ^ f.mant - 1
  | .finite => 0

/-- The bits of the largest finite magnitude (R177). -/
def Fmt.maxBits (f : Fmt) : Nat :=
  match f.kind with
  | .ieee => f.topE * 2 ^ f.mant - 1
  | .oneNan => f.topE * 2 ^ f.mant + 2 ^ f.mant - 2
  | .finite => f.topE * 2 ^ f.mant + 2 ^ f.mant - 1

/-- The bits of an infinity, or of the largest finite magnitude where there is none (R188). -/
def Fmt.infBits (f : Fmt) (neg : Bool) : Nat :=
  f.signBit neg + (match f.kind with | .ieee => f.topE * 2 ^ f.mant | _ => f.maxBits)

/-! ### Rounding (R180-R184) -/

/-- The rounding modes, by the code of `sr.fmt.RM`: 0 RNE, 1 RTZ, 2 RDN, 3 RUP, 4 SRN. -/
abbrev Mode := Nat

def RNE : Mode := 0
def SRN : Mode := 4

/-- m × 2^e rounded to a multiple of 2^q: how many, and whether it is inexact. `u` is the draw of
R184, used by SRN alone. -/
def roundTo (mode : Mode) (u : Nat) (neg : Bool) (m : Nat) (e q : Int) : Nat × Bool :=
  if q ≤ e then (m * 2 ^ (e - q).toNat, false)
  else
    let sh := (q - e).toNat
    let lo := m / 2 ^ sh
    let rem := m % 2 ^ sh
    if rem = 0 then (lo, false)
    else
      let up := match mode with
        | 0 => decide (2 ^ sh < 2 * rem) || (2 * rem == 2 ^ sh && lo % 2 == 1)
        | 1 => false
        | 2 => neg
        | 3 => !neg
        | _ => decide (u < rem * 2 ^ 32 / 2 ^ sh)
      (if up then lo + 1 else lo, true)

/-- The exponent of the top bit of m × 2^e, m > 0. -/
def topExp (m : Nat) (e : Int) : Int := e + (Nat.log2 m : Int)

/-- Encode a finite magnitude that is representable and within range: n × 2^q. -/
def Fmt.pack (f : Fmt) (neg : Bool) (n : Nat) (q : Int) : Nat :=
  let emin : Int := 1 - (f.bias : Int)
  if n = 0 then f.signBit neg
  else
    let t := topExp n q
    if t < emin then f.signBit neg + n * 2 ^ (q - (emin - f.mant)).toNat
    else
      let sh := t - f.mant - q
      let sig := if sh ≤ 0 then n * 2 ^ (-sh).toNat else n / 2 ^ sh.toNat
      f.signBit neg + (t + f.bias).toNat * 2 ^ f.mant + sig % 2 ^ f.mant

/-- n × 2^q exceeds the largest finite magnitude. -/
def Fmt.exceeds (f : Fmt) (n : Nat) (q : Int) : Bool :=
  match f.decode f.maxBits with
  | .num _ m e =>
    if e ≤ q then decide (m < n * 2 ^ (q - e).toNat) else decide (m * 2 ^ (e - q).toNat < n)
  | _ => false

/-- An overflowing result (R181). -/
def Fmt.overflow (f : Fmt) (mode : Mode) (neg : Bool) : Nat :=
  let toMax := match mode with
    | 1 => true
    | 2 => !neg
    | 3 => neg
    | _ => false
  if toMax then f.signBit neg + f.maxBits else f.infBits neg

/-- Round m × 2^e to the format: the bits and the flags (R180, R181, R184, R187). -/
def Fmt.round (f : Fmt) (mode : Mode) (u : Nat) (neg : Bool) (m : Nat) (e : Int) : Nat × Flags :=
  if m = 0 then (f.signBit neg, 0)
  else
    let t := topExp m e
    let emin : Int := 1 - (f.bias : Int)
    let q : Int := (if t < emin then emin else t) - f.mant
    let (n, inexact) := roundTo mode u neg m e q
    if f.exceeds n q then (f.overflow mode neg, flOF ||| flNX)
    else if !inexact then (f.pack neg n q, 0)
    else
      -- tininess after rounding with unbounded exponent; under SRN, of the neighbour that the draw
      -- selected (R79, R181, R184; notes/assumptions/34.md)
      let tiny := if mode = SRN then decide (topExp n q < emin)
        else decide (topExp (roundTo mode u neg m e (t - f.mant)).1 (t - f.mant) < emin)
      (f.pack neg n q, flNX ||| flIf tiny flUF)

/-- The bits and flags of an exact result: specials by R178 and R188, numbers rounded. -/
def Fmt.encode (f : Fmt) (mode : Mode) (u : Nat) : FVal → Nat × Flags
  | .nan s => (f.canon, flIf (s || f.kind == .finite) flIV)
  | .inf neg => (f.infBits neg, flIf (f.kind != .ieee) flIV)
  | .num neg m e => f.round mode u neg m e

/-- The lowest and highest value of an integer of `bits` bits (R179). -/
def intLo (signed : Bool) (bits : Nat) : Int := if signed then -(2 ^ (bits - 1) : Int) else 0
def intHi (signed : Bool) (bits : Nat) : Int :=
  if signed then 2 ^ (bits - 1) - 1 else 2 ^ bits - 1

/-- A value kept within a range. -/
def clampInt (lo hi v : Int) : Int := if v < lo then lo else if hi < v then hi else v

/-- Round to an integer in a range (R182). -/
def toInt (mode : Mode) (u : Nat) (lo hi : Int) : FVal → Int × Flags
  | .nan _ => (0, flIV)
  | .inf neg => (if neg then lo else hi, flIV)
  | .num neg m e =>
    let (n, inexact) := roundTo mode u neg m e 0
    let v : Int := if neg then -(n : Int) else n
    if v < lo then (lo, flIV) else if hi < v then (hi, flIV) else (v, flIf inexact flNX)

/-- An integer as an exact value. -/
def ofInt (v : Int) : FVal := .num (decide (v < 0)) v.natAbs 0

/-- The two's complement bits of an integer. -/
def intBits (bits : Nat) (v : Int) : Nat := (v % 2 ^ bits).toNat

/-- The integer that bits stand for. -/
def bitsInt (signed : Bool) (bits v : Nat) : Int :=
  if signed && decide (2 ^ (bits - 1) ≤ v) then (v : Int) - 2 ^ bits else v

/-! ### Exact arithmetic on values -/

def FVal.isNan : FVal → Bool
  | .nan _ => true
  | _ => false
def FVal.isSnan : FVal → Bool
  | .nan s => s
  | _ => false
def FVal.isZero : FVal → Bool
  | .num _ m _ => m == 0
  | _ => false
def FVal.isInf : FVal → Bool
  | .inf _ => true
  | _ => false
def FVal.neg : FVal → Bool
  | .nan _ => false
  | .inf n => n
  | .num n _ _ => n
def FVal.negate : FVal → FVal
  | .nan s => .nan s
  | .inf n => .inf !n
  | .num n m e => .num (!n) m e

/-- m × 2^e as a signed multiple of 2^q, q ≤ e. -/
def FVal.scaled (q : Int) : FVal → Int
  | .num n m e =>
    let v : Int := (m * 2 ^ (e - q).toNat : Nat)
    if n then -v else v
  | _ => 0

/-- The lowest exponent among finite values. -/
def minExp : List FVal → Int
  | [] => 0
  | [.num _ _ e] => e
  | .num _ _ e :: r => let q := minExp r; if e < q then e else q
  | _ :: r => minExp r

/-- An exact result with the flags found on the way (IV from an invalid operation is its own flag,
so that a NaN result keeps none of its signalling). -/
structure Ex where
  v : FVal
  fl : Flags := 0

/-- The exact product (R79, R190). -/
def exMul (a b : FVal) : Ex :=
  match a, b with
  | .nan s, b => { v := .nan false, fl := flIf (s || b.isSnan) flIV }
  | a, .nan s => { v := .nan false, fl := flIf (s || a.isSnan) flIV }
  | .inf n, b => if b.isZero then { v := .nan false, fl := flIV } else { v := .inf (n != b.neg) }
  | a, .inf n => if a.isZero then { v := .nan false, fl := flIV } else { v := .inf (n != a.neg) }
  | .num n m e, .num n' m' e' => { v := .num (n != n') (m * m') (e + e') }

/-- The exact sum of a list; a zero sum is −0 when every term is −0, or when `negZero` and the terms
do not agree, and +0 otherwise. -/
def exSum (negZero : Bool) (l : List FVal) : Ex :=
  if l.any FVal.isNan then { v := .nan false, fl := flIf (l.any FVal.isSnan) flIV }
  else if l.any (· == .inf true) && l.any (· == .inf false) then { v := .nan false, fl := flIV }
  else if l.any (· == .inf true) then { v := .inf true }
  else if l.any (· == .inf false) then { v := .inf false }
  else
    let q := minExp l
    let s := l.foldl (fun acc x => acc + x.scaled q) (0 : Int)
    if s = 0 then
      let neg := if l.all FVal.neg && !l.isEmpty then true
        else if l.all (fun x => x.isZero && !x.neg) then false else negZero
      { v := .zero neg }
    else { v := .num (decide (s < 0)) s.natAbs q }

/-- A zero sum of unlike signs is −0 in RDN (IEEE 754). -/
def zeroNeg (mode : Mode) : Bool := mode == 2

/-- Round an exact result. -/
def Fmt.finish (f : Fmt) (mode : Mode) (u : Nat) (x : Ex) : Nat × Flags :=
  let (b, fl) := f.encode mode u x.v
  (b, fl ||| x.fl)

def Fmt.add (f : Fmt) (mode : Mode) (u a b : Nat) : Nat × Flags :=
  f.finish mode u (exSum (zeroNeg mode) [f.decode a, f.decode b])

def Fmt.sub (f : Fmt) (mode : Mode) (u a b : Nat) : Nat × Flags :=
  f.finish mode u (exSum (zeroNeg mode) [f.decode a, (f.decode b).negate])

def Fmt.mul (f : Fmt) (mode : Mode) (u a b : Nat) : Nat × Flags :=
  f.finish mode u (exMul (f.decode a) (f.decode b))

/-- Sum exact products and terms, with one rounding. -/
def Fmt.dot (f : Fmt) (mode : Mode) (u : Nat) (ps : List Ex) (c : FVal) : Nat × Flags :=
  let s := exSum (zeroNeg mode) (ps.map (·.v) ++ [c])
  f.finish mode u { s with fl := s.fl ||| flAll (ps.map (·.fl)) }

def Fmt.fma (f : Fmt) (mode : Mode) (u a b c : Nat) : Nat × Flags :=
  f.dot mode u [exMul (f.decode a) (f.decode b)] (f.decode c)

/-- a below b, both finite or infinite; zeros of both signs are equal. -/
def FVal.lt (a b : FVal) : Bool :=
  match a, b with
  | .inf n, .inf n' => n && !n'
  | .inf n, _ => n
  | _, .inf n => !n
  | a, b => let q := minExp [a, b]; decide (a.scaled q < b.scaled q)

/-- minimumNumber and maximumNumber, with −0 < +0 (R78, R79). -/
def Fmt.minMax (f : Fmt) (isMax : Bool) (a b : Nat) : Nat × Flags :=
  let x := f.decode a
  let y := f.decode b
  let fl := flIf (x.isSnan || y.isSnan) flIV
  let r :=
    if x.isNan && y.isNan then f.canon
    else if x.isNan then b
    else if y.isNan then a
    else
      let xLess := x.lt y || (x.isZero && y.isZero && x.neg && !y.neg)
      if isMax then (if xLess then b else a) else (if xLess then a else b)
  (r, fl)

/-- The comparisons of `FSETP` (R80). -/
def fcompare (cc : Nat) (x y : FVal) : Bool :=
  let un := x.isNan || y.isNan
  let lt := !un && x.lt y
  let gt := !un && y.lt x
  let eq := !un && !lt && !gt
  match cc with
  | 0 => eq
  | 1 => !eq
  | 2 => lt
  | 3 => lt || eq
  | 4 => gt
  | 5 => gt || eq
  | 6 => un
  | _ => !un

/-! ### Reciprocals, roots, exponentials and logarithms (R79) -/

/-- Working bits below the binary point. -/
def workBits : Nat := 256

/-- ⌊√n⌋ by bits from bit `k` down. -/
def isqrtFrom (n : Nat) : Nat → Nat → Nat
  | 0, r => r
  | k + 1, r =>
    let t := r + 2 ^ k
    isqrtFrom n k (if t * t ≤ n then t else r)

def isqrt (n : Nat) : Nat := isqrtFrom n (Nat.log2 n / 2 + 1) 0

/-- A truncated magnitude n × 2^−k, with one more bit below it that says whether anything was cut. -/
def sticky (neg : Bool) (n : Nat) (cut : Bool) (k : Int) : FVal := .num neg (2 * n + b2n cut) (-k - 1)

def rcpVal (x : FVal) : Ex :=
  match x with
  | .nan s => { v := .nan false, fl := flIf s flIV }
  | .inf n => { v := .zero n }
  | .num n m e =>
    if m = 0 then { v := .inf n, fl := flDZ }
    else
      let k := workBits + Nat.log2 m
      { v := sticky n (2 ^ k / m) (2 ^ k % m != 0) (k + e) }

/-- A finite value with an even exponent. -/
def evenExp (m : Nat) (e : Int) : Nat × Int := if e % 2 = 0 then (m, e) else (2 * m, e - 1)

def sqrtVal (x : FVal) : Ex :=
  match x with
  | .nan s => { v := .nan false, fl := flIf s flIV }
  | .inf n => if n then { v := .nan false, fl := flIV } else { v := .inf false }
  | .num n m e =>
    if m = 0 then { v := .zero n }
    else if n then { v := .nan false, fl := flIV }
    else
      let (m, e) := evenExp m e
      let t := m * 2 ^ (2 * 64)
      let r := isqrt t
      { v := sticky false r (r * r != t) (64 - e / 2) }

def rsqVal (x : FVal) : Ex :=
  match x with
  | .nan s => { v := .nan false, fl := flIf s flIV }
  | .inf n => if n then { v := .nan false, fl := flIV } else { v := .zero false }
  | .num n m e =>
    if m = 0 then { v := .inf n, fl := flDZ }
    else if n then { v := .nan false, fl := flIV }
    else
      let (m, e) := evenExp m e
      let k := 64 + Nat.log2 m
      let t := 2 ^ (2 * k) / m
      let r := isqrt t
      { v := sticky false r (r * r != t || 2 ^ (2 * k) % m != 0) (k + e / 2) }

/-- ⌊ln 2 × 2^256⌋. -/
def ln2Fixed : Nat :=
  80260960185991308862233904206310070533990667611589946606122867505419956976171

/-- Σ y^i / i! from the term `t`, in fixed point. -/
def expSeries (y : Nat) : Nat → Nat → Nat → Nat → Nat
  | 0, _, _, acc => acc
  | n + 1, i, t, acc =>
    let t := t * y / 2 ^ workBits / i
    expSeries y n (i + 1) t (acc + t)

/-- 2^f in fixed point, for f in [0, 1) (notes/assumptions/30.md). -/
def exp2Frac (f : Nat) : Nat :=
  expSeries (f * ln2Fixed / 2 ^ workBits) 90 1 (2 ^ workBits) (2 ^ workBits)

def exp2Val (x : FVal) : Ex :=
  match x with
  | .nan s => { v := .nan false, fl := flIf s flIV }
  | .inf n => if n then { v := .zero false } else { v := .inf false }
  | .num n m e =>
    -- |x| in fixed point, kept within the exponents that any format reaches
    let a := if 0 ≤ e then m * 2 ^ (Int.toNat (if e < 20 then e else 20)) * 2 ^ workBits
             else m * 2 ^ workBits / 2 ^ (-e).toNat
    let a := Nat.min a (4000 * 2 ^ workBits)
    let x : Int := if n then -(a : Int) else a
    let k := x / 2 ^ workBits
    let f := (x % 2 ^ workBits).toNat
    if f = 0 then { v := .num false 1 k } else { v := sticky false (exp2Frac f) true (workBits - k) }

/-- Σ z^(2i+1) / (2i+1), in fixed point, from the power `p`. -/
def atanhSeries (z2 : Nat) : Nat → Nat → Nat → Nat → Nat
  | 0, _, _, acc => acc
  | n + 1, d, p, acc => atanhSeries z2 n (d + 2) (p * z2 / 2 ^ workBits) (acc + p / d)

/-- log₂ of m × 2^−k in [1, 2), in fixed point (30.md). -/
def log2Frac (m k : Nat) : Nat :=
  let z := (m - 2 ^ k) * 2 ^ workBits / (m + 2 ^ k)
  2 * atanhSeries (z * z / 2 ^ workBits) 90 1 z 0 * 2 ^ workBits / ln2Fixed

def log2Val (x : FVal) : Ex :=
  match x with
  | .nan s => { v := .nan false, fl := flIf s flIV }
  | .inf n => if n then { v := .nan false, fl := flIV } else { v := .inf false }
  | .num n m e =>
    if m = 0 then { v := .inf true, fl := flDZ }
    else if n then { v := .nan false, fl := flIV }
    else
      let k := Nat.log2 m
      let t := e + k
      if m = 2 ^ k then { v := ofInt t }
      else
        let l := log2Frac m k
        if 0 ≤ t then { v := sticky false (t.toNat * 2 ^ workBits + l) true workBits }
        else { v := sticky true ((-t).toNat * 2 ^ workBits - l - 1) true workBits }

/-! ### The generator (R183, R184) -/

/-- Seed the generator of index `l` from `sr.seed` (R183). -/
def seedGen (seed : W64) (l : Nat) : W32 :=
  let z := seed.extractLsb' 0 32 ^^^ seed.extractLsb' 32 32 ^^^ w32 (l * 0x9E3779B9)
  if z = 0 then 0x6D2B79F5 else z

/-- One draw: the new state (R184). -/
def drawGen (x : W32) : W32 :=
  let x := x ^^^ (x <<< 13)
  let x := x ^^^ (x >>> 17)
  x ^^^ (x <<< 5)

/-! ### Narrow formats (R83, R84, R179, R188, R189) -/

/-- The width of an element slot (R83). -/
def slotBits (fmt : Nat) : Nat :=
  match fmt with
  | 1 => 16 | 2 => 16 | 7 => 4 | 10 => 4 | 11 => 2 | _ => 8

/-- A T2 code's value; none is the reserved code (R179). -/
def t2Val (c : Nat) : Option Int :=
  match c with
  | 0 => some 0
  | 1 => some 1
  | 3 => some (-1)
  | _ => none

/-- The integer range of INT8, INT4 and T2 (R179). -/
def narrowRange (fmt : Nat) : Int × Int :=
  match fmt with
  | 9 => (-128, 127)
  | 10 => (-8, 7)
  | 8 => (-(2 ^ 31), 2 ^ 31 - 1)
  | _ => (-1, 1)

/-- Convert an exact value to a format code: the element's bits and the flags (R188). -/
def convertTo (fmt : Nat) (mode : Mode) (u : Nat) (x : FVal) : Nat × Flags :=
  match Fmt.ofCode fmt with
  | some f => f.encode mode u x
  | none =>
    let (lo, hi) := narrowRange fmt
    let (v, fl) := toInt mode u lo hi x
    (intBits (codeWidth fmt) v, fl)

/-- An s32 value saturated to INT8, INT4 or T2, without a flag (R188). -/
def narrowInt (fmt : Nat) (v : Int) : Nat :=
  let (lo, hi) := narrowRange fmt
  intBits (codeWidth fmt) (clampInt lo hi v)

/-- Widen an element to binary32 (R84, R189). -/
def widenF32 (fmt bits : Nat) : Nat × Flags :=
  match Fmt.ofCode fmt with
  | some f => binary32.encode RNE 0 (f.decode (bits % 2 ^ codeWidth fmt))
  | none =>
    if fmt = 11 then
      match t2Val (bits % 4) with
      | some v => binary32.encode RNE 0 (ofInt v)
      | none => (binary32.canon, flRSV)
    else binary32.encode RNE 0 (ofInt (bitsInt true (codeWidth fmt) (bits % 2 ^ codeWidth fmt)))

/-- Widen an INT8, INT4 or T2 element to s32 (R84). -/
def widenS32 (fmt bits : Nat) : Nat × Flags :=
  if fmt = 11 then
    match t2Val (bits % 4) with
    | some v => (intBits 32 v, 0)
    | none => (0, flRSV)
  else (intBits 32 (bitsInt true (codeWidth fmt) (bits % 2 ^ codeWidth fmt)), 0)

end Sys2Proof.Machine
end

