-- ==== Sys2Proof/Machine/Image.lean ====
section
/-! DEFINITION. The field image slot (R278-R284): what each part of a field's state is written as,
its write to the arena through the context's translation, and the reading of it at a resume. -/

namespace Sys2Proof.Machine
open Sys2Proof

/-- `n` bytes of an image that hold the value `v`. -/
structure Chunk where
  off : Nat
  n : Nat
  v : Nat

/-- One chunk, none when the value is 0 (the slot's ranges are cleared first). -/
def chunk (off n v : Nat) : List Chunk := if v = 0 then [] else [{ off := off, n := n, v := v }]

/-- Chunks of a map of 64-bit values, one every 8 bytes. -/
def mapChunks (base : Nat) (m : NMap W64) : List Chunk :=
  m.flatMap (fun (k, v) => chunk (base + 8 * k) 8 v.toNat)

/-- Chunks of a list, entry i at base + pitch × i. -/
def listChunks {α : Type} (f : α → Nat → List Chunk) (base pitch : Nat) : List α → List Chunk
  | [] => []
  | a :: r => f a base ++ listChunks f (base + pitch) pitch r

def Handshake.code : Handshake → Nat
  | .idle => 0 | .running => 1 | .held => 2

/-- `sr.rgn` (R281). -/
def Regs.rgn (r : Regs) : W64 :=
  w64 (r.rgnSeq.toNat * 2 ^ 56 + r.rgnEntry.toNat % 2 ^ 56 / 4 * 4)

/-- `sr.tcause` of a frame, without LEVEL (R237, R282). -/
def TFrame.causeWord (f : TFrame) : Nat :=
  f.cause.toNat + f.code.toNat * 2 ^ 16 + b2n f.src * 2 ^ 30

/-- The trap frame of a level (R237). -/
def Ctl.frame (c : Ctl) (level : Nat) : TFrame :=
  if level = 1 then c.f1 else if level = 2 then c.f2 else .zero

/-- The dword at 0x3C0: the four counters, the next batch number and LEVEL (R280). -/
def countersWord (w : Swath) : Nat :=
  w.eng.copies + w.eng.matrix * 2 ^ 8 + w.eng.gathers * 2 ^ 16 + w.eng.windows * 2 ^ 24
    + w.eng.nb.toNat * 2 ^ 32 + w.ctl.level * 2 ^ 48

/-- The header of a swath image (R280). -/
def headerChunks (w : Swath) : List Chunk :=
  let r := w.regs
  let m := w.meet
  let e := w.eng
  mapChunks 0 r.x ++ mapChunks 0x200 r.wS ++ mapChunks 0x280 r.wL ++ mapChunks 0x300 m.wG
    ++ chunk 0x380 8 r.pc.toNat ++ chunk 0x388 8 r.fmt.toNat ++ chunk 0x390 8 r.flags.toNat
    ++ chunk 0x398 8 r.seed.toNat ++ chunk 0x3A0 8 r.chk.toNat ++ chunk 0x3A8 8 r.rgn.toNat
    ++ chunk 0x3B0 8 (m.hs.code + b2n m.go * 4 + b2n m.fmtSet * 8 + b2n m.barsDone * 16
        + m.sig * 2 ^ 16 + m.wset.toNat * 2 ^ 32 + m.lwset.toNat * 2 ^ 48)
    ++ chunk 0x3B8 8 (m.issued.toNat + m.consumed.toNat * 2 ^ 32)
    ++ chunk 0x3C0 8 (countersWord w)
    ++ chunk 0x3C8 8 (e.mgen.toNat + e.stok.toNat * 2 ^ 32)
    ++ chunk 0x3D0 8 (e.fpA.off + e.fpA.fmt.toNat * 2 ^ 20 + e.fpS.off * 2 ^ 24
        + e.fpS.fmt.toNat * 2 ^ 44)
    ++ chunk 0x3D8 8 (e.tnA.off + b2n (e.tnA.fmt != 15) * 2 ^ 20 + e.tnS.off * 2 ^ 24
        + b2n (e.tnS.fmt != 15) * 2 ^ 44)
    ++ m.lwstamp.flatMap (fun (n, v) => chunk (0x3E0 + 2 * n) 2 v.toNat)

def FWait.code : FWait → Nat
  | .join => 1 | .bars _ => 2 | _ => 0

/-- A fragment record (R138, R282). -/
def fragChunks (f : Option Frag) (base : Nat) : List Chunk :=
  match f with
  | none => []
  | some f =>
    chunk base 128 f.mask.toNat ++ chunk (base + 0x80) 4 (summary f.mask).toNat
      ++ chunk (base + 0x84) 4 f.pc.toNat ++ chunk (base + 0x88) 4 f.rpc.toNat
      ++ chunk (base + 0x8C) 4 (1 + f.wait.code * 2 + b2n f.held * 8 + b2n f.pend * 16)
      ++ chunk (base + 0x90) 8 f.fmt.toNat ++ chunk (base + 0x98) 8 f.rfmt.toNat
      ++ chunk (base + 0xA0) 4 f.tok.toNat

/-- A trap frame (R282). -/
def frameChunks (f : TFrame) (base : Nat) : List Chunk :=
  chunk base 8 f.causeWord ++ chunk (base + 8) 8 f.tpc.toNat ++ chunk (base + 0x10) 8 f.tva.toNat
    ++ chunk (base + 0x18) 8 f.tlpc.toNat

def EntKind.code : EntKind → Nat
  | .dual => 1 | .first => 5 | .second => 9 | .trap l => 2 + 4 * l

/-- A stack entry (R129). -/
def entChunks (e : StackEnt) (base : Nat) : List Chunk :=
  chunk base 128 e.mask.toNat ++ chunk (base + 0x80) 4 (summary e.mask).toNat
    ++ chunk (base + 0x84) 4 e.jpc.toNat ++ chunk (base + 0x88) 4 e.apc.toNat
    ++ chunk (base + 0x8C) 4 (e.kind.code + b2n e.nest * 16 + b2n e.arm * 32 + b2n e.abars * 64
        + b2n e.heldArm * 128 + b2n e.conv * 256)
    ++ chunk (base + 0x90) 8 e.jfmt.toNat ++ chunk (base + 0x98) 8 e.afmt.toNat
    ++ chunk (base + 0xA0) 4 e.atok.toNat

/-- A matrix queue entry (R283). -/
def matChunks (o : MatOp) (base : Nat) : List Chunk :=
  chunk base 8 (o.kind + o.tile * 16 + o.prog * 2 ^ 8 + o.batch.toNat * 2 ^ 16
      + b2n o.closed * 2 ^ 32)
    ++ chunk (base + 8) 8 o.fmt.toNat ++ chunk (base + 0x10) 8 (o.gen.toNat + o.src * 2 ^ 32)
    ++ listChunks (fun (v : W64) a => chunk a 8 v.toNat) (base + 0x20) 8 o.desc

/-- The packed iteration counts, innermost loop first. -/
def packLoops : List Nat → Nat
  | [] => 0
  | j :: r => j % 2 ^ 16 + 2 ^ 16 * packLoops r

/-- The loops whose body holds the current entry, innermost first. -/
def Chain.inLoops (c : Chain) : List LoopAt :=
  sortBy (fun a b => decide (b.start ≤ a.start)) (c.loops.filter (fun l => l.start ≤ c.cur && c.cur ≤ l.off))

/-- A chain state (R283). -/
def chainChunks (c : Chain) (base : Nat) : List Chunk :=
  chunk base 8 (c.cur + c.inLoops.length * 2 ^ 32)
    ++ chunk (base + 8) 8 (packLoops (c.inLoops.map (·.j)))
    ++ chunk (base + 0x10) 8 (c.i1 + c.i2 * 2 ^ 32) ++ chunk (base + 0x18) 8 (1 + 2 * b2n c.done)

/-- The state of the generator of lane `l` (R183). -/
def Engines.laneGen (e : Engines) (l : Nat) : W32 := (mget e.lgen l).getD (seedGen e.lseed l)

/-- A swath image (R279). The line of k0 at 0x8800 holds 0, as the slot of x0 does
(notes/assumptions/164.md). -/
def swathChunks (w : Swath) : List Chunk :=
  headerChunks w ++ fragChunks w.lanes.f0 0x400 ++ fragChunks w.lanes.f1 0x500
    ++ frameChunks w.ctl.f1 0x600 ++ frameChunks w.ctl.f2 0x640
    ++ listChunks matChunks 0x800 64 w.eng.mq ++ listChunks chainChunks 0x4800 64 w.eng.chains
    ++ w.regs.k.flatMap (fun (n, m) => chunk (0x8800 + 128 * n) 128 m.toNat)
    ++ (List.range (32 * w.ng)).flatMap (fun l => chunk (0x9000 + 4 * l) 4 (w.eng.laneGen l).toNat)
    ++ listChunks entChunks 0xA000 256 w.lanes.stack
    ++ w.regs.v.flatMap (fun (key, v) =>
        let n := key / 1024
        let l := key % 1024
        chunk (0xE000 + 128 * (n * w.ng + l / 32) + 4 * (l % 32)) 4 v.toNat)

/-- The size of a swath image (R279). -/
def imageSize (vregs ng : Nat) : Nat := 0xE000 + 128 * vregs * ng

/-- Z′ of a launch: its largest swath image, to a multiple of 4,096 (R278). -/
def LaunchRec.zPrime (r : LaunchRec) : Nat :=
  let counts := r.roles.map (·.1)
  let v := if counts.all (· == 0) then r.vregs
    else (r.roles.filter (fun (c, _) => c != 0)).foldl (fun m (_, n) => Nat.max m n) 0
  (imageSize v r.lanes + 4095) / 4096 * 4096

/-- The size of a field image slot (R278). -/
def LaunchRec.slotSize (r : LaunchRec) : Nat := 0x14_1000 + r.swaths * r.zPrime

def FStatus.code : FStatus → Nat
  | .resident => 0 | .swapped => 1 | .faulted => 2 | .ended => 3

/-- The field header (R278). -/
def fieldChunks (f : Field) : List Chunk :=
  chunk 0 8 (f.status.code + 4 * b2n f.ready) ++ chunk 8 8 (f.tiles + f.scrKib * 2 ^ 16)
    ++ listChunks (fun (b : Bar) a =>
        chunk a 8 (b.expected + b.pending * 2 ^ 12 + b2n b.phase * 2 ^ 24)) 0x10 8 f.bars

/-- Every chunk of a field's slot, and the ranges that it covers. -/
def slotChunks (r : LaunchRec) (f : Field) : List Chunk :=
  let sh (d : Nat) (l : List Chunk) := l.map (fun (c : Chunk) => { c with off := c.off + d })
  fieldChunks f
    ++ (f.spad.filter (fun c => c.1 < f.scrKib * 1024)).map
        (fun c => { off := 0x1000 + c.1, n := 1, v := c.2.toNat })
    ++ f.acc.flatMap (fun (i, v) => chunk (0x10_1000 + 4 * i) 4 v.toNat)
    ++ f.sws.flatMap (fun (i, w) => sh (0x14_1000 + r.zPrime * i) (swathChunks w))

def slotRanges (r : LaunchRec) (f : Field) : List (Nat × Nat) :=
  [(0, 0x1000), (0x1000, f.scrKib * 1024), (0x10_1000, 16384 * f.tiles)]
    ++ f.sws.map (fun (i, w) => (0x14_1000 + r.zPrime * i, imageSize w.vregs w.ng))

/-! ### The arena in memory -/

/-- The gateway number of a die's own accesses: reporting ports, agents, distributors. -/
def diePort (die : Nat) : Nat := 32 + die

/-- The frame that holds a pool DPA's unit, if it was CLEAN, is DIRTY (R271). -/
def State.soil (s : State) (dpa : Nat) : State :=
  match (if (dregion dpa).tag = 3 then presentFrame s (dpa / 65536) else none) with
  | some f =>
    let e := s.frame f
    if e.role == .cache && e.st == .clean then s.setFrame f { e with st := .dirty } else s
  | none => s

/-- Zero `n` bytes of whole lines of a unit, from its line `i`, at a pool address (R405). -/
def State.poolClear (s : State) (pa n : Nat) (k : Option UnitKey) (i : Nat) : State :=
  match k with
  | none => { s with pool := s.pool.zero pa n }
  | some _ => (List.range (n / 128)).foldl (fun s j =>
      s.poolWrite (pa + 128 * j) k (i + j) (BitVec.allOnes 128) 0) s

/-- Clear `n` bytes of whole lines at a DPA, within one unit. -/
def State.clearAt (s : State) (dpa n : Nat) : State :=
  match locate s dpa with
  | .mem a => { s with mem := s.mem.zero a n }.soil dpa
  | .pool node a =>
    let k := unitKey s (dpa / 65536)
    let s := s.poolClear (poolAddr node a) n k (dpa / 128 % 512)
    match secondHome s dpa with
    | some pa => s.poolClear pa n k (dpa / 128 % 512)
    | none => s
  | .nowhere => s

/-- The lines of `[dpa, dpa + n)` that are poisoned (R333). -/
def poisonedIn (s : State) (dpa n : Nat) : Option Nat :=
  s.poisoned.find? (fun l => decide (dpa / 128 ≤ l) && decide (l * 128 < dpa + n))

/-- Lines that are written whole are poisoned no longer (R333). -/
def State.mend (s : State) (dpa n : Nat) : State :=
  { s with poisoned := s.poisoned.filter (fun l => !(decide (dpa / 128 ≤ l) && decide (l * 128 < dpa + n))) }

/-- Write a chunk at a DPA, within one line. -/
def State.putAt (s : State) (dpa n v : Nat) : State :=
  match locate s dpa with
  | .mem a => { s with mem := s.mem.wrN a n v }.soil dpa
  | .pool _ _ =>
    s.poolWriteDpa (dpa / 128 * 128) (byteMask (dpa % 128) n) (lineWith (dpa % 128) v n)
  | .nowhere => s

/-- Translate an access that the device makes for a context (R264). -/
def forContext (s : State) (die ctx va : Nat) (wr : Bool) (whole : Bool := false) : Except XErr Xl :=
  translate s (diePort die) ctx va { rd := !wr, wr := wr, ex := false, super := false,
                                     ignoreS := true, whole := whole }

/-- The units that `[a, a + n)` overlaps. -/
def unitsOf (a n : Nat) : List Nat :=
  if n = 0 then [] else (List.range ((a + n - 1) / 65536 - a / 65536 + 1)).map (· + a / 65536)

/-- The part of `[a, a + n)` in a unit. -/
def clipUnit (u a n : Nat) : Nat × Nat :=
  let lo := Nat.max a (u * 65536)
  (lo, Nat.min (a + n) ((u + 1) * 65536) - lo)

/-- The DPA of every unit of the arena that a slot's ranges touch, or the first error and its VA. A line that
is read must not be poisoned, and one that is written is written whole (R285, R333). -/
def arenaMap (s : State) (die ctx va : Nat) (wr : Bool) :
    List (Nat × Nat) → Except (XErr × Nat) (NMap Nat)
  | [] => .ok []
  | (o, n) :: rest =>
    match arenaMap s die ctx va wr rest with
    | .error e => .error e
    | .ok m =>
      (unitsOf (va + o) n).foldl (fun acc u =>
        match acc with
        | .error e => .error e
        | .ok m =>
          let (lo, k) := clipUnit u (va + o) n
          let readable (dpa : Nat) : Except (XErr × Nat) (NMap Nat) :=
            match (if wr then none else poisonedIn s (dpa + lo % 65536) k) with
            | some l => .error ({ cause := .poisoned, dpa := l * 128 }, u * 65536 + l * 128 % 65536)
            | none => .ok (mput m u dpa)
          match mget m u with
          | some dpa => readable dpa
          | none =>
            match forContext s die ctx (u * 65536) wr wr with
            | .error e => .error (e, u * 65536)
            | .ok xl => readable xl.dpa) (.ok m)

/-- Write a field's slot (R284). -/
def State.storeSlot (s : State) (die ctx va : Nat) (r : LaunchRec) (f : Field) :
    Except (XErr × Nat) State :=
  match arenaMap s die ctx va true (slotRanges r f) with
  | .error e => .error e
  | .ok m =>
    let clear (s : State) (o n : Nat) :=
      (unitsOf (va + o) n).foldl (fun s u =>
        let (a, k) := clipUnit u (va + o) n
        (s.clearAt (mgetD m u 0 + a % 65536) k).mend (mgetD m u 0 + a % 65536) k) s
    let s := (slotRanges r f).foldl (fun s (o, n) => clear s o n) s
    .ok ((slotChunks r f).foldl (fun s c =>
      s.putAt (mgetD m ((va + c.off) / 65536) 0 + (va + c.off) % 65536) c.n c.v) s)

/-- A write of a slot waits: the host holds half lines of the slot, which are asked for (R284, R328). -/
def slotHold (s : State) (die ctx va : Nat) (r : LaunchRec) (f : Field) : Option State :=
  match arenaMap s die ctx va true (slotRanges r f) with
  | .error _ => none
  | .ok m => linesHold s ((s.dir.filter (fun (l, _) => m.any (fun (_, d) => d / 65536 == l / 512))).map
      (fun (l, _) => (l, BitVec.allOnes 128)))

/-- `n` bytes of whole and partial lines at a DPA as the home reads them. -/
def homeBytes (s : State) (dpa n : Nat) : Nat :=
  (List.range ((dpa % 128 + n + 127) / 128)).foldl (fun v i =>
    v + (homeLine s ((dpa / 128 + i) * 128)).toNat * 2 ^ (1024 * i)) 0 / 2 ^ (8 * (dpa % 128)) % 2 ^ (8 * n)

/-- Read `n` bytes of a slot. -/
def slotRd (s : State) (m : NMap Nat) (va off n : Nat) : Nat :=
  let dpa := mgetD m ((va + off) / 65536) 0 + (va + off) % 65536
  match locate s dpa with
  | .mem a => s.mem.rdN a n
  | .pool _ _ => homeBytes s dpa n
  | .nowhere => 0

/-! ### Reading an image at a resume (R284) -/

def optMap (n : Nat) (rd : Nat → Nat) : NMap W64 :=
  (List.range n).filterMap (fun i => if rd i = 0 then none else some (i, w64 (rd i)))

/-- A fragment record; an error for a reserved value. -/
def readFrag (rd : Nat → Nat → Nat) (base : Nat) (old : Option Frag) :
    Option (Option Frag) :=
  let fl := rd (base + 0x8C) 4
  let bar := match old.map (·.wait) with
    | some (.bars b) => b
    | _ => 0
  if fl % 2 = 0 then some none
  else
    let wait := fl / 2 % 4
    if wait = 3 || 32 ≤ fl || !fmtOk (w64 (rd (base + 0x90) 8)) || !fmtOk (w64 (rd (base + 0x98) 8))
    then none
    else some (some
      { mask := BitVec.ofNat 1024 (rd base 128), pc := w32 (rd (base + 0x84) 4),
        rpc := w32 (rd (base + 0x88) 4), fmt := w64 (rd (base + 0x90) 8),
        rfmt := w64 (rd (base + 0x98) 8), tok := w32 (rd (base + 0xA0) 4),
        wait := (if wait = 1 then .join else if wait = 2 then .bars bar else .ready),
        held := fl / 8 % 2 == 1, pend := fl / 16 % 2 == 1,
        pendAt := (old.map (·.pendAt)).getD 0,
        endPc := old.bind (·.endPc), sb := [], rset := [], passed := 0, aged := none,
        born := (old.map (·.born)).getD 0 })

/-- The kind of an entry from KIND and STATE (R129); none for a reserved code. -/
def entKind (kind st : Nat) : Option EntKind :=
  match kind, st with
  | 1, 0 => some .dual
  | 1, 1 => some .first
  | 1, 2 => some .second
  | 2, 1 => some (.trap 1)
  | 2, 2 => some (.trap 2)
  | _, _ => none

/-- Every field of an entry that its kind reserves is 0, and its formats are legal (R129). ATOK and ABARS of a
DUAL or TRAP entry may hold any value (notes/assumptions/159.md). -/
def entOk (rd : Nat → Nat → Nat) (base : Nat) (k : EntKind) : Bool :=
  let fl := rd (base + 0x8C) 4
  let held := k == .first || k == .second
  decide (fl < 512) && fmtOk (w64 (rd (base + 0x90) 8))
    && (if held then fmtOk (w64 (rd (base + 0x98) 8)) else rd (base + 0x98) 8 == 0)
    && (k == .first || rd (base + 0x88) 4 == 0)
    && (fl / 16 % 2 == 1 || fl / 32 % 2 == 0)
    && (held || (fl / 128 % 2 == 0 && fl / 256 % 2 == 0))
    && rd (base + 0xA4) 0x5C == 0

/-- A stack entry: none ends the stack; an error for a reserved value. -/
def readEnt (rd : Nat → Nat → Nat) (base : Nat) (old : Option StackEnt) : Option (Option StackEnt) :=
  let fl := rd (base + 0x8C) 4
  if fl % 4 = 0 then some none
  else match entKind (fl % 4) (fl / 4 % 4) with
    | none => none
    | some k =>
      if !entOk rd base k then none
      else some (some
        { mask := BitVec.ofNat 1024 (rd base 128), jpc := w32 (rd (base + 0x84) 4),
          apc := w32 (rd (base + 0x88) 4), kind := k, nest := fl / 16 % 2 == 1,
          arm := fl / 32 % 2 == 1, abars := fl / 64 % 2 == 1, hbar := old.bind (·.hbar), endPc := old.bind (·.endPc),
          born := (old.map (·.born)).getD 0, held := (old.map (·.held)).getD false,
          heldArm := fl / 128 % 2 == 1,
          conv := fl / 256 % 2 == 1, jfmt := w64 (rd (base + 0x90) 8),
          afmt := w64 (rd (base + 0x98) 8), atok := w32 (rd (base + 0xA0) 4) })

def readStack (rd : Nat → Nat → Nat) : List StackEnt → Nat → Nat → Option (List StackEnt)
  | _, _, 0 => some []
  | old, base, n + 1 =>
    match readEnt rd base old.head? with
    | none => none
    | some none => some []
    | some (some e) => (readStack rd old.tail (base + 256) n).map (e :: ·)

/-- A trap frame; it keeps which `BARS` it interrupted (notes/assumptions/38.md). -/
def readTFrame (rd : Nat → Nat → Nat) (base : Nat) (old : TFrame) : TFrame :=
  let c := w64 (rd base 8)
  { cause := BitVec.ofNat 16 (fld c 15 0), code := BitVec.ofNat 11 (fld c 26 16),
    src := bitAt c 30, tpc := w64 (rd (base + 8) 8), tva := w64 (rd (base + 0x10) 8),
    tlpc := w32 (rd (base + 0x18) 8), bars := old.bars }

/-- A trap frame of a level that is entered holds no reserved value (R237, R286). -/
def tframeOk (rd : Nat → Nat → Nat) (base : Nat) : Bool :=
  let c := w64 (rd base 8)
  (fld c 15 0 == Cause.software.code.toNat || fld c 15 0 == Cause.firstTouch.code.toNat)
    && fld c 29 27 == 0 && fld c 63 31 == 0 && rd (base + 8) 8 % 4 == 0
    && decide (rd (base + 0x18) 8 < 2 ^ 32)

/-- Update the entries of the matrix queue from the image, entry by entry. -/
def readMats (rd : Nat → Nat → Nat) : Nat → List MatOp → Option (List MatOp)
  | _, [] => some []
  | base, o :: r =>
    let h := w64 (rd base 8)
    let fmt := w64 (rd (base + 8) 8)
    let kind := fld h 3 0
    if kind = 0 || 9 ≤ kind || !fmtOk fmt || fld h 63 33 ≠ 0 || 2 ^ 52 ≤ rd (base + 0x10) 8 then none
    else (readMats rd (base + 64) r).map
      ({ o with kind := kind, tile := fld h 7 4, prog := fld h 15 8,
                batch := BitVec.ofNat 16 (fld h 31 16), closed := bitAt h 32, fmt := fmt,
                gen := w32 (rd (base + 0x10) 4), src := rd (base + 0x14) 4 % 2 ^ 20,
                desc := (List.range 4).map (fun i => w64 (rd (base + 0x20 + 8 * i) 8)) } :: ·)

def readChains (rd : Nat → Nat → Nat) : Nat → List Chain → Option (List Chain)
  | _, [] => some []
  | base, c :: r =>
    let h := w64 (rd base 8)
    let v := rd (base + 0x18) 8
    if 4 < fld h 34 32 || fld h 63 35 ≠ 0 || v % 2 = 0 || 4 ≤ v || 2 ^ 48 ≤ rd (base + 0x10) 8 then none
    else (readChains rd (base + 64) r).map
      ({ c with cur := fld h 31 0,
                entry := if fld h 31 0 = c.cur then c.entry else none,
                idx := if fld h 31 0 = c.cur then c.idx else [],
                loops := c.loops.map (fun l =>
                  match c.inLoops.findIdx? (fun m => m.off == l.off) with
                  | some i => { l with j := rd (base + 8 + 2 * i) 2 }
                  | none => l),
                i1 := rd (base + 0x10) 4, i2 := rd (base + 0x14) 2,
                done := v / 2 % 2 == 1 } :: ·)

/-- Bytes of one row of 64 elements of a format; of 128 for T2. -/
def rowBytes : Nat → Nat
  | 0 => 256 | 1 => 128 | 2 => 128 | 7 => 32 | 8 => 256 | 10 => 32 | 11 => 32 | _ => 64

/-- Bytes of a plane of a format. -/
def planeBytes (fmt : Nat) : Nat := rowBytes fmt * (if fmt = 11 then 128 else 64)

/-- A plane as the header names it: kept when unchanged, read again from its source in the scratchpad
otherwise (R147). -/
def readPlane (spad : Mem) (old : Plane) (off fmt : Nat) : Plane :=
  if old.off = off && old.fmt.toNat = fmt then old
  else { off := off, fmt := BitVec.ofNat 4 fmt,
         img := if fmt = 15 then [] else spad.slice off (planeBytes fmt) 0 }

/-- The codes of a weight plane's format: those of `MLOAD.fp`, and 15 for none (R149, R280). -/
def planeFmtOk (fmt : Nat) : Bool := decide (1 ≤ fmt && fmt ≤ 7) || fmt == 15

/-- The reserved bits and the limits of a swath's header (R280, R281). -/
def headerOk (rd : Nat → Nat → Nat) (w : Swath) : Bool :=
  let q (o : Nat) := w64 (rd o 8)
  let hs := q 0x3B0
  let cn := q 0x3C0
  let level := fld cn 49 48
  rd 0 8 == 0 && fld (q 0x380) 1 0 == 0 && fmtOk (q 0x388) && fld (q 0x390) 63 7 == 0
    && fld (q 0x3A0) 63 2 == 0 && fld (q 0x3A8) 1 0 == 0 && fld hs 1 0 != 3 && fld hs 15 5 == 0
    && fld cn 63 50 == 0 && level != 3
    -- as many operations and chains as the queue and the chain states hold
    && fld cn 15 8 == w.eng.matrix && fld cn 7 0 == w.eng.copies
    && fld (q 0x3D0) 63 48 == 0 && planeFmtOk (fld (q 0x3D0) 23 20) && planeFmtOk (fld (q 0x3D0) 47 44)
    && fld (q 0x3D8) 23 21 == 0 && fld (q 0x3D8) 63 45 == 0
    && (level == 0 || tframeOk rd 0x600) && (decide (level < 2) || tframeOk rd 0x640)
    -- a generator is never 0 (R183)
    && rd 0x3C8 4 != 0 && (List.range (32 * w.ng)).all (fun l => rd (0x9000 + 4 * l) 4 != 0)

/-- The header's format code of a ternary plane: T2 when it is loaded. -/
def ternFmt (loaded : Bool) : Nat := if loaded then 11 else 15

/-- Read a swath image; none for a reserved value in a live part (R284). The gather and window counters
are the device's own counts of what it still carries out. -/
def readSwath (rd : Nat → Nat → Nat) (spad : Mem) (w : Swath) : Option Swath :=
  let q (o : Nat) := w64 (rd o 8)
  let hs := q 0x3B0
  let cn := q 0x3C0
  let level := fld cn 49 48
  match readFrag rd 0x400 w.lanes.f0, readFrag rd 0x500 w.lanes.f1, readStack rd w.lanes.stack 0xA000 64,
      readMats rd 0x800 w.eng.mq, readChains rd 0x4800 w.eng.chains with
  | some f0, some f1, some stack, some mq, some chains =>
    if !headerOk rd w then none
    else some { w with
      regs := { w.regs with
        x := optMap 64 (fun i => rd (8 * i) 8), wS := optMap 16 (fun i => rd (0x200 + 8 * i) 8),
        wL := optMap 16 (fun i => rd (0x280 + 8 * i) 8),
        k := (List.range 16).filterMap (fun n =>
          let v := rd (0x8800 + 128 * n) 128
          if v = 0 then none else some (n, BitVec.ofNat 1024 v)),
        v := (List.range w.vregs).flatMap (fun n =>
          (List.range (32 * w.ng)).filterMap (fun l =>
            let v := rd (0xE000 + 128 * (n * w.ng + l / 32) + 4 * (l % 32)) 4
            if v = 0 then none else some (n * 1024 + l, w32 v))),
        pc := q 0x380, fmt := q 0x388, flags := (q 0x390).setWidth 7, seed := q 0x398,
        chk := (q 0x3A0).setWidth 2, rgnEntry := w64 (fld (q 0x3A8) 55 2 * 4),
        rgnSeq := BitVec.ofNat 8 (fld (q 0x3A8) 63 56) },
      meet := { w.meet with
        hs := (match fld hs 1 0 with | 0 => .idle | 1 => .running | _ => .held),
        go := bitAt hs 2, fmtSet := bitAt hs 3, barsDone := bitAt hs 4, barsPc := q 0x380,
        sig := fld hs 31 16,
        wset := BitVec.ofNat 16 (fld hs 47 32), lwset := BitVec.ofNat 16 (fld hs 63 48),
        wG := optMap 16 (fun i => rd (0x300 + 8 * i) 8), issued := w32 (rd 0x3B8 4),
        consumed := w32 (rd 0x3BC 4),
        lwstamp := (List.range 16).filterMap (fun n =>
          let v := rd (0x3E0 + 2 * n) 2
          if v = 0 then none else some (n, BitVec.ofNat 16 v)) },
      ctl := { w.ctl with level := level, f1 := readTFrame rd 0x600 w.ctl.f1,
                          f2 := readTFrame rd 0x640 w.ctl.f2 },
      eng := { w.eng with
        nb := BitVec.ofNat 16 (fld cn 47 32), mgen := w32 (rd 0x3C8 4), stok := w32 (rd 0x3CC 4),
        lgen := (List.range (32 * w.ng)).map (fun l => (l, w32 (rd (0x9000 + 4 * l) 4))),
        fpA := readPlane spad w.eng.fpA (fld (q 0x3D0) 19 0) (fld (q 0x3D0) 23 20),
        fpS := readPlane spad w.eng.fpS (fld (q 0x3D0) 43 24) (fld (q 0x3D0) 47 44),
        tnA := readPlane spad w.eng.tnA (fld (q 0x3D8) 19 0) (ternFmt (bitAt (q 0x3D8) 20)),
        tnS := readPlane spad w.eng.tnS (fld (q 0x3D8) 43 24) (ternFmt (bitAt (q 0x3D8) 44)),
        mq := mq, chains := chains },
      lanes := { w.lanes with f0 := f0, f1 := f1, stack := stack } }
  | _, _, _, _, _ => none

/-- The bytes that `[off, off + n)` of a slot lists, by their offset in that range. -/
def sliceSlot (s : State) (m : NMap Nat) (va off n : Nat) : Mem :=
  (unitsOf (va + off) n).flatMap (fun u =>
    let (a, k) := clipUnit u (va + off) n
    let dpa := mgetD m u 0 + a % 65536
    match locate s dpa with
    | .mem b => s.mem.slice b k (a - (va + off))
    | .pool _ _ =>
      (Mem.wrList [] 0 (leBytes k (homeBytes s dpa k))).map (fun c => (c.1 + (a - (va + off)), c.2))
    | .nowhere => [])

/-- Bytes as 32-bit elements. -/
def wordsOf (m : Mem) : NMap W32 :=
  m.foldl (fun acc c =>
    mput acc (c.1 / 4) (mgetD acc (c.1 / 4) 0 ||| w32 (c.2.toNat * 256 ^ (c.1 % 4)))) []

/-- The reserved bits and the limits of a field header with `b` barriers (R278). -/
def fieldHeadOk (rd : Nat → Nat → Nat) (b : Nat) : Bool :=
  let held := w64 (rd 8 8)
  decide (rd 0 8 < 8) && decide (fld held 4 0 ≤ 16) && decide (fld held 26 16 ≤ 1024)
    && fld held 15 5 == 0 && fld held 63 27 == 0
    && (List.range b).all (fun i => decide (rd (0x10 + 8 * i) 8 < 2 ^ 25))
    && rd (0x10 + 8 * b) (0x1000 - 0x10 - 8 * b) == 0

/-- Read a field's slot into the field; where it holds a reserved value, the swath whose image does, or
the first one for the header (R284). -/
def readField (s : State) (m : NMap Nat) (va : Nat) (r : LaunchRec) (f : Field) : Except Nat Field :=
  let rd := slotRd s m va
  let held := w64 (rd 8 8)
  let tiles := fld held 4 0
  let kib := fld held 26 16
  if !fieldHeadOk rd f.bars.length then .error ((f.sws.head?.map (·.1)).getD 0)
  else
    let spad := sliceSlot s m va 0x1000 (kib * 1024)
    let sws := f.sws.map (fun (i, w) =>
      (i, readSwath (fun o n => rd (0x14_1000 + r.zPrime * i + o) n) spad w))
    match sws.find? (fun (_, w) => w.isNone) with
    | some (i, _) => .error i
    | none => .ok { f with
      tiles := tiles, scrKib := kib, spad := spad,
      acc := wordsOf (sliceSlot s m va 0x10_1000 (16384 * tiles)),
      bars := (List.range f.bars.length).map (fun b =>
        let v := w64 (rd (0x10 + 8 * b) 8)
        { expected := fld v 11 0, pending := fld v 23 12, phase := bitAt v 24 }),
      sws := sws.filterMap (fun (i, w) => w.map (i, ·)) }

end Sys2Proof.Machine
end

