-- ==== Sys2Proof/Machine/Observe.lean ====
section
/-! DEFINITION. The log of a counter bank: what is appended, when it is lost, and the order that a
replay keeps (R423-R425). -/

namespace Sys2Proof.Machine
open Sys2Proof

/-- A kind that TRACE logs; the others are RECORD's (R423). -/
def traceKind (kind : Nat) : Bool := decide (kind < 16)

/-- The first dword of a record: KIND, and the coordinates shifted left by 8 within bits [48:8]. -/
def logHead (kind : Nat) (coords : W64) : W64 := w64 (kind + coords.toNat % 2 ^ 41 * 256)

/-- The records that the log of a bank holds. -/
def Bank.room (b : Bank) : Nat := 2 ^ b.logSz

/-- A record that is not written: the first one is noted (R424). -/
def Bank.lost (b : Bank) (seq : Nat) : Bank :=
  if b.nr then b else { b with nr := true, nrseq := seq }

/-- Append a record of a loggable event of context `c`; SEQ counts it whether or not it is written. -/
def State.logEvent (s : State) (die c kind : Nat) (coords p0 p1 : W64) : State :=
  match s.bankOf c with
  | none => s
  | some b =>
    if !(if traceKind kind then b.trace else b.record || b.replay) then s
    else
      let n := b.logSeq
      let b := { b with logSeq := n + 1 }
      let lost := s.setBank (s.bankNo c) (b.lost n)
      if b.room ≤ n then lost
      else match forContext s die c ((b.logBase.toNat + 32 * n) % 2 ^ 64) true with
        | .error _ => lost
        | .ok xl =>
          let words := (logHead kind coords).toNat + n % 2 ^ 64 * 2 ^ 64 + p0.toNat * 2 ^ 128 + p1.toNat * 2 ^ 192
          (s.setBank (s.bankNo c) b).deviceWrite
            { line := xl.dpa / 128, mask := byteMask (xl.dpa % 128) 32,
              data := lineWith (xl.dpa % 128) words 32, bank := some (s.bankNo c) }

/-- A record of the log, as it stands in memory. -/
def logRecord (s : State) (die c : Nat) (b : Bank) (n : Nat) : List W64 :=
  (List.range 4).map (fun i =>
    match forContext s die c ((b.logBase.toNat + 32 * n + 8 * i) % 2 ^ 64) false with
    | .ok xl => w64 (homeRd s xl.dpa 8)
    | .error _ => 0)

/-- What a replay says of an event before it is performed (R425): it goes on, and which outcome its
record holds; an event of lower SEQ comes first; the log does not hold it. -/
inductive Gate
  | go (outcome : Option W64)
  | hold
  | stop
  deriving DecidableEq, Repr

/-- The next record of a replay; none where nothing is replayed, or past the log. -/
def replayNext (s : State) (die c : Nat) : Option (List W64) :=
  match s.bankOf c with
  | some b => if !b.replay || b.room ≤ b.logSeq then none else some (logRecord s die c b b.logSeq)
  | none => none

/-- Look an event up in the log: the next record, or a later one. -/
def replayGate (s : State) (die c kind : Nat) (coords p0 : W64) : Gate :=
  match s.bankOf c with
  | none => .go none
  | some b =>
    let names (r : List W64) : Bool := r.getD 0 0 == logHead kind coords && r.getD 2 0 == p0
    let n := b.logSeq
    if !b.replay || b.room ≤ n then .go none
    else
      let r := logRecord s die c b n
      if names r then .go (some (r.getD 3 0))
      else if (List.range (b.room - n)).any (fun k => names (logRecord s die c b (n + k))) then .hold
      else .stop

end Sys2Proof.Machine
end

