-- ==== Sys2Proof/Machine/Ops.lean ====
section
/-! DEFINITION. Parties and the swaths behind them, what the device sends and logs, fault rings,
service records, and the ladder: taking a vectoring event, parking, terminal faults (R237-R244,
R286-R296, R301, R308, R393). -/

namespace Sys2Proof.Machine
open Sys2Proof

/-! ### Parties -/

def State.field? (s : State) (f : Nat) : Option Field := mget s.fields f
def State.setField (s : State) (f : Nat) (v : Field) : State := { s with fields := mput s.fields f v }
def State.updField (s : State) (f : Nat) (g : Field → Field) : State :=
  { s with fields := mupd s.fields f g }

def Field.updSw (f : Field) (sw : Nat) (g : Swath → Swath) : Field :=
  { f with sws := mupd f.sws sw g }

/-- Every swath of a field. -/
def Field.mapSw (f : Field) (g : Swath → Swath) : Field :=
  { f with sws := f.sws.map (fun (i, w) => (i, g w)) }

def State.swathAt (s : State) (fid sw : Nat) : Option Swath :=
  (s.field? fid).bind (fun f => mget f.sws sw)

def State.updSwathAt (s : State) (fid sw : Nat) (g : Swath → Swath) : State :=
  s.updField fid (fun f => f.updSw sw g)

/-- The swath of a party. -/
def State.swathOf (s : State) : PartyId → Option Swath
  | .scalar f w => s.swathAt f w
  | .lane f w _ => s.swathAt f w
  | .pager d => (mget s.pagers d).map (·.sw)

/-- Change the swath of a party. -/
def State.updSwath (s : State) (p : PartyId) (g : Swath → Swath) : State :=
  match p with
  | .scalar f w => s.updSwathAt f w g
  | .lane f w _ => s.updSwathAt f w g
  | .pager d => { s with pagers := mupd s.pagers d (fun q => { q with sw := g q.sw }) }

def State.updLaunch (s : State) (l : Nat) (g : Launch → Launch) : State :=
  { s with launches := mupd s.launches l g }

/-- Where an issuing party stands. -/
structure Focus where
  party : PartyId
  fid : Nat
  sw : Nat
  core : Nat
  ctx : Nat
  launch : Nat
  level : Nat
  /-- The die of a pager core. -/
  pager : Option Nat
  deriving DecidableEq, Repr

/-- The agent as which a party accesses global memory (R227, R264). -/
def Focus.agent (F : Focus) : Agent := { core := F.core, ctx := F.ctx, super := decide (0 < F.level) }

def Focus.die (F : Focus) : Nat :=
  match F.pager with
  | some d => d
  | none => F.core / 48

def focusOf (f : Field) (fid sw : Nat) (p : PartyId) (w : Swath) : Focus :=
  { party := p, fid := fid, sw := sw, core := f.core, ctx := f.ctx, launch := f.launch,
    level := w.ctl.level, pager := none }

/-- Where a die's pager core stands. -/
def pagerFocus (d : Nat) : Focus :=
  { party := .pager d, fid := 0, sw := 0, core := 48 * d, ctx := 0, launch := 0, level := 0,
    pager := some d }

/-- The swath that issues a scalar instruction: the chosen scalar stream or pager core. -/
def State.scalarFocus (s : State) : Option (Focus × Swath) :=
  match s.chosen with
  | some (.scalar fid sw) =>
    match s.field? fid with
    | some f => (mget f.sws sw).map (fun w => (focusOf f fid sw (.scalar fid sw) w, w))
    | none => none
  | some (.pager d) =>
    (mget s.pagers d).map (fun q => (pagerFocus d, q.sw))
  | _ => none

def LaneStream.get (l : LaneStream) (second : Bool) : Option Frag := if second then l.f1 else l.f0

def LaneStream.put (l : LaneStream) (second : Bool) (f : Frag) : LaneStream :=
  if second then { l with f1 := some f } else { l with f0 := some f }

def Swath.updFrag (w : Swath) (second : Bool) (g : Frag → Frag) : Swath :=
  match w.lanes.get second with
  | some f => { w with lanes := w.lanes.put second (g f) }
  | none => w

/-- The fragment that issues a lane instruction. -/
def State.laneFocus (s : State) : Option (Focus × Swath × Frag × Bool) :=
  match s.chosen with
  | some (.lane fid sw second) =>
    match s.field? fid with
    | some f =>
      match mget f.sws sw with
      | some w => (w.lanes.get second).map (fun g =>
          (focusOf f fid sw (.lane fid sw second) w, w, g, second))
      | none => none
    | none => none
  | _ => none

/-- A field is asked to stop by a debugger command, or by a replay (R415, R425). -/
def Field.cmdStop (f : Field) : Field :=
  match f.stop with
  | none => { f with stop := some { brk := false, cmd := true, code := 0, mask := 0, halted := false } }
  | some t => if t.halted then f else { f with stop := some { t with cmd := true } }

/-! ### Outward messages and the Heath log -/

def State.send (s : State) (o : Out) : State := { s with outbox := s.outbox ++ [o] }

/-- A log that has just grown by one entry, without the oldest when it is past 65,536 (R429). -/
def newestEntries (l : List LogEnt) : List LogEnt := if l.length ≤ 65536 then l else l.tail

/-- Append to the Heath log, which keeps the newest entries (R429). -/
def State.heathLog (s : State) (event uclass uindex ctx : Nat) (detail : W64) : State :=
  let e : LogEnt := { event := event, uclass := uclass, uindex := uindex, time := s.time, ctx := ctx,
                      detail := detail }
  { s with heath := { s.heath with log := newestEntries (s.heath.log ++ [e]) } }

/-- Take one free value's index. -/
def State.tick (s : State) : State := { s with freeCtr := s.freeCtr + 1 }

/-! ### Requests to Heath (R426) -/

/-- Heath answers once its own image runs. -/
def State.reply (s : State) (kind : Nat) (data : List Byte) : State :=
  if s.heath.bootStep = 0 then s else s.send (.answer kind data)

/-- A refused management command is logged. -/
def State.refuse (s : State) (ctx : Nat) (detail : Nat) : State := s.heathLog 7 0 0 ctx (w64 detail)

/-- Over PCIe a management command is accepted only from the physical function (R426). -/
def viaAccepted : Via → Bool
  | .i3c | .pcie none => true
  | .pcie (some _) => false

/-- A management command: Heath does not hear it before its own image is verified, nor where that failure
holds the device in reset (R427); one from a virtual function is refused (R426; notes/assumptions/154.md). -/
def State.managed (s : State) (via : Via) (act : Host.Outcome State Fault Refusal) :
    Host.Outcome State Fault Refusal :=
  if s.heath.held || s.heath.bootStep = 0 then .next s
  else if !viaAccepted via then .next (s.refuse 0 0)
  else act

/-! ### Fault rings (R287, R288, R393) -/

/-- What a ring record says beside its number and the count of lost records (R287). -/
structure RingRec where
  cause : BitVec 16
  code : Nat := 0
  terminal : Bool
  src : Bool := false
  level : Nat := 0
  ctx : Nat
  depth : Nat := 0
  va : W64 := 0
  addr2 : W64 := 0
  coords : W64
  ltag : W32 := 0
  chainoff : W32 := 0xFFFFFFFF
  lpc : W32 := 0
  spc : W64 := 0
  cause2 : BitVec 16 := 0

/-- The eight dwords of a record (R287), SEQ and LOST still 0. -/
def RingRec.words (r : RingRec) : List W64 :=
  [w64 (r.cause.toNat + r.code * 2 ^ 16 + b2n r.terminal * 2 ^ 27 + b2n r.src * 2 ^ 28
      + r.level * 2 ^ 29 + r.ctx * 2 ^ 32 + r.depth * 2 ^ 44),
   r.va, r.addr2, r.coords, w64 (r.ltag.toNat + r.chainoff.toNat * 2 ^ 32), zx64 r.lpc, r.spc,
   w64 (r.cause2.toNat * 2 ^ 32)]

/-- The coordinates of a record with no swath. -/
def noSwath : W64 := w64 (0xFFFFFF + 31 * 2 ^ 34)

/-- The coordinates of a swath and a lane (R287). -/
def Field.coords (f : Field) (sw lane : Nat) : W64 :=
  w64 (f.num + f.mx * 2 ^ 24 + f.my * 2 ^ 29 + sw * 2 ^ 34 + lane * 2 ^ 39)

/-- What comes of writing a ring record. -/
inductive RingRes
  | done (s : State) (seq : W32)
  | full
  | fault (e : XErr)
  /-- The host has been asked for a half line that the record or PROD lies in (R328). -/
  | hold (s : State)

def Context.ring (x : Context) (retry : Bool) : Ring := if retry then x.retry else x.terminal
def Context.setRing (x : Context) (retry : Bool) (r : Ring) : Context :=
  if retry then { x with retry := r } else { x with terminal := r }

/-- Write a dword through a translation found for it. -/
def dwordPut (s : State) (dpa : Nat) (v : W64) : State := homePut s dpa v.toNat 8

/-- Write a record of eight dwords. -/
def dwordsPut (s : State) (dpa : Nat) : List W64 → State
  | [] => s
  | v :: r => dwordsPut (dwordPut s dpa v) (dpa + 8) r

/-- Send a vector of a virtual function. One that is masked keeps it pending; whether the host has
unmasked the function since is a free choice, made here, and what is pending is then sent first (R402;
notes/assumptions/153.md). -/
def State.msix (s : State) (vf vec : Nat) : State :=
  if !s.masked.contains vf then s.send (.msix (some vf) vec)
  else if Config.freeBool s.freeCtr then
    let due := s.msixPending.filter (fun m => m.1 == vf && m.2 != vec)
    let s := { s with masked := s.masked.filter (· != vf),
                      msixPending := s.msixPending.filter (fun m => m.1 != vf) }.tick
    (due.foldl (fun s m => s.send (.msix (some vf) m.2)) s).send (.msix (some vf) vec)
  else
    { s with msixPending := s.msixPending.filter (· != (vf, vec)) ++ [(vf, vec)] }.tick

/-- Try to write a record to a ring of context `c`, in its parent's address space (R393). -/
def ringTry (s : State) (die c : Nat) (retry : Bool) (words : List W64) : RingRes :=
  match s.ctx? c with
  | none => .full
  | some x =>
    let r := x.ring retry
    let ctl := r.base.toNat - 64
    let slot := r.base.toNat + 64 * (r.prod.toNat % 2 ^ r.size)
    match forContext s die x.parent (ctl + 8) false with
    | .error e => .fault e
    | .ok xc =>
      if 2 ^ r.size ≤ (r.prod - w32 (homeRd s xc.dpa 4)).toNat then .full
      else match forContext s die x.parent slot true, forContext s die x.parent ctl true with
        | .error e, _ => .fault e
        | _, .error e => .fault e
        | .ok xs, .ok xp =>
          let last := w64 (r.prod.toNat + ((words.getD 7 0).toNat / 2 ^ 32 % 2 ^ 16) * 2 ^ 32
                            + Nat.min r.lost 65535 * 2 ^ 48)
          match linesHold s [(xs.dpa / 128, byteMask (xs.dpa % 128) 64), (xp.dpa / 128, byteMask (xp.dpa % 128) 4)] with
          | some s' => .hold s'
          | none =>
          let s := dwordsPut s xs.dpa (words.take 7 ++ [last])
          let s := homePut s xp.dpa (r.prod + 1).toNat 4
          let s := s.updCtx c (fun x => x.setRing retry { r with prod := r.prod + 1, lost := 0 })
          let s := match x.vf with
            | some v => s.msix v (if retry then 0 else 1)
            | none => s
          .done (s.countFor (fld (words.getD 0 0) 43 32) cFAULTS 1) r.prod

/-- Note the requester of a stage-2 walk fault when its record is written (R269). -/
def State.noteOwner (s : State) (w : RingWait) (seq : W32) : State :=
  match w.req with
  | some q => { s with s2waits := s.s2waits ++
      [{ owner := w.ctx, seq := seq, ctx := (w.words.getD 0 0).toNat / 2 ^ 32 % 2 ^ 12,
         va := w.words.getD 1 0, req := q }] }
  | none => s

/-! ### Service records (R308) -/

/-- What a service record says before it has an index. -/
structure ServiceReq where
  cause : BitVec 16 := 0
  kind : Nat := 0
  noLease : Bool := false
  lease : Nat := 0
  ctx : Nat := 0
  rq : Nat := 0
  va : W64 := 0
  dpa : Nat := 0
  coords : W64 := 0
  event : Nat := 0
  reqs : List Requester := []

def ServiceReq.record (q : ServiceReq) : Service :=
  { idx := 0, st := .waiting, cause := q.cause, kind := q.kind, noLease := q.noLease,
    merged := false, lease := q.lease, ctx := q.ctx, rq := q.rq, va := q.va, dpa := q.dpa,
    coords := q.coords, event := q.event, seq := 0, reqs := q.reqs }

/-- A record into which a new one is merged (R308). -/
def Service.absorbs (r : Service) (q : ServiceReq) : Bool :=
  r.kind == q.kind && r.lease == q.lease &&
    (match q.kind with
     | 0 => r.st != .waiting && r.cause == q.cause && r.dpa / 65536 == q.dpa / 65536
     | 1 => r.st == .queued
     | _ => false)

/-- Indices in use of a pager's queue. -/
def Pager.used (p : Pager) : List Nat := (p.recs.filter (fun r => r.st != .waiting)).map (·.idx)

/-- The fault-service share that a context keeps for itself (R396, R397). -/
def faultShare (s : State) (c : Nat) : Nat :=
  match s.ctx? c with
  | some x => x.budgets.faultsh - (s.liveChildren c).foldl (fun n (_, y) => n + y.budgets.faultsh) 0
  | none => 0

/-- The waiting record that enters next, by its place among the records: the oldest of its context; those of
a context without a share come last, and which context's turn it is by its share is free. A record of a
lease is no context's (R308, R397; notes/assumptions/151.md). -/
def nextAdmitted (s : State) (p : Pager) : Option Nat :=
  let waits := p.recs.zipIdx.filter (fun (r, _) => r.st == .waiting)
  let same (a b : Service) : Bool := (a.kind != 0 && b.kind != 0) || (a.kind == 0 && b.kind == 0 && a.ctx == b.ctx)
  let heads := waits.filter (fun (r, i) => waits.all (fun (q, j) => !same q r || decide (i ≤ j)))
  let sharers := heads.filter (fun (r, _) => r.kind != 0 || faultShare s r.ctx != 0)
  let from_ := if sharers.isEmpty then heads else sharers
  (from_[Config.freeNat s.freeCtr % from_.length]?).map (·.2)

/-- A waiting record enters a queue that has room, at a free index (R308). Its SEQ, which counts the records
of the pager from 0, is given as it enters (notes/assumptions/152.md). -/
def State.takeIn (s : State) (die : Nat) : State :=
  match mget s.pagers die with
  | none => s
  | some p =>
    let room := (List.range 1024).filter (fun i => !p.used.contains i)
    match nextAdmitted s p, room[Config.freeNat (s.freeCtr + 1) % room.length]? with
    | some k, some i =>
      { s with
        freeCtr := s.freeCtr + 2,
        pagers := mput s.pagers die { p with
          recs := p.recs.modify k (fun r => { r with st := .queued, idx := i, seq := p.seq }), seq := p.seq + 1 } }
    | _, _ => s

/-- Queue or merge a service record on a die's pager (R308). -/
def State.service (s : State) (die : Nat) (q : ServiceReq) : State :=
  match mget s.pagers die with
  | none => s
  | some p =>
    if p.recs.any (·.absorbs q) then
      let recs := p.recs.map (fun r =>
        if r.absorbs q then
          { r with reqs := r.reqs ++ q.reqs, merged := r.merged || !q.reqs.isEmpty }
        else r)
      { s with pagers := mput s.pagers die { p with recs := recs } }
    else
      { s with pagers := mput s.pagers die { p with recs := p.recs ++ [q.record] } }.takeIn die

/-- The pager of a faulting DPA, and the lease that covers it. -/
def serviceOf (s : State) (cause : Cause) (ctx : Nat) (va : W64) (dpa rq : Nat) (coords : W64)
    (req : Requester) : Nat × ServiceReq :=
  let l := coveringLease s dpa
  (homeDie dpa,
   { cause := cause.code, noLease := l.isNone, lease := (l.map (·.1)).getD 0, ctx := ctx, rq := rq,
     va := va, dpa := dpa, coords := coords, reqs := [req] })

/-! ### Placing ring records -/

/-- A terminal record that cannot be kept is counted in LOST (R288, R393). -/
def State.dropTerminal (s : State) (c : Nat) : State :=
  s.updCtx c (fun x => { x with terminal := { x.terminal with lost := x.terminal.lost + 1 } })

/-- A record with DEPTH raised by 1, ADDR2 zero and its reserved bits 0, as `RFLT` reflects it (R287,
R288, R382). -/
def reflectWords (ws : List W64) : List W64 :=
  ws.mapIdx (fun i v =>
    if i = 0 then (w64 (v.toNat + 2 ^ 44) &&& 0xFFFFFFF7FFFFFFF) ||| 0x8000000
    else if i = 2 then 0
    else if i = 3 then v &&& 0x1FFFFFFFFFFFF
    else if i = 5 then v &&& 0xFFFFFFFF
    else if i = 7 then v &&& 0xFFFF00000000 else v)

/-- The oldest record of a ring waits for the service of a fault on the ring (R393). -/
def ringService (s : State) (c : Nat) (retry : Bool) (e : XErr) : State :=
  let (d, q) := serviceOf s e.cause c 0 e.dpa 1 noSwath (.ring c retry)
  s.service d q

/-- Put a record on a ring of context `c`; `n` bounds the reflections up the tree (R288, R395). -/
def State.ringPush (die : Nat) (retry : Bool) (req : Option Requester) :
    Nat → State → Nat → List W64 → State
  | n, s, c, words =>
    match s.ctx? c with
    | none => s
    | some x =>
      let wait (service : Bool) : RingWait :=
        { ctx := c, retry := retry, words := words, req := req, service := service, die := die }
      if !retry && x.terminal.size = 0 then
        match n with
        | 0 => s.dropTerminal c
        | n + 1 => if c = 0 then s.dropTerminal c
                   else State.ringPush die retry req n s x.parent (reflectWords words)
      else if retry && x.retry.size = 0 then { s with ringWaits := s.ringWaits ++ [wait false] }
      else if s.ringWaits.any (fun w => w.ctx == c && w.retry == retry) then
        if retry || (s.ringWaits.filter (fun w => !w.retry && w.die == die)).length < 64 then
          { s with ringWaits := s.ringWaits ++ [wait false] }
        else s.dropTerminal c
      else match ringTry s die c retry words with
        | .done s seq => s.noteOwner (wait false) seq
        | .full =>
          if retry || (s.ringWaits.filter (fun w => !w.retry && w.die == die)).length < 64 then
            { s with ringWaits := s.ringWaits ++ [wait false] }
          else s.dropTerminal c
        | .hold s => { s with ringWaits := s.ringWaits ++ [wait false] }
        | .fault e =>
          if e.cause.parks && e.cause != .walkStage2 then
            { ringService s c retry e with ringWaits := s.ringWaits ++ [wait true] }
          else if retry then { s with ringWaits := s.ringWaits ++ [wait false] }
          else (s.dropTerminal c).heathLog 7 0 0 c (w64 e.cause.code.toNat)

/-- The ring waits without the oldest record that waits for a ring. -/
def dropRingWait (c : Nat) (retry : Bool) : List RingWait → List RingWait
  | [] => []
  | w :: r => if w.ctx = c && w.retry = retry then r else w :: dropRingWait c retry r

/-- Try the oldest waiting records of a ring again, at most `n`, until one has to wait. -/
def State.retryRing (c : Nat) (retry : Bool) : Nat → State → State
  | 0, s => s
  | n + 1, s =>
    match s.ringWaits.find? (fun w => w.ctx == c && w.retry == retry) with
    | none => s
    | some w =>
      if w.service then s
      else
        let out := { s with ringWaits := dropRingWait c retry s.ringWaits }
        match ringTry s w.die c retry w.words with
        | .done s' seq =>
          State.retryRing c retry n
            ({ s' with ringWaits := dropRingWait c retry s'.ringWaits }.noteOwner w seq)
        | .full => s
        | .hold s => s
        | .fault e =>
          if e.cause.parks && e.cause != .walkStage2 then
            { ringService s c retry e with
                ringWaits := { w with service := true } :: dropRingWait c retry s.ringWaits }
          else if retry then s
          else State.retryRing c retry n ((out.dropTerminal c).heathLog 7 0 0 c (w64 e.cause.code.toNat))

/-- The service that a ring waited for is over: its access proceeds (R393). -/
def State.resumeRing (s : State) (c : Nat) (retry : Bool) : State :=
  State.retryRing c retry s.ringWaits.length
    { s with ringWaits := s.ringWaits.map (fun w =>
        if w.ctx == c && w.retry == retry then { w with service := false } else w) }

/-- The service has not resolved the fault: a retry record waits on, and is tried again as after any other
fault; a terminal record is dropped, counted and logged, and those behind it go on (R393). -/
def State.endRing (s : State) (c : Nat) (retry : Bool) (cause : BitVec 16) : State :=
  if retry then
    { s with ringWaits := s.ringWaits.map (fun w =>
        if w.ctx == c && w.retry then { w with service := false } else w) }
  else if s.ringWaits.any (fun w => w.ctx == c && !w.retry && w.service) then
    (({ s with ringWaits := dropRingWait c false s.ringWaits }.dropTerminal c).heathLog 7 0 0 c
      (zx64 cause)).resumeRing c false
  else s

def State.terminalRecord (s : State) (die c : Nat) (r : RingRec) : State :=
  State.ringPush die false none 8 s c r.words

def State.retryRecord (s : State) (die owner : Nat) (req : Requester) (r : RingRec) : State :=
  State.ringPush die true (some req) 8 s owner r.words

/-! ### Divergence: entries and arms (R130) -/

/-- The position of the newest entry that satisfies `p`. -/
def newest (p : StackEnt → Bool) : List StackEnt → Nat → Option Nat
  | [], _ => none
  | e :: r, i =>
    match newest p r (i + 1) with
    | some j => some j
    | none => if p e then some i else none

def LaneStream.dual (l : LaneStream) : Option StackEnt := l.stack.find? (fun e => e.kind == .dual)

/-- The stack from its oldest entry on, each entry with the converted entry under it that its arm
belongs to: the newest one below, since a split of a reconverged arm pushes its own entries above it
(R130, R139; notes/assumptions/120.md). -/
def ownersFrom : Option StackEnt → List StackEnt → List (StackEnt × Option StackEnt)
  | _, [] => []
  | c, e :: r => (e, c) :: ownersFrom (if e.conv then some e else c) r

/-- The entries that were pushed by the arm which a converted entry holds (R130): one flag for each
position. -/
def LaneStream.passed (l : LaneStream) : List Bool :=
  (ownersFrom none l.stack).map (fun (e, c) => e.nest && c.any (fun c => e.arm == c.heldArm))

/-- The entry at a position was pushed by a held arm. -/
def LaneStream.passesOver (l : LaneStream) (i : Nat) : Bool := l.passed.getD i false

/-- The newest of the positions below `n` that satisfies `p`. -/
def newestBelow (p : Nat → Bool) : Nat → Option Nat
  | 0 => none
  | n + 1 => if p n then some n else newestBelow p n

/-- The position of a fragment's innermost divergence (R130). -/
def LaneStream.innermost (l : LaneStream) (second : Bool) : Option Nat :=
  match newest (fun e => e.kind == .dual) l.stack 0 with
  | some d =>
    -- the arms' own entries lie above the DUAL entry
    some ((newest (fun e => e.nest && e.arm == second) (l.stack.drop (d + 1)) (d + 1)).getD d)
  | none => newestBelow (fun i => !l.passesOver i) l.stack.length

def StackEnt.isTrap (e : StackEnt) : Bool :=
  match e.kind with
  | .trap _ => true
  | _ => false

/-- A fragment is the handler fragment or was split from it: the newest TRAP entry is of its own arm
(R240). -/
def LaneStream.isHandler (l : LaneStream) (second : Bool) : Bool :=
  match newest StackEnt.isTrap l.stack 0 with
  | none => false
  | some i =>
    if l.dual.isSome then (l.stack[i]?).any (fun e => e.arm == second) else !l.passesOver i

/-- Remove the entries of one arm from its oldest TRAP entry on, and tell that entry and where it stood
(R243). -/
def removeTraps (own : StackEnt → Nat → Bool) (st : List StackEnt) :
    Option (StackEnt × Nat × List StackEnt) :=
  match (st.zipIdx).find? (fun (e, i) => own e i && e.isTrap) with
  | none => none
  | some (t, n) =>
    some (t, n, ((st.zipIdx).filter (fun (e, i) => decide (i < n) || !own e i)).map (·.1))

/-- A live arm whose TRAP entries are removed takes the mask of the oldest. -/
def LaneStream.dropTrapsOf (l : LaneStream) (own : StackEnt → Nat → Bool) (second : Bool) :
    LaneStream :=
  match removeTraps own l.stack with
  | none => l
  | some (t, _, st) =>
    let l := { l with stack := st }
    match l.get second with
    | some f => l.put second { f with mask := t.mask, held := false, endPc := none }
    | none => l

/-- An arm that a converted entry holds loses its TRAP entries too: the entry then holds the arm as it
stood when its oldest trap was taken (R130, R243; notes/assumptions/120.md). -/
def LaneStream.dropHeldTraps (l : LaneStream) : LaneStream :=
  match removeTraps (fun _ i => l.passesOver i) l.stack with
  | none => l
  | some (t, n, st) =>
    match newest (·.conv) (st.take n) 0 with
    | none => { l with stack := st }
    | some c => { l with stack := st.modify c (fun e =>
        if e.kind == .first then
          { e with mask := t.mask, apc := t.jpc, afmt := t.jfmt, endPc := t.endPc, held := false }
        else e) }

/-- Remove every TRAP entry (R243). -/
def LaneStream.dropTraps (l : LaneStream) : LaneStream :=
  if l.dual.isSome then
    (l.dropTrapsOf (fun e _ => e.nest && !e.arm) false).dropTrapsOf (fun e _ => e.nest && e.arm) true
  else
    let l := l.dropHeldTraps
    l.dropTrapsOf (fun _ i => !l.passesOver i) false

/-! ### Parking and terminal faults (R291-R293) -/

/-- The barrier that a fragment waits on. -/
def FWait.bar : FWait → Option Nat
  | .bars b => some b
  | .barw b => some b
  | _ => none

def FWait.isBars : FWait → Bool
  | .bars _ => true
  | _ => false

/-- A fragment back at its region entry (R291). -/
def Frag.toRegion (f : Frag) : Frag :=
  { f with pc := f.rpc, fmt := f.rfmt, held := false, pend := false, pendAt := 0, endPc := none, sb := [],
           rset := [], wait := if f.wait.isBars && f.pc == f.rpc then f.wait else .ready }

/-- The `BARS` of LEVEL 0 whose arrival has been made: the one at the PC, or the one that the first
trap interrupted (R66, R280). -/
def Swath.arrivedBars (w : Swath) : Option W64 :=
  if w.ctl.level = 0 then (if w.meet.barsDone then some w.meet.barsPc else none) else w.ctl.f1.bars

/-- The swath back at its region entries, every trap removed (R243, R291). -/
def Swath.toRegion (w : Swath) : Swath :=
  let l := w.lanes.dropTraps
  -- a `BARS` whose arrival is made is the region entry itself (R290)
  let arrived := w.arrivedBars == some w.regs.rgnEntry
  { w with
    regs := { w.regs with pc := w.regs.rgnEntry },
    meet := { w.meet with barsDone := arrived, barsPc := w.regs.rgnEntry },
    ctl := { w.ctl with level := 0, f1 := .zero, f2 := .zero, wait := .none, sb := [], rset := [],
                        entering := false, yielded := false },
    lanes := { l with f0 := l.f0.map Frag.toRegion, f1 := l.f1.map Frag.toRegion, late := [] } }

/-- Park a swath on a fault (R291). -/
def Swath.parkOn (w : Swath) (p : Park) : Swath :=
  { w.toRegion with ctl := { w.toRegion.ctl with parked := some p } }

/-- Write one result that returns late, with the flags of its reduction (R90, R285). -/
def Swath.writeLate (w : Swath) (r : Late) : Swath :=
  { w with
    regs := { w.regs with
      wL := mput w.regs.wL r.w r.value,
      laneFlags := if r.flags = 0 then w.regs.laneFlags
                   else w.regs.laneFlags ++ [(w.meet.issued, r.flags)] },
    meet := { w.meet with lwset := w.meet.lwset ||| (1 <<< r.w),
                          lwstamp := mput w.meet.lwstamp r.w (w.meet.issued.setWidth 16) } }

/-- Every late result written. -/
def Swath.writeLates (w : Swath) : Swath :=
  let w := w.lanes.late.foldl Swath.writeLate w
  { w with lanes := { w.lanes with late := [] } }

/-- Every late result written, no candidacy kept: a swath that leaves its quadrant (R285, R297). A handler
entry that waits for a registration goes on waiting beside the image, which has no place for it
(notes/assumptions/163.md). -/
def Swath.settle (w : Swath) : Swath :=
  let w := w.writeLates
  let quiet (f : Frag) : Frag := { f with sb := [], passed := 0, aged := none }
  { w with ctl := { w.ctl with sb := [], passed := 0, aged := none, yielded := false },
           lanes := { w.lanes with f0 := w.lanes.f0.map quiet, f1 := w.lanes.f1.map quiet,
                                   stack := w.lanes.stack.map (fun e => { e with sb := [] }) } }

/-- Where a field's slot lies. -/
def slotVa (r : LaunchRec) (f : Field) : Nat := r.imgva.toNat + f.slot * r.slotSize

/-- The K-steps of an `MMUL` or `MTERN`: K over the step (R150). -/
def MatOp.steps (o : MatOp) : Nat := fld (o.desc.headD 0) 55 43 / (if o.kind = 5 then 64 else 128)

def MatOp.isMul (o : MatOp) : Bool := o.kind == 5 || o.kind == 6

/-- The oldest matrix operation completes: its flags are set and the matrix counter falls (R141,
R142). -/
def Swath.retireOp (w : Swath) : Swath :=
  match w.eng.mq with
  | [] => w
  | o :: r =>
    { w with regs := { w.regs with flags := w.regs.flags ||| o.flags },
             eng := { w.eng with mq := r, matrix := w.eng.matrix - 1 } }

/-- A pause: an operation whose last K-step is done completes; one of another kind is re-run from its
start (R160). -/
def Swath.pauseOps (w : Swath) : Swath :=
  match w.eng.mq with
  | [] => w
  | o :: r =>
    if o.isMul then (if o.steps ≤ o.prog then w.retireOp else w)
    else { w with eng := { w.eng with mq := { o with prog := 0 } :: r } }

/-- A field that leaves its core with the given status; its slot takes the state (R284, R293). -/
def Field.leave (f : Field) (st : FStatus) : Field :=
  { f.mapSw (fun w => w.settle.pauseOps) with
    status := st, ready := false, slicing := false, saving := false }

/-- The record of a fault of a swath (R287). -/
def faultRec (f : Field) (sw level : Nat) (src : Bool) (lpc : W32) (r : Raise) : RingRec :=
  { cause := r.cause.code, code := r.code, terminal := true, src := src, level := level,
    ctx := f.ctx, va := r.va, coords := f.coords sw r.lane, lpc := if src then lpc else 0 }

/-- What a fault on an access reports. -/
def XErr.raise (e : XErr) (va : Nat) : Raise :=
  { cause := e.cause, va := w64 va, dpa := e.dpa, addr2 := e.addr2, level := e.level, ro := e.ro,
    kind := e.kind }

/-- Note a unit missed through an RO-SHARED page (R271, R323). -/
def State.noteRo (s : State) (r : Raise) : State :=
  if r.ro && r.cause == .poolMiss && !s.roUnits.contains (r.dpa / 65536) then
    { s with roUnits := s.roUnits ++ [r.dpa / 65536] }
  else s

/-- Send a rung-3 fault to its servicer (R269, R292): the owner's retry ring for `WALK_STAGE2`, where CODE
gives the kind of the access (notes/assumptions/125.md), else the pager of the DPA's home die. -/
def State.toServicer (s : State) (die ctx : Nat) (coords : W64) (rq : Nat) (req : Requester)
    (r : Raise) (base : RingRec) : State :=
  if r.cause = .walkStage2 then
    let owner := ((s.ctx? ctx).map (·.parent)).getD 0
    s.retryRecord die owner req
      { base with terminal := false, code := r.kind, addr2 := w64 (r.addr2 % 2 ^ 62 + r.level * 2 ^ 62) }
  else
    let (d, q) := serviceOf s r.cause ctx r.va r.dpa rq coords req
    (s.noteRo r).service d q

/-- The tag of a field's launch; the scalar PC of its first swath. -/
def State.ltagOf (s : State) (f : Field) : W32 := ((mget s.launches f.launch).map (·.ltag)).getD 0
def Field.firstPc (f : Field) : W64 := (f.sws.head?.map (·.2.regs.pc)).getD 0

/-- The record of an access of a field's slot that a servicer is needed for (R285): it names the field's
first swath. -/
def arenaRec (s : State) (f : Field) (e : XErr) (va : Nat) : RingRec :=
  { cause := e.cause.code, terminal := true, ctx := f.ctx, va := w64 va, coords := f.coords 0 0,
    ltag := s.ltagOf f, spc := f.firstPc }

/-- A field waits while its slot is served at rung 3 (R285). -/
def State.serveArena (s : State) (fid : Nat) (f : Field) (e : XErr) (va : Nat) : State :=
  (s.updField fid (fun f => { f with arena := true })).toServicer (f.core / 48) f.ctx (f.coords 0 0) 0
    (.arena fid) (e.raise va) (arenaRec s f e va)

/-- What comes of writing a field's slot. -/
inductive SaveRes
  /-- It is written. -/
  | done (s : State)
  /-- The field waits for a servicer; it is written again then. -/
  | waits (s : State)
  /-- The arena cannot be written. -/
  | bad
  deriving DecidableEq

/-- Write a field's slot with what the state holds of the field (R284, R285). -/
def State.saveSlot (s : State) (fid : Nat) : SaveRes :=
  match s.field? fid with
  | none => .bad
  | some f =>
    match mget s.launches f.launch with
    | none => .bad
    | some l =>
      match slotHold s (f.core / 48) f.ctx (slotVa l.lrec f) l.lrec f with
      | some t => .waits (t.updField fid (fun f => { f with saving := true }))
      | none =>
      match s.storeSlot (f.core / 48) f.ctx (slotVa l.lrec f) l.lrec f with
      | .ok s =>
        -- what the slot now holds is newer than any dword of it that waited
        let base := slotVa l.lrec f
        .done { s.updField fid (fun f => { f with saving := false }) with
                slotWaits := s.slotWaits.filter (fun x =>
                  !(x.ctx == f.ctx && decide (base ≤ x.va) && decide (x.va < base + l.lrec.slotSize))) }
      | .error (e, va) =>
        let t := s.updField fid (fun f => { f with saving := true })
        if e.gate.isSome then .waits t
        else if e.cause.parks then .waits (t.serveArena fid f e va)
        else .bad

/-- Write a dword of a slot, or wait for the service of the fault that keeps it from being written; after
any other fault it is not written (R285). -/
def State.putSlotWord (s : State) (x : SlotWait) : State :=
  match forContext s x.die x.ctx x.va true with
  | .ok xl => s.deviceWrite { line := xl.dpa / 128, mask := byteMask (xl.dpa % 128) 8,
                              data := lineWith (xl.dpa % 128) x.value 8 }
  | .error e =>
    if e.gate.isSome then { s with slotWaits := s.slotWaits ++ [{ x with service := false }] }
    else if e.cause.parks then
      { s with slotWaits := s.slotWaits ++ [{ x with service := true }] }.toServicer x.die x.ctx x.coords 0
        (.slot x.uid) (e.raise x.va)
        { cause := e.cause.code, terminal := true, ctx := x.ctx, va := w64 x.va, coords := x.coords,
          ltag := x.ltag, spc := x.spc }
    else s

/-- Write the dword of a field's slot at an offset (R278, R297). A later value takes the place of one that
still waits. -/
def State.slotPut (s : State) (f : Field) (off : Nat) (v : Nat) : State :=
  match mget s.launches f.launch with
  | none => s
  | some l =>
    let va := slotVa l.lrec f + off
    if s.slotWaits.any (fun x => x.ctx == f.ctx && x.va == va) then
      { s with slotWaits := s.slotWaits.map (fun x =>
          if x.ctx == f.ctx && x.va == va then { x with value := v } else x) }
    else { s with nextUid := s.nextUid + 1 }.putSlotWord
      { uid := s.nextUid, die := f.core / 48, ctx := f.ctx, va := va, value := v, coords := f.coords 0 0,
        ltag := s.ltagOf f, spc := f.firstPc }

/-- A dword that waits no longer. -/
def State.dropSlotWait (s : State) (uid : Nat) : State :=
  { s with slotWaits := s.slotWaits.filter (fun x => x.uid != uid) }

/-- A dword that waits is tried again. -/
def State.retrySlot (s : State) (uid : Nat) : State :=
  match s.slotWaits.find? (fun x => x.uid == uid) with
  | some x => (s.dropSlotWait uid).putSlotWord x
  | none => s

/-- Writes of the device's own that wait for the host or the fabric are tried again (R328, R332). -/
def State.retryOwn (s : State) : State :=
  (s.retryWrites.slotWaits.filter (fun x => !x.service)).foldl (fun s x => s.retrySlot x.uid) s.retryWrites

/-- The same where any of them waits. -/
def State.wakeOwn (s : State) : State :=
  if s.homeWrites.isEmpty && s.slotWaits.all (·.service) then s else s.retryOwn

/-- STATUS and READY of a field's slot follow the field while it is out (R278, R292). -/
def State.putStatus (s : State) (fid : Nat) : State :=
  match s.field? fid with
  | some f => if f.saving then s else s.slotPut f 0 (f.status.code + 4 * b2n f.ready)
  | none => s

/-- The counters of a swath in its field's slot fall as transfers and hints complete while the field
is out (R297). -/
def State.putCounters (s : State) (fid sw : Nat) : State :=
  match s.field? fid with
  | some f =>
    match mget f.sws sw, mget s.launches f.launch with
    | some w, some l =>
      if f.status == .swapped && !f.saving then
        s.slotPut f (0x14_1000 + l.lrec.zPrime * sw + 0x3C0) (countersWord w)
      else s
    | _, _ => s
  | none => s

/-- A swapped field becomes ready to resume, unless it is stopped: it enters the order of R115, and its
slot says so (R126, R292). -/
def State.makeReady (s : State) (fid : Nat) : State :=
  match s.field? fid with
  | some f =>
    if f.status != .swapped || f.ready || f.stop.isSome then s
    else ({ s.setField fid { f with ready := true, readyAt := s.nextReady } with
              nextReady := s.nextReady + 1 }).putStatus fid
  | none => s

/-- End a field with the status FAULTED; its slot takes the state at the fault, after the service of
its arena where that is needed (R285, R293). -/
def State.faultField (s : State) (fid : Nat) : State :=
  match s.field? fid with
  | none => s
  | some f =>
    let s := s.setField fid (f.leave .faulted)
    let s := s.updLaunch f.launch (fun l => { l with faulted := l.faulted + 1 })
    match s.saveSlot fid with
    | .done s => s
    | .waits s => s
    | .bad => s

/-- A fault is traced: cause and VA (R423). -/
def State.logFault (s : State) (f : Field) (sw : Nat) (cause : BitVec 16) (va : W64) (lane : Nat) :
    State :=
  s.logEvent (f.core / 48) f.ctx 5 (f.coords sw lane) (zx64 cause) va

/-- A terminal fault of a swath: its record and the end of its field; a field that has faulted already
runs nothing more and faults no second time (R293). The record's SPC is the scalar PC, unless it names
one itself. -/
def State.terminal (s : State) (fid sw : Nat) (r : RingRec) (at_ : Option W64 := none) : State :=
  match s.field? fid with
  | none => s
  | some f =>
    if f.status == .faulted then s
    else
    let s := s.logFault f sw r.cause r.va (fld r.coords 48 39)
    let ltag := ((mget s.launches f.launch).map (·.ltag)).getD 0
    let spc := at_.getD (((mget f.sws sw).map (·.regs.pc)).getD 0)
    let s := s.faultField fid
    s.terminalRecord (f.core / 48) f.ctx { r with ltag := ltag, spc := spc }

/-- The payload of a park's record (R423): the scalar region entry, SEQ of `sr.rgn`, and the region entries
of both live fragments, 0 for one that does not live, packed as notes/assumptions/150.md says. -/
def Swath.reexecWords (w : Swath) : W64 × W64 :=
  let rpc (g : Option Frag) : Nat := (g.map (·.rpc.toNat)).getD 0
  let a := rpc w.lanes.f0
  let b := rpc w.lanes.f1
  (w64 (w.regs.rgnEntry.toNat % 2 ^ 56 + b % 2 ^ 8 * 2 ^ 56),
   w64 (w.regs.rgnSeq.toNat + a * 2 ^ 8 + b / 2 ^ 8 * 2 ^ 40))

/-- A park is recorded (R423). -/
def State.logReexec (s : State) (f : Field) (sw : Nat) (w : Swath) : State :=
  let (p0, p1) := w.reexecWords
  s.logEvent (f.core / 48) f.ctx 17 (f.coords sw 0) p0 p1

/-- What a replay says of a park of a swath (R425): an outcome other than the record's is no event that the
log holds. -/
def parkGate (s : State) (f : Field) (sw : Nat) (w : Swath) : Gate :=
  let (p0, p1) := w.reexecWords
  match replayGate s (f.core / 48) f.ctx 17 (f.coords sw 0) p0 with
  | .go (some v) => if v == p1 then .go none else .stop
  | g => g

/-- Rung 3: the record goes to the servicer and the swath parks (R291, R292). Under REPLAY a park that is
not the next event of the log waits, its instruction having had no effect, and one that the log does not
hold stops its field (R425). -/
def State.park (s : State) (fid sw : Nat) (src : Bool) (lpc : W32) (r : Raise) : State :=
  match s.field? fid with
  | none => s
  | some f =>
    let ltag := ((mget s.launches f.launch).map (·.ltag)).getD 0
    match mget f.sws sw with
    | none => s
    | some w =>
      let rec_ := { faultRec f sw w.ctl.level src lpc r with ltag := ltag, spc := w.regs.pc }
      match parkGate s f sw w with
      | .hold => s
      | .stop => s.updField fid Field.cmdStop
      | .go _ =>
      let s := (s.logFault f sw r.cause.code r.va r.lane).logReexec f sw w
      let s := s.updSwathAt fid sw (fun w => w.parkOn
        { cause := r.cause.code, va := r.va, code := r.code, src := src, level := w.ctl.level,
          lane := r.lane, lpc := if src then lpc else 0, spc := w.regs.pc })
      s.toServicer (f.core / 48) f.ctx (f.coords sw r.lane) 0 (.swath fid sw) r rec_

/-- A requester becomes ready (R292, R309). -/
def State.wake (s : State) (q : Requester) : State :=
  match q with
  | .swath fid sw =>
    (s.updSwathAt fid sw (fun w => { w with ctl := { w.ctl with parked := none } })).makeReady fid
  | .arena fid => s.updField fid (fun f => { f with arena := false })
  | .line fid sw => s.updSwathAt fid sw (fun w => { w with ctl := { w.ctl with lineWait := false } })
  | .slot uid => s.retrySlot uid
  | .ring c retry => s.resumeRing c retry
  | .exporting uid =>
    { s with exportWaits := s.exportWaits.map (fun (x : ExportWait) =>
               if x.uid == uid then { x with service := false } else x),
             agenda := s.agenda ++ [.exportRetry uid] }
  | .chain fid sw i =>
    s.updSwathAt fid sw (fun w => { w with eng := { w.eng with
      chains := w.eng.chains.map (fun c => if c.uid = i then { c with waiting := false } else c) } })
  | .xfer fid sw i =>
    s.updSwathAt fid sw (fun w => { w with eng := { w.eng with
      xfers := w.eng.xfers.map (fun c => if c.uid = i then { c with waiting := false } else c) } })
  | .agent l =>
    let s := s.updLaunch l (fun x => { x with complWait := false })
    { s with claims := mmap s.claims (fun core c =>
        if core == l then { c with waiting := false } else c) }
  | .tolerant => s
  | .pfh => s

/-! ### Taking a vectoring event (R239, R240) -/

/-- The handler entry of a context. -/
def State.handler (s : State) (c : Nat) : W64 := ((s.ctx? c).map (·.handler)).getD 0

/-- The frame of a vectoring event; its PC is that of the scalar stream. -/
def trapFrame (w : Swath) (src : Bool) (lpc : W32) (r : Raise) : TFrame :=
  { cause := r.cause.code, code := BitVec.ofNat 11 r.code, src := src, tpc := w.regs.pc, tva := r.va,
    tlpc := if src then lpc else 0 }

/-- The waiting forms that a handler entry interrupts: what they waited in is executed again after
`TRET`. A window form that waits for its registration is in progress, and completes first (R239). -/
def SWait.interrupted : SWait → Bool
  | .wreg _ => false
  | _ => true

/-- The scalar stream goes to the handler: the current frame's PC is its PC, and the frame keeps that a
`BARS` there has made its arrival (R66, R239). A scalar PC's two low bits are 0 (R16). -/
def Swath.goHandler (w : Swath) (handler : W64) : Swath :=
  let fill (fr : TFrame) : TFrame :=
    { fr with tpc := w.regs.pc, bars := if w.meet.barsDone then some w.meet.barsPc else none }
  { w with
    regs := { w.regs with pc := handler &&& ~~~(3 : W64) },
    meet := { w.meet with barsDone := false },
    ctl := { w.ctl with f1 := if w.ctl.level = 1 then fill w.ctl.f1 else w.ctl.f1,
                        f2 := if w.ctl.level = 2 then fill w.ctl.f2 else w.ctl.f2,
                        wait := .none, entering := false, yielded := false } }

/-- A handler entry: LEVEL rises, the frame is filled, and the scalar stream goes to the handler at its
next instruction boundary (R239). -/
def Swath.enterHandler (w : Swath) (handler : W64) (fr : TFrame) : Swath :=
  let l := w.ctl.level + 1
  let w := { w with ctl := { w.ctl with level := l, f1 := if l = 1 then fr else w.ctl.f1,
                                        f2 := if l = 2 then fr else w.ctl.f2 } }
  if w.ctl.wait.interrupted then w.goHandler handler
  else { w with ctl := { w.ctl with entering := true } }

/-- The scalar instruction in progress has completed: a handler entry that waited for it goes on. -/
def Swath.boundary (w : Swath) (handler : W64) : Swath :=
  if w.ctl.entering then w.goHandler handler else w

/-- The lane side: a TRAP entry is pushed and the fragment is held over the lanes that failed. Its ATOK and
ABARS are 0 (notes/assumptions/159.md). -/
def Swath.holdHandler (w : Swath) (second : Bool) (f : Frag) (lanes : LaneMask) : Swath :=
  let e : StackEnt :=
    { mask := f.mask, jpc := f.pc, apc := 0, kind := .trap w.ctl.level, nest := w.lanes.dual.isSome,
      arm := w.lanes.dual.isSome && second, abars := false, hbar := none, endPc := f.endPc,
      born := 0, heldArm := false, conv := false,
      jfmt := f.fmt, afmt := 0, atok := 0 }
  { w with lanes := { w.lanes.put second { f with mask := lanes, held := true, pend := false, pendAt := 0,
                                                  endPc := none, wait := .ready } with
                      stack := w.lanes.stack ++ [e] } }

/-- A fault, or a trap, of a scalar instruction: the ladder of R289. -/
def State.scalarFault (s : State) (F : Focus) (r : Raise) : State :=
  match F.pager with
  | some d =>
    -- a pager core stops, and Heath logs and restarts it (R301)
    let s := s.heathLog 12 0 d 0 (w64 r.cause.code.toNat)
    { s with pagers := mupd s.pagers d (fun p => { p with running := false }) }
  | none =>
    match s.field? F.fid, s.swathAt F.fid F.sw with
    | some f, some w =>
      let h := s.handler F.ctx
      if r.cause.vectoring && w.ctl.entering then
        -- the trap that waited for this instruction comes first; the instruction had no effect
        s.updSwath F.party (fun w => w.boundary h)
      else if r.cause.vectoring && h != 0 && decide (F.level < 2) then
        (s.logFault f F.sw r.cause.code r.va 0).updSwath F.party (fun w =>
          w.enterHandler h (trapFrame w false 0 r))
      else if r.cause = .software && h != 0 then
        s.terminal F.fid F.sw (faultRec f F.sw w.ctl.level false 0 { r with cause := .trapNest })
      else if r.cause.parks then s.park F.fid F.sw false 0 r
      else s.terminal F.fid F.sw (faultRec f F.sw w.ctl.level false 0 r)
    | _, _ => s

/-- A fault of a lane instruction of fragment `g` (R239, R240, R289). -/
def State.laneFault (s : State) (F : Focus) (g : Frag) (second : Bool) (r : Raise) : State :=
  match s.field? F.fid, s.swathAt F.fid F.sw with
  | some f, some w =>
    let h := s.handler F.ctx
    if r.cause.vectoring && h != 0 && decide (0 < F.level) && !w.lanes.isHandler second then
      -- it waits behind the faults raised before it (R240)
      { s.updSwath F.party (fun w => w.updFrag second (fun g =>
          { g with pend := true, pendAt := s.nextUid + 1 })) with nextUid := s.nextUid + 1 }
    else if r.cause.vectoring && h != 0 && decide (F.level < 2) then
      if 64 ≤ w.lanes.stack.length then
        s.terminal F.fid F.sw
          { faultRec f F.sw w.ctl.level true g.pc { r with cause := .stackOverflow } with
            cause2 := r.cause.code }
      else
        (s.logFault f F.sw r.cause.code r.va r.lane).updSwath F.party (fun w =>
          (w.enterHandler h (trapFrame w true g.pc r)).holdHandler second g r.lanes)
    else if r.cause.parks then s.park F.fid F.sw true g.pc r
    else s.terminal F.fid F.sw (faultRec f F.sw w.ctl.level true g.pc r)
  | _, _ => s

end Sys2Proof.Machine
end

