-- ==== Sys2Proof/Machine/Operands.lean ====
section
/-! DEFINITION. Operand forms and the issue of one instruction: reading and writing registers, the
checks of R26, R28 and R38 in the order of R436, and the commit of a completed instruction. -/

namespace Sys2Proof.Machine
open Sys2Proof

abbrev Result := Host.Outcome State Fault Refusal

/-! ### Scalar registers (R29, R30) -/

/-- `x`n; `x0` reads 0. -/
def Swath.xr (w : Swath) (n : BitVec 6) : W64 := if n = 0 then 0 else mgetD w.regs.x n.toNat 0

/-- Write `x`n; a write to `x0` is discarded. -/
def Swath.setX (w : Swath) (n : Nat) (v : W64) : Swath :=
  if n = 0 then w else { w with regs := { w.regs with x := mput w.regs.x n v } }

def Swath.setXs (w : Swath) (l : List (Nat × W64)) : Swath := l.foldl (fun w (n, v) => w.setX n v) w

/-- The pair `x`n, `x`n+1, n even. -/
def Swath.xpair (w : Swath) (n : BitVec 5) : W64 × W64 :=
  (w.xr (n ++ 0#1), w.xr (n ++ 1#1))

def Swath.addFlags (w : Swath) (f : Flags) : Swath :=
  { w with regs := { w.regs with flags := w.regs.flags ||| f } }

/-! ### The scoreboard and the region check (R26, R28) -/

/-- `x0` and `k0`, to which nothing is ever written (R29). -/
def RegName.hardwired : RegName → Bool
  | .x n => n == 0
  | .k n => n == 0
  | _ => false

/-- A register that the region check exempts: `x0`, `k0`, and what is no `x`, `v`, `k` or `w`. -/
def RegName.exempt : RegName → Bool
  | .sr _ => true
  | r => r.hardwired

/-- `STALL_SHORT`: a register read still lacks issue slots of a fixed-latency result. -/
def stallShort (chk : BitVec 2) (sb : List Need) (reads : List RegName) : Bool :=
  chk.getLsbD 0 && sb.any (fun n => reads.contains n.reg)

/-- `REGION_WAR`: a register written was read in the region, or by the same instruction. -/
def regionWar (chk : BitVec 2) (rset writes : List RegName) : Bool :=
  chk.getLsbD 1 && writes.any (fun r => !r.exempt && rset.contains r)

/-- The needs after an instruction has issued (R45, R74). `whole`: it writes its registers in every lane
that a later instruction could read, so that nothing reads what an earlier one left there; a guarded
write leaves the earlier result in the other lanes, and its need with it. -/
def nextNeeds (sb : List Need) (stall : Nat) (writes : List RegName) (lat : Option Nat)
    (whole : Bool := true) : List Need :=
  let old := sb.filterMap (fun n =>
    if n.left ≤ 1 + stall || (whole && writes.contains n.reg) then none
    else some { n with left := n.left - (1 + stall) })
  match lat with
  | some l => if l ≤ stall then old
              else old ++ (writes.filter (fun r => !r.hardwired)).map
                (fun r => { reg := r, left := l - stall })
  | none => old

/-- Registers read, added to the region's set. -/
def addReads (rset reads : List RegName) : List RegName :=
  rset ++ reads.filter (fun r => !rset.contains r)

/-! ### Issuing a scalar instruction -/

/-- What the issue of a scalar instruction needs to know of its form. -/
structure SForm where
  stall : Nat
  /-- Bytes of the instruction: 8 for a LIT pair (R44). -/
  len : Nat := 4
  reads : List RegName := []
  writes : List RegName := []
  /-- The fixed latency of its results; none when it varies (R45). -/
  lat : Option Nat := none
  /-- Region-ending (R46, R144, R201). -/
  ends : Bool := false
  /-- Present on a pager core, and only there (R301, R236). -/
  onPager : Bool := true
  offPager : Bool := true
  /-- The class whose counter it raises; at 255 the instruction is not ready (R143). -/
  cls : Option Nat := none

/-- What the body of a scalar instruction comes to. -/
inductive SOut
  | done (s : State) (wr : List (Nat × W64)) (pc : Option W64)
  | trap (r : Raise)
  | wait (s : State) (w : SWait)
  /-- Nothing is performed; the instruction is tried again (R143, R265, R328). -/
  | hold (s : State)

/-- A new scalar region begins at the PC (R290); suppressed at LEVEL 1 and 2 (R244). -/
def Swath.scalarRegion (w : Swath) : Swath :=
  if w.ctl.level = 0 then
    { w with regs := { w.regs with rgnEntry := w.regs.pc, rgnSeq := w.regs.rgnSeq + 1 },
             ctl := { w.ctl with rset := [] } }
  else w

/-- The bookkeeping of an issued scalar instruction. -/
def Swath.scalarIssued (w : Swath) (f : SForm) : Swath :=
  { w with ctl := { w.ctl with sb := nextNeeds w.ctl.sb f.stall f.writes f.lat,
                               rset := addReads w.ctl.rset f.reads } }

/-- A completed scalar instruction: results, PC, and a new region after a region-ending form. -/
def Swath.scalarDone (w : Swath) (wr : List (Nat × W64)) (pc : W64) (ends : Bool) : Swath :=
  let w := w.setXs wr
  let w := { w with regs := { w.regs with pc := pc } }
  if ends then w.scalarRegion else w

/-- The commit of a scalar instruction. -/
def Swath.scalarCommit (w : Swath) (f : SForm) (wr : List (Nat × W64)) (pc : Option W64) : Swath :=
  (w.scalarIssued f).scalarDone wr (pc.getD (w.regs.pc + w64 f.len)) f.ends

/-- A wait that is ended by what another step does, or whose form acts while it waits: what it may not
write is judged before it starts, so that a trap is precise (R28). -/
def SWait.acts : SWait → Bool
  | .waitm .. | .deq .. | .leaseop .. | .pgfill .. | .pgmove .. | .pgupg .. => true
  | _ => false

/-- A swath that starts to wait. -/
def Swath.startWait (w : Swath) (f : SForm) (k : SWait) : Swath :=
  let w := w.scalarIssued f
  { w with ctl := { w.ctl with wait := k } }

/-- The outstanding-operation counter of a class: copy, matrix, gather, window (R143). -/
def Engines.counter (e : Engines) (cls : Nat) : Nat :=
  match cls with
  | 0 => e.copies | 1 => e.matrix | 2 => e.gathers | _ => e.windows

/-- Issue a scalar instruction: the checks that every form shares, its body, and its commit. -/
def scalarIssue (f : SForm) (body : Focus → Swath → State → SOut) (s : State) : Result :=
  match s.scalarFocus with
  | none => .fault .noStream
  | some (F, w) =>
    if f.cls.any (fun c => decide (255 ≤ w.eng.counter c)) then .next s
    else if (if F.pager.isSome then !f.onPager else !f.offPager) then
      .next (s.scalarFault F (raise .illegal))
    else if stallShort w.regs.chk w.ctl.sb f.reads then .next (s.scalarFault F (raise .stallShort))
    else match body F w s with
      | .trap r => .next (s.scalarFault F r)
      | .hold s' => .next s'
      | .wait s' k =>
        if k.acts && regionWar w.regs.chk (addReads w.ctl.rset f.reads) f.writes then
          .next (s.scalarFault F (raise .regionWar))
        else .next (s'.updSwath F.party (fun w => w.startWait f k))
      | .done s' wr pc =>
        if regionWar w.regs.chk (addReads w.ctl.rset f.reads) f.writes then
          .next (s.scalarFault F (raise .regionWar))
        else .next (s'.updSwath F.party (fun w =>
          (w.scalarCommit f wr pc).boundary (s'.handler F.ctx)))

/-- A form that reads `x` registers and writes one, of fixed latency. -/
def SForm.alu (st : BitVec 2) (lat : Nat) (d : BitVec 6) (srcs : List (BitVec 6)) : SForm :=
  { stall := st.toNat, reads := srcs.map (fun r => .x r.toNat), writes := [.x d.toNat],
    lat := some lat }

/-- A form of variable latency. -/
def SForm.var (st : BitVec 2) (ds srcs : List (BitVec 6)) : SForm :=
  { stall := st.toNat, reads := srcs.map (fun r => .x r.toNat),
    writes := ds.map (fun r => .x r.toNat) }

/-- A register-register form that computes one result (R47). -/
def scalarAlu (st : BitVec 2) (lat : Nat) (d a b : BitVec 6) (op : W64 → W64 → W64) (s : State) :
    Result :=
  scalarIssue (.alu st lat d [a, b])
    (fun _ w s => .done s [(d.toNat, op (w.xr a) (w.xr b))] none) s

/-- A swath's scalar stream seen from an event. -/
def State.focusAt (s : State) (fid sw : Nat) : Option (Focus × Swath) :=
  match s.field? fid with
  | some f => (mget f.sws sw).map (fun w => (focusOf f fid sw (.scalar fid sw) w, w))
  | none => none

/-- The same, of a field that stands on a core. -/
def State.residentAt (s : State) (fid sw : Nat) : Option (Focus × Swath) :=
  match s.field? fid with
  | some f => if f.status == FStatus.resident then s.focusAt fid sw else none
  | none => none

/-- A waiting instruction completes: the region check, before any effect; then what it does to its
swath, its results, the next PC (R28, R44). -/
def State.endWait (s : State) (F : Focus) (wr : List (Nat × W64)) (ends : Bool)
    (act : Swath → Swath := id) : State :=
  match s.swathOf F.party with
  | none => s
  | some w =>
    if regionWar w.regs.chk w.ctl.rset (wr.map (fun (n, _) => .x n)) then
      (s.updSwath F.party (fun w => { w with ctl := { w.ctl with wait := .none } })).scalarFault F
        (raise .regionWar)
    else s.updSwath F.party (fun w =>
      { act w with ctl := { (act w).ctl with wait := .none } }.scalarDone wr (w.regs.pc + 4) ends)

/-- A waiting instruction faults: the wait ends and the fault is taken at its PC. -/
def State.failWait (s : State) (F : Focus) (r : Raise) : State :=
  (s.updSwath F.party (fun w => { w with ctl := { w.ctl with wait := .none } })).scalarFault F r

/-! ### Lane registers and operands (R22-R24, R70, R71) -/

/-- Predicate `k`n over all lanes; `k0` reads 1. -/
def Swath.kr (w : Swath) (n : BitVec 4) : LaneMask :=
  if n = 0 then BitVec.allOnes 1024 else mgetD w.regs.k n.toNat 0

/-- Write a predicate in the lanes of `m`; a write to `k0` is discarded. -/
def Swath.setK (w : Swath) (n : BitVec 4) (m v : LaneMask) : Swath :=
  if n = 0 then w
  else { w with regs := { w.regs with k := mput w.regs.k n.toNat ((v &&& m) ||| (w.kr n &&& ~~~m)) } }

def Swath.vr (w : Swath) (r l : Nat) : Nat := (mgetD w.regs.v (r * 1024 + l) 0).toNat

def Swath.setV (w : Swath) (r l v : Nat) : Swath :=
  { w with regs := { w.regs with v := mput w.regs.v (r * 1024 + l) (w32 v) } }

/-- `n` consecutive registers as one value, the first least significant. -/
def Swath.vrN (w : Swath) (r l : Nat) : Nat → Nat
  | 0 => 0
  | n + 1 => w.vr r l + 2 ^ 32 * w.vrN (r + 1) l n

def Swath.setVN (w : Swath) (r l v : Nat) : Nat → Swath
  | 0 => w
  | n + 1 => (w.setV r l (v % 2 ^ 32)).setVN (r + 1) l (v / 2 ^ 32) n

def tyWide : LTy → Bool
  | .n64 | .s64 => true
  | _ => false

def tySigned : LTy → Bool
  | .s32 | .s64 | .s16x2 | .s8x4 => true
  | _ => false

/-- Registers that an operand of a type occupies. -/
def tyRegs (t : LTy) : Nat := if tyWide t then 2 else 1

/-- Bits of an operand of a type. -/
def tyBits (t : LTy) : Nat := if tyWide t then 64 else 32

/-- The value of an operand in lane `l` (R23). -/
def opVal (o : Opnd) (w : Swath) (t : LTy) (l : Nat) : Nat :=
  match o with
  | .reg r => w.vrN r.toNat l (tyRegs t)
  | .uni u => (mgetD w.regs.wL u.toNat 0).toNat % 2 ^ tyBits t
  | .imm i => if t == .s64 then (sx64 i).toNat else i.toNat

/-- The registers that hold a value of `n` registers from `r`. -/
def vregs (r n : Nat) : List RegName := (List.range n).map (fun i => .v (r + i))

/-- The registers that an operand reads. -/
def opNames (o : Opnd) (t : LTy) : List RegName :=
  match o with
  | .reg r => vregs r.toNat (tyRegs t)
  | .uni u => [.w u.toNat]
  | .imm _ => []

/-- The address of a memory operand in lane `l` (R24). -/
def memAddr (m : MemOp) (w : Swath) (l : Nat) : Nat :=
  let base := match m.base with
    | .pair r => w.vrN r.toNat l 2
    | .uni u => (mgetD w.regs.wL u.toNat 0).toNat
  let idx := match m.idx with
    | some r => (sx64 (w32 (w.vr r.toNat l)) <<< m.sc.toNat).toNat
    | none => 0
  (base + idx + (sx64 m.disp).toNat) % 2 ^ 64

def memNames (m : MemOp) : List RegName :=
  (match m.base with
   | .pair r => vregs r.toNat 2
   | .uni u => [.w u.toNat])
  ++ (match m.idx with
      | some r => [.v r.toNat]
      | none => [])

/-! ### Issuing a lane instruction -/

/-- What the issue of a lane instruction needs to know of its form. -/
structure LForm where
  h : LHdr
  reads : List RegName := []
  writes : List RegName := []
  lat : Option Nat := none
  ends : Bool := false
  /-- Acts over the whole fragment mask (R73). -/
  whole : Bool := false
  /-- The registers of `writes` that it may leave as they are in an active lane (R207). -/
  loose : List RegName := []

/-- What the body of a lane instruction comes to. -/
inductive LOut
  /-- Done; the fragment goes on at the next lane PC. -/
  | done (s : State)
  /-- Done; the fragment goes on at a lane PC. -/
  | goto (s : State) (pc : W32)
  /-- Done; the body says what becomes of the issued fragment. -/
  | split (s : State) (g : Swath → Frag → Swath)
  | trap (r : Raise)
  /-- The arrival, if any, is made and the fragment waits. -/
  | wait (s : State) (w : FWait)
  /-- Nothing is performed; the instruction is tried again. -/
  | hold (s : State)

/-- The active set of an instruction (R70). -/
def activeSet (w : Swath) (g : Frag) (h : LHdr) : LaneMask :=
  g.mask &&& (if h.neg then ~~~(w.kr h.guard) else w.kr h.guard)

/-- A lane region entry at the fragment's PC (R290); suppressed at LEVEL 1 and 2 (R244). -/
def Frag.region (g : Frag) (level : Nat) : Frag :=
  if level = 0 then { g with rpc := g.pc, rfmt := g.fmt, rset := [] } else g

/-- The bookkeeping of an issued lane instruction; a fault that was pending has been taken (R240). -/
def Frag.issued (g : Frag) (f : LForm) : Frag :=
  { g with sb := nextNeeds g.sb f.h.stall.toNat (f.writes.filter (fun r => !f.loose.contains r)) f.lat
                   (f.whole || (f.h.guard == 0 && !f.h.neg)),
           pendAt := 0,
           rset := addReads g.rset (.k f.h.guard.toNat :: f.reads) }

/-- The commit of a lane instruction that goes on at `pc`. -/
def Frag.commit (g : Frag) (f : LForm) (level : Nat) (pc : W32) : Frag :=
  let g := { g.issued f with pc := pc }
  if f.ends then g.region level else g

/-- A register number at or beyond the swath's count (R29, R38). -/
def beyondCount (w : Swath) (l : List RegName) : Bool :=
  l.any (fun r => match r with | .v n => decide (w.vregs ≤ n) | _ => false)

/-- The registers whose reading the scoreboard and the region check see. -/
def LForm.allReads (f : LForm) : List RegName :=
  if f.whole then f.reads else .k f.h.guard.toNat :: f.reads

/-- The scoreboard holds an instruction for an `LRED` or `VOTE` of its fragment whose `w` it reads or
writes (R26, R90). -/
def heldByLate (l : LaneStream) (second : Bool) (f : LForm) : Bool :=
  l.late.any (fun r => r.second == second && (f.reads ++ f.writes).contains (.w r.w))

/-- Issue a lane instruction. The body gets the active set. -/
def laneIssue (f : LForm) (body : Focus → Swath → Frag → LaneMask → State → LOut) (s : State) :
    Result :=
  match s.laneFocus with
  | none => .fault .noStream
  | some (F, w, g, second) =>
    if beyondCount w (f.reads ++ f.writes) then .next (s.laneFault F g second (raise .illegal))
    else if stallShort w.regs.chk g.sb f.allReads then
      .next (s.laneFault F g second (raise .stallShort))
    else if heldByLate w.lanes second f then .next s
    else
      let g0 := g
      let s0 := s
      let g := if f.h.mark then g.region F.level else g
      let w := if f.h.mark then { w with lanes := w.lanes.put second g } else w
      let s := if f.h.mark then s.updSwath F.party (fun _ => w) else s
      let m := if f.whole then g.mask else activeSet w g f.h
      match body F w g m s with
      | .trap r =>
        -- no region entry is recorded for a word that raises ILLEGAL (R38)
        if r.cause == .illegal then .next (s0.laneFault F g0 second r)
        else .next (s.laneFault F g second r)
      | .hold s' => .next (s'.updSwath F.party (fun w =>
          w.updFrag second (fun g => { g with charged := true })))
      | out =>
        if regionWar w.regs.chk (addReads g.rset f.allReads) f.writes then
          .next (s.laneFault F g second (raise .regionWar))
        else match out with
          | .done s' => .next (s'.updSwath F.party (fun w =>
              w.updFrag second (fun g => g.commit f F.level (g.pc + 1))))
          | .goto s' pc => .next (s'.updSwath F.party (fun w =>
              w.updFrag second (fun g => g.commit f F.level pc)))
          | .split s' k => .next (s'.updSwath F.party (fun w =>
              match w.lanes.get second with
              | some g => k w (g.issued f)
              | none => w))
          | .wait s' k => .next (s'.updSwath F.party (fun w =>
              w.updFrag second (fun g => { g.issued f with wait := k })))
          | _ => .next s

/-! ### Elementwise lane forms (R71, R72, R185) -/

/-- Flags that lane instructions raised, not yet covered by an `LWAIT` (R69, R72). -/
def Swath.addLaneFlags (w : Swath) (f : Flags) : Swath :=
  if f = 0 then w
  else { w with regs := { w.regs with laneFlags := w.regs.laneFlags ++ [(w.meet.issued, f)] } }

/-- The draw number `i` (from 0) after the state `x`. -/
def nthDraw (x : W32) : Nat → W32
  | 0 => drawGen x
  | i + 1 => nthDraw (drawGen x) i

/-- Advance the generator of lane `l` by `n` draws. -/
def Swath.advance (w : Swath) (l n : Nat) : Swath :=
  match n with
  | 0 => w
  | k + 1 => { w with eng := { w.eng with lgen := mput w.eng.lgen l (nthDraw (w.eng.laneGen l) k) } }

/-- A lane's result: the bits written and the flags. -/
abbrev LaneFn := Swath → Frag → Nat → (Nat → Nat) → Nat × Flags

/-- Apply a per-lane function over the lanes of `m`, every source read before any destination is
written; `draws` says how many draws each lane makes under SRN. -/
def runLanes (w0 : Swath) (g : Frag) (m : LaneMask) (draws : Nat) (f : LaneFn)
    (put : Swath → Nat → Nat → Swath) : Swath :=
  let step (w : Swath × Flags) (l : Nat) : Swath × Flags :=
    let (v, fl) := f w0 g l (fun i => (nthDraw (w0.eng.laneGen l) i).toNat)
    ((put w.1 l v).advance l draws, w.2 ||| fl)
  let (w, fl) := (lanesOf m).foldl step (w0, 0)
  w.addLaneFlags fl

/-- An elementwise form that writes `n` registers from `vd`. -/
def laneElem (h : LHdr) (lat : Option Nat) (reads : List RegName) (vd n : Nat)
    (draws : Frag → Nat) (f : LaneFn) (s : State) : Result :=
  laneIssue { h := h, reads := reads, writes := vregs vd n, lat := lat }
    (fun F w g m s =>
      .done (s.updSwath F.party (fun _ =>
        runLanes w g m (draws g) f (fun w l v => w.setVN vd l v n)))) s

/-- The effective rounding mode: the override in sub, or the lane view of `sr.fmt.RM` (R78). -/
def effMode (sub : BitVec 4) (g : Frag) : Mode := if sub = 0 then fmtRM g.fmt else sub.toNat - 1

/-- One draw a lane in SRN (R185). -/
def drawsIf (k : Nat) (sub : BitVec 4) (g : Frag) : Nat := if effMode sub g = SRN then k else 0

end Sys2Proof.Machine
end

