-- ==== Sys2Proof/Machine/ScalarInt.lean ====
section
/-! DEFINITION. The scalar integer forms: register-register arithmetic, division, immediate forms and
`MOVPC` (R45, R47-R51). -/

namespace Sys2Proof.Machine
open Sys2Proof

/-! ### The functions of R47 and R49 -/

/-- 1 or 0 in a register. -/
def boolW (b : Bool) : W64 := if b then 1 else 0

/-- The high 64 bits of the signed and of the unsigned product. -/
def mulHigh (a b : W64) : W64 := BitVec.ofInt 64 (a.toInt * b.toInt / 2 ^ 64)
def mulHighU (a b : W64) : W64 := w64 (a.toNat * b.toNat / 2 ^ 64)

def minS (a b : W64) : W64 := if BitVec.slt b a then b else a
def maxS (a b : W64) : W64 := if BitVec.slt a b then b else a
def minU (a b : W64) : W64 := if BitVec.ult b a then b else a
def maxU (a b : W64) : W64 := if BitVec.ult a b then b else a

/-- The shift amount of a register form (R47). -/
def shAmt (b : W64) : Nat := b.toNat % 64

/-- The comparisons of `CMP` and the branches: eq, ne, lt, ge, ltu, geu (R36). -/
def scalarCmp (cc : Nat) (a b : W64) : Bool :=
  match cc with
  | 0 => a == b
  | 1 => a != b
  | 2 => BitVec.slt a b
  | 3 => !BitVec.slt a b
  | 4 => BitVec.ult a b
  | _ => !BitVec.ult a b

/-- Signed division of R49, toward zero. -/
def divS (a b : W64) : W64 :=
  if b = 0 then BitVec.allOnes 64 else BitVec.ofInt 64 (Int.tdiv a.toInt b.toInt)
def remS (a b : W64) : W64 :=
  if b = 0 then a else BitVec.ofInt 64 (Int.tmod a.toInt b.toInt)
def divU (a b : W64) : W64 := if b = 0 then BitVec.allOnes 64 else a / b
def remU (a b : W64) : W64 := if b = 0 then a else a % b

/-- A division: DZ is set when the divisor is 0; its latency varies (R45, R49). -/
def scalarDivide (st : BitVec 2) (d a b : BitVec 6) (op : W64 → W64 → W64) (s : State) : Result :=
  scalarIssue (.var st [d] [a, b])
    (fun F w s =>
      .done (if w.xr b = 0 then s.updSwath F.party (fun w => w.addFlags flDZ) else s)
        [(d.toNat, op (w.xr a) (w.xr b))] none) s

/-- A form that reads one register (R47). -/
def scalarUnary (st : BitVec 2) (d a : BitVec 6) (op : W64 → W64) (s : State) : Result :=
  scalarIssue (.alu st 1 d [a]) (fun _ w s => .done s [(d.toNat, op (w.xr a))] none) s

/-- An immediate form; `len` is 8 under a LIT (R50). -/
def scalarImm (st : BitVec 2) (lat : Nat) (d a : BitVec 6) (imm : W64) (len : Nat)
    (op : W64 → W64 → W64) (s : State) : Result :=
  scalarIssue { SForm.alu st lat d [a] with len := len }
    (fun _ w s => .done s [(d.toNat, op (w.xr a) imm)] none) s

/-! ### Register-register forms (R47-R49) -/

def execAdd (d a b : BitVec 6) (st : BitVec 2) (s : State) : Result :=
  scalarAlu st 0 d a b (· + ·) s

def execSub (d a b : BitVec 6) (st : BitVec 2) (s : State) : Result :=
  scalarAlu st 0 d a b (· - ·) s

def execMul (d a b : BitVec 6) (st : BitVec 2) (s : State) : Result :=
  scalarAlu st 2 d a b (· * ·) s

def execMulh (d a b : BitVec 6) (st : BitVec 2) (s : State) : Result :=
  scalarAlu st 2 d a b mulHigh s

def execMulhu (d a b : BitVec 6) (st : BitVec 2) (s : State) : Result :=
  scalarAlu st 2 d a b mulHighU s

def execAnd (d a b : BitVec 6) (st : BitVec 2) (s : State) : Result :=
  scalarAlu st 0 d a b (· &&& ·) s

def execOr (d a b : BitVec 6) (st : BitVec 2) (s : State) : Result :=
  scalarAlu st 0 d a b (· ||| ·) s

def execXor (d a b : BitVec 6) (st : BitVec 2) (s : State) : Result :=
  scalarAlu st 0 d a b (· ^^^ ·) s

def execShl (d a b : BitVec 6) (st : BitVec 2) (s : State) : Result :=
  scalarAlu st 0 d a b (fun x y => x <<< shAmt y) s

def execShr (d a b : BitVec 6) (st : BitVec 2) (s : State) : Result :=
  scalarAlu st 0 d a b (fun x y => x >>> shAmt y) s

def execSar (d a b : BitVec 6) (st : BitVec 2) (s : State) : Result :=
  scalarAlu st 0 d a b (fun x y => x.sshiftRight (shAmt y)) s

def execMin (d a b : BitVec 6) (st : BitVec 2) (s : State) : Result :=
  scalarAlu st 0 d a b minS s

def execMinu (d a b : BitVec 6) (st : BitVec 2) (s : State) : Result :=
  scalarAlu st 0 d a b minU s

def execMax (d a b : BitVec 6) (st : BitVec 2) (s : State) : Result :=
  scalarAlu st 0 d a b maxS s

def execMaxu (d a b : BitVec 6) (st : BitVec 2) (s : State) : Result :=
  scalarAlu st 0 d a b maxU s

def execDiv (d a b : BitVec 6) (st : BitVec 2) (s : State) : Result :=
  scalarDivide st d a b divS s

def execDivu (d a b : BitVec 6) (st : BitVec 2) (s : State) : Result :=
  scalarDivide st d a b divU s

def execRem (d a b : BitVec 6) (st : BitVec 2) (s : State) : Result :=
  scalarDivide st d a b remS s

def execRemu (d a b : BitVec 6) (st : BitVec 2) (s : State) : Result :=
  scalarDivide st d a b remU s

def execCmp (d a b : BitVec 6) (c : BitVec 5) (st : BitVec 2) (s : State) : Result :=
  scalarAlu st 0 d a b (fun x y => boolW (scalarCmp c.toNat x y)) s

/-- `SEL`: the condition register is `x`c, c from 0 to 31 (R48). -/
def execSel (d a b : BitVec 6) (c : BitVec 5) (st : BitVec 2) (s : State) : Result :=
  scalarIssue (.alu st 0 d [a, b, c.setWidth 6])
    (fun _ w s => .done s [(d.toNat, if w.xr (c.setWidth 6) = 0 then w.xr b else w.xr a)] none) s

def execClz (d a : BitVec 6) (st : BitVec 2) (s : State) : Result :=
  scalarUnary st d a (fun x => w64 (leadingZeros x 64)) s

def execCtz (d a : BitVec 6) (st : BitVec 2) (s : State) : Result :=
  scalarUnary st d a (fun x => w64 (trailingZeros x 0 64)) s

def execPopc (d a : BitVec 6) (st : BitVec 2) (s : State) : Result :=
  scalarUnary st d a (fun x => w64 (onesBelow x 64)) s

/-! ### Immediate forms (R50): each takes its immediate and length, for LIT pairs -/

def addiWith (st : BitVec 2) (d a : BitVec 6) (imm : W64) (len : Nat) (s : State) : Result :=
  scalarImm st 0 d a imm len (· + ·) s

def execAddi (d a : BitVec 6) (i : BitVec 11) (st : BitVec 2) (s : State) : Result :=
  addiWith st d a (sx64 i) 4 s

def andiWith (st : BitVec 2) (d a : BitVec 6) (imm : W64) (len : Nat) (s : State) : Result :=
  scalarImm st 0 d a imm len (· &&& ·) s

def execAndi (d a : BitVec 6) (i : BitVec 11) (st : BitVec 2) (s : State) : Result :=
  andiWith st d a (sx64 i) 4 s

def oriWith (st : BitVec 2) (d a : BitVec 6) (imm : W64) (len : Nat) (s : State) : Result :=
  scalarImm st 0 d a imm len (· ||| ·) s

def execOri (d a : BitVec 6) (i : BitVec 11) (st : BitVec 2) (s : State) : Result :=
  oriWith st d a (sx64 i) 4 s

def xoriWith (st : BitVec 2) (d a : BitVec 6) (imm : W64) (len : Nat) (s : State) : Result :=
  scalarImm st 0 d a imm len (· ^^^ ·) s

def execXori (d a : BitVec 6) (i : BitVec 11) (st : BitVec 2) (s : State) : Result :=
  xoriWith st d a (sx64 i) 4 s

def sltiWith (st : BitVec 2) (d a : BitVec 6) (imm : W64) (len : Nat) (s : State) : Result :=
  scalarImm st 0 d a imm len (fun x y => boolW (BitVec.slt x y)) s

def execSlti (d a : BitVec 6) (i : BitVec 11) (st : BitVec 2) (s : State) : Result :=
  sltiWith st d a (sx64 i) 4 s

def sltiuWith (st : BitVec 2) (d a : BitVec 6) (imm : W64) (len : Nat) (s : State) : Result :=
  scalarImm st 0 d a imm len (fun x y => boolW (BitVec.ult x y)) s

def execSltiu (d a : BitVec 6) (i : BitVec 11) (st : BitVec 2) (s : State) : Result :=
  sltiuWith st d a (sx64 i) 4 s

def muliWith (st : BitVec 2) (d a : BitVec 6) (imm : W64) (len : Nat) (s : State) : Result :=
  scalarImm st 2 d a imm len (· * ·) s

def execMuli (d a : BitVec 6) (i : BitVec 11) (st : BitVec 2) (s : State) : Result :=
  muliWith st d a (sx64 i) 4 s

def execShli (d a h : BitVec 6) (st : BitVec 2) (s : State) : Result :=
  scalarImm st 0 d a 0 4 (fun x _ => x <<< h.toNat) s

def execShri (d a h : BitVec 6) (st : BitVec 2) (s : State) : Result :=
  scalarImm st 0 d a 0 4 (fun x _ => x >>> h.toNat) s

def execSari (d a h : BitVec 6) (st : BitVec 2) (s : State) : Result :=
  scalarImm st 0 d a 0 4 (fun x _ => x.sshiftRight h.toNat) s

/-- `MOVPC`: the address of the instruction plus imm17 × 4 (R51). -/
def execMovpc (d : BitVec 6) (i : BitVec 17) (st : BitVec 2) (s : State) : Result :=
  scalarIssue (.alu st 0 d [])
    (fun _ w s => .done s [(d.toNat, w.regs.pc + (sx64 i <<< 2))] none) s

end Sys2Proof.Machine
end

