-- ==== Sys2Proof/Machine/Sha3.lean ====
section
/-! DEFINITION. The SHA3-256 digest of a message of one block, as the names of content lines use it
(R335). The function itself is PRESUMED as FIPS 202 gives it (notes/assumptions/50.md): its state is a
sheet of 5 by 5 words, word x + 5y at column x of row y, and its tables are computed from their
definitions. -/

namespace Sys2Proof.Machine
open Sys2Proof

/-- The word of a state at a column and a row, both taken modulo 5. -/
def sheetAt (a : List W64) (x y : Nat) : W64 := a.getD (x % 5 + 5 * (y % 5)) 0

/-- The parity of a column. -/
def columnParity (a : List W64) (x : Nat) : W64 :=
  (List.range 5).foldl (fun p y => p ^^^ sheetAt a x y) 0

/-- Step θ: every word takes in the parities of the columns on either side of its own. -/
def stepTheta (a : List W64) : List W64 :=
  let side (x : Nat) : W64 := columnParity a (x + 4) ^^^ (columnParity a (x + 1)).rotateLeft 1
  a.mapIdx (fun i v => v ^^^ side i)

/-- Where step π puts the word that stands at a place. -/
def piPlace (i : Nat) : Nat := i / 5 + 5 * ((2 * (i % 5) + 3 * (i / 5)) % 5)

/-- Steps ρ and π: the 24 words other than the first lie on one cycle of π, which begins at place 1, and
the t-th of them turns by the t-th triangular number. -/
def stepRhoPi (a : List W64) : List W64 :=
  ((List.range 24).foldl (fun (at_ : Nat × List W64) t =>
    (piPlace at_.1,
      at_.2.set (piPlace at_.1) ((a.getD at_.1 0).rotateLeft ((t + 1) * (t + 2) / 2 % 64)))) (1, a)).2

/-- Step χ: a word takes in the two that follow it in its row. -/
def stepChi (a : List W64) : List W64 :=
  a.mapIdx (fun i v => v ^^^ (~~~(sheetAt a (i + 1) (i / 5)) &&& sheetAt a (i + 2) (i / 5)))

/-- The residues of the powers of X modulo X^8 + X^6 + X^5 + X^4 + 1, from the first on. -/
def rcResidue : Nat → Nat
  | 0 => 1
  | t + 1 =>
    let r := 2 * rcResidue t
    if r < 256 then r else Nat.xor r 0x171

/-- The word that step ι of round `n` adds: bit 2^j − 1 is the constant term of the residue of
X^(7n + j), for j from 0 to 6. -/
def iotaWord (n : Nat) : W64 :=
  w64 ((List.range 7).foldl (fun v j => v + rcResidue (7 * n + j) % 2 * 2 ^ (2 ^ j - 1)) 0)

/-- One round. -/
def keccakRound (a : List W64) (n : Nat) : List W64 :=
  let b := stepChi (stepRhoPi (stepTheta a))
  b.set 0 (b.getD 0 0 ^^^ iotaWord n)

/-- The permutation: 24 rounds. -/
def keccakF (a : List W64) : List W64 := (List.range 24).foldl keccakRound a

/-- The kind byte and the line as one padded block of 136 bytes, in a state that is 0 beyond it. -/
def nameBlock (kind : Nat) (line : BitVec 1024) : List W64 :=
  let m := kind + 256 * line.toNat + 6 * 256 ^ 129 + 128 * 256 ^ 135
  (List.range 25).map (fun i => w64 (m / 2 ^ (64 * i)))

/-- Bytes 0 to 14 of a digest, byte 0 most significant. -/
def digestHash (out : List W64) : Nat :=
  (List.range 15).foldl (fun h i => h * 256 + fld (out.getD (i / 8) 0) (8 * (i % 8) + 7) (8 * (i % 8))) 0

/-- The HASH of a line of a kind (R335). -/
def lineHash (kind : Nat) (line : BitVec 1024) : Nat := digestHash (keccakF (nameBlock kind line))

end Sys2Proof.Machine
end

