-- ==== Sys2Proof/Machine/Directory.lean ====
section
/-! DEFINITION. The directory of a content region: references, allocation, the image and reclaim
(R335, R336, R338, R340, R341, R353, R356-R358, R360, R364-R366, R369). -/

namespace Sys2Proof.Machine
open Sys2Proof

/-! ### Names (R335, R336) -/

/-- The name of a hash, a chain index and a kind. -/
def nameOf (hash chain kind : Nat) : BitVec 128 := BitVec.ofNat 128 (hash * 256 + chain * 16 + kind)

def wellFormedName (n : BitVec 128) : Bool := n == 0 || nameKind n == 1 || nameKind n == 2

def State.setRegion (s : State) (id : Nat) (g : Region) : State :=
  { s with regions := mput s.regions id g }

/-- A name names a line of the region. -/
def present (s : State) (g : Region) (n : BitVec 128) : Bool :=
  wellFormedName n && n != 0 && (findName s g n).isSome

/-- The highest count, which stays (R338, R364). -/
def pinned : Nat := 0xFFFFFF

/-- The count of a name: 0 for the empty name, for one that is not present, and in a follower (R368). -/
def countOf (s : State) (id : Nat) (n : BitVec 128) : Nat :=
  match mget s.regions id with
  | none => 0
  | some g =>
    if g.follow || n == 0 then 0
    else match findName s g n with
      | some (_, e) => e.count
      | none => 0

/-- The four dwords of a region's descriptor, which Heath returns on request (R352). -/
def Region.descriptor (g : Region) : List W64 :=
  let st := match g.st with
    | .free => 0
    | .live => 1
    | .destroying => 2
  let tally (p : DirName → Bool) : Nat := (g.dir.filter (fun (_, e) => p e)).length
  [w64 (st + b2n g.follow * 2 ^ 2 + g.home * 2 ^ 3 + g.capk * 2 ^ 8 + g.owner * 2 ^ 28 + g.agent * 2 ^ 40),
   w64 (g.store / 65536 * 65536), w64 (g.dir.length + tally (fun e => e.count == pinned) * 2 ^ 24),
   w64 (tally (fun e => e.q && e.count == 0))]

/-- What Heath returns on request for a region ID: of a FREE one, a descriptor of zeros (R352). -/
def State.regionDescriptor (s : State) (id : Nat) : List Byte :=
  (((mget s.regions id).map Region.descriptor).getD [0, 0, 0, 0]).flatMap (fun v => leBytes 8 v.toNat)

/-! ### References (R338, R340, R365) -/

/-- Gain a reference on a present name. The references of a follower are none (R368). -/
def State.gainRef (s : State) (id : Nat) (n : BitVec 128) : State :=
  match mget s.regions id with
  | none => s
  | some g =>
    if g.follow || n == 0 then s
    else match findName s g n with
      | none => s
      | some (k, e) => s.setRegion id { g with dir := mput g.dir k { e with count := Nat.min (e.count + 1) pinned } }

/-- Drop a reference; a count that falls to 0 queues the entry for reclaim, after every entry that any
region has queued (R365). -/
def State.dropRef (s : State) (id : Nat) (n : BitVec 128) : State :=
  match mget s.regions id with
  | none => s
  | some g =>
    if g.follow || n == 0 then s
    else match findName s g n with
      | none => s
      | some (k, e) =>
        if e.count = pinned || e.count = 0 then s
        else
          let zero := e.count == 1
          let g := { g with dir := mput g.dir k { e with count := e.count - 1, q := e.q || zero } }
          if zero && !e.q then
            { s.setRegion id { g with reclaims := g.reclaims ++ [(k, s.nextUid)] } with
                nextUid := s.nextUid + 1 }
          else s.setRegion id g

/-- The reference of a `CCOPY` is dropped when the copy completes or ends (R348). -/
def State.dropCopyRef (s : State) (fid sw uid : Nat) : State :=
  match (((s.swathAt fid sw).map (·.eng.chains)).getD []).find? (fun c => c.uid == uid) with
  | some c =>
    match c.ccopy with
    | some t => s.dropRef t.region t.name
    | none => s
  | none => s

/-! ### The store and the image (R353, R366, R369) -/

/-- The line in a slot. -/
def slotLine (s : State) (g : Region) (slot : Nat) : BitVec 1024 := homeLine s (g.store + 128 * slot)

/-- What a write of the directory's own waits for: the write goes over a fenced port, or another device may
hold the unit; none when it may proceed. A pool unit is made this device's own first, without a pager
record: one that it does not hold is filled as a shared copy, for the context `fill`, and a shared copy is
upgraded, which back-invalidates the others. Where no frame can be had for it, or none is asked for, the
write goes to the pool as it is (R323, R366; notes/assumptions/130.md). -/
def storeHold (s : State) (fill : Option Nat) (dpa : Nat) : Option State :=
  let unit := dpa / 65536
  match writeHold s (dpa / 128) (BitVec.allOnes 128) with
  | some t => some t
  | none =>
    if (dregion dpa).tag ≠ 3 then none
    else match cacheFrame s unit with
    | none =>
      match fill with
      | some c =>
        if s.localUnit unit || bypasses s unit c then none
        else if s.fills.any (fun x => x.unit == unit) then some s
        else some (s.askFill unit c 0 3 true)
      | none => none
    | some f =>
      match (s.frame f).st with
      | .shared => some (s.beginUpgrade f)
      | .upgrading | .filling | .writeback => some s
      | .free | .clean | .dirty => none

/-- Several writes of the directory's own wait together. -/
def storesHold (s : State) (fill : Option Nat) : List Nat → Option State
  | [] => none
  | dpa :: r =>
    match storeHold s fill dpa with
    | some t => some ((storesHold t fill r).getD t)
    | none => storesHold s fill r

/-- A write of the directory's own, when nothing holds it. -/
def State.storeWrite (s : State) (dpa : Nat) (line : BitVec 1024) : State :=
  s.homeWrite dpa (BitVec.allOnes 128) line

/-- The image line of a key's bucket, when the region has an image (R353, R369). -/
def imageLineOf (g : Region) (key : Nat) : List Nat :=
  if (dregion g.store).tag ≠ 3 then [] else [g.store + 128 * (1024 * g.capk) + 128 * (key / 4)]

/-- An entry as the image shows it: COUNT and Q are 0. -/
def imageBits (e : Option DirName) : Nat :=
  match e with
  | some e => e.name.toNat + e.slot * 2 ^ 128 + 2 ^ (128 + 56)
  | none => 0

/-- Write the image line of a key's bucket, when the region has an image. -/
def State.writeImage (s : State) (id key : Nat) : State :=
  match mget s.regions id with
  | none => s
  | some g =>
    let b := key / 4
    let line := (List.range 4).foldl (fun v j => v + imageBits (mget g.dir (4 * b + j)) * 2 ^ (256 * j)) 0
    (imageLineOf g key).foldl (fun s a => s.storeWrite a (BitVec.ofNat 1024 line)) s

/-! ### Reclaim (R365) -/

/-- The children of a node line, ascending. -/
def children8 (line : BitVec 1024) : List (BitVec 128) := (List.range 8).map (childName line)

/-- What the reclaim of the oldest queued entry waits for: the write of its image line. -/
def reclaimHold (s : State) (id : Nat) : Option State :=
  match mget s.regions id with
  | none => none
  | some g =>
    match g.reclaims with
    | [] => none
    | (k, _) :: _ =>
      if (mget g.dir k).any (fun e => e.count == 0) then storesHold s (some g.owner) (imageLineOf g k) else none

/-- Reclaim the oldest queued entry. -/
def State.reclaimOne (s : State) (id : Nat) : State :=
  match mget s.regions id with
  | none => s
  | some g =>
    match g.reclaims with
    | [] => s
    | (k, _) :: rest =>
      match mget g.dir k with
      | none => s.setRegion id { g with reclaims := rest }
      | some e =>
        if e.count ≠ 0 then
          s.setRegion id { g with reclaims := rest, dir := mput g.dir k { e with q := false } }
        else
          let kids := if nameKind e.name = 2 then children8 (slotLine s g e.slot) else []
          let s := (s.setRegion id { g with reclaims := rest, dir := mdel g.dir k }).writeImage id k
          kids.foldl (fun s n => s.dropRef id n) s

/-- A pending scrub goes before reclaims: units are left (R365, R406). -/
def State.scrubFirst (s : State) : Bool :=
  s.ctxs.any (fun (_, x) => x.state == .scrubbing && !x.scrubLeft.isEmpty)

/-- The entry that Teasel reclaims next is of this region: reclaims are performed in the order in which
they were queued, over all regions (R365). -/
def reclaimsNext (s : State) (region : Nat) : Bool :=
  match (mget s.regions region).bind (fun g => g.reclaims.head?) with
  | some (_, q) => s.regions.all (fun (_, h) => h.st != .live || h.reclaims.all (fun (_, r) => q ≤ r))
  | none => false

/-- How many reclaims bring Teasel past the last entry that a region has queued (R358, R365). -/
def reclaimsDue (s : State) (id : Nat) : Nat :=
  match (mget s.regions id).bind (fun g => g.reclaims.getLast?) with
  | none => 0
  | some (_, last) =>
    (s.regions.flatMap (fun (_, h) =>
      if h.st == .live then h.reclaims.filter (fun (_, q) => q ≤ last) else [])).length

/-- Perform the next `n` reclaims, in the order in which they were queued over all regions; they wait for
the scrubs that go first (R365). -/
def reclaimMany : Nat → State → MRes Unit
  | 0, s => .ok () s
  | n + 1, s =>
    if s.scrubFirst then .hold s
    else match s.regions.find? (fun (i, h) => h.st == .live && reclaimsNext s i) with
      | none => .ok () s
      | some (i, _) =>
        match reclaimHold s i with
        | some t => .hold t
        | none => reclaimMany n (s.reclaimOne i)

/-! ### Lookup or allocation (R341, R357, R358, R360) -/

/-- What a lookup or an allocation comes to. -/
inductive InsRes
  | found (n : BitVec 128)
  | room (chain key slot : Nat)
  | collide
  | lack
  deriving DecidableEq, Repr

/-- The name of the chain index, among the `n` from `c`, whose line equals the line given. -/
def matchLine (s : State) (g : Region) (hash kind : Nat) (line : BitVec 1024) :
    Nat → Nat → Option (BitVec 128)
  | _, 0 => none
  | c, n + 1 =>
    match findName s g (nameOf hash c kind) with
    | some (_, e) =>
      if slotLine s g e.slot = line then some e.name else matchLine s g hash kind line (c + 1) n
    | none => matchLine s g hash kind line (c + 1) n

/-- The slots that hold no line. -/
def freeStore (g : Region) : List Nat :=
  (List.range (1024 * g.capk)).filter (fun i => !g.dir.any (fun (_, e) => e.slot == i))

def lookLine (s : State) (g : Region) (kind : Nat) (line : BitVec 1024) : InsRes :=
  let h := lineHash kind line
  match matchLine s g h kind line 0 16 with
  | some n => .found n
  | none =>
    let free (c : Nat) : Bool := (findName s g (nameOf h c 1)).isNone && (findName s g (nameOf h c 2)).isNone
    match (List.range 16).find? free with
    | none => .collide
    | some c =>
      match (probeKeys g.capk (nameOf h c kind)).find? (fun k => (mget g.dir k).isNone), freeStore g with
      | some k, i :: rest => .room c k ((i :: rest).getD (Config.freeNat s.freeCtr % (rest.length + 1)) i)
      | _, _ => .lack

/-- The result of a content form: name, status, count. -/
structure CRes where
  name : BitVec 128
  status : Nat
  count : Nat
  deriving DecidableEq, Repr

/-- FOUND, or PINNED when the count is at its highest (R338). -/
def foundStatus (count : Nat) : Nat := if count = pinned then 8 else 0

/-- Act on the outcome of a lookup. An allocation waits for the writes of its slot and of its image
line, which are made in that order (R366, R369). -/
def insertWith (s : State) (id : Nat) (g : Region) (kind : Nat) (line : BitVec 1024) :
    InsRes → MRes CRes
  | .found n =>
    let s := s.gainRef id n
    .ok { name := n, status := foundStatus (countOf s id n), count := countOf s id n } s
  | .room c k slot =>
    match storesHold s (some g.owner) ((g.store + 128 * slot) :: imageLineOf g k) with
    | some t => .hold t
    | none =>
      let n := nameOf (lineHash kind line) c kind
      let s := s.storeWrite (g.store + 128 * slot) line
      let s := s.setRegion id { g with dir := mput g.dir k { name := n, slot := slot, count := 1, q := false } }
      .ok { name := n, status := 1, count := 1 } (s.writeImage id k).tick
  | .collide => .ok { name := 0, status := 4, count := 0 } s
  | .lack => .ok { name := 0, status := 3, count := 0 } s

/-- Insert a line: lookup or allocation as one event; an allocation that finds slots or entries lacking
awaits the queued reclaims of the region, and those queued before them (R358, R365;
notes/assumptions/130.md). A bucket that is lost is `POISONED` (R434). -/
def insertLine (s : State) (id kind : Nat) (line : BitVec 1024) : MRes CRes :=
  match mget s.regions id with
  | none => .ok { name := 0, status := 3, count := 0 } s
  | some g =>
    if (lookupFault s g.owner g (nameOf (lineHash kind line) 0 kind)).isSome then .fault (.of .poisoned)
    else match lookLine s g kind line with
    | .lack =>
      (reclaimMany (reclaimsDue s id) s).bind fun _ s =>
        match mget s.regions id with
        | some g => insertWith s id g kind line (lookLine s g kind line)
        | none => .ok { name := 0, status := 3, count := 0 } s
    | r => insertWith s id g kind line r

end Sys2Proof.Machine
end

