-- ==== Sys2Proof/Machine/Fields.lean ====
section
/-! DEFINITION. Fields on cores: what a context owns of a core, placement, the first state of a
field, swap-out, resume and the end of a field (R108-R119, R124-R126, R135, R139, R140, R231, R297,
R401). -/

namespace Sys2Proof.Machine
open Sys2Proof

/-! ### What a context owns (R113, R375, R400, R401) -/

/-- Quadrants of a core, as bits, that a list of grants gives. -/
def quadMask (gs : List Grant) (core : Nat) (onlyExcl : Bool) : Nat :=
  gs.foldl (fun m g =>
    match g.kind with
    | .quad c q e => if c == core && (e || !onlyExcl) then m ||| q else m
    | _ => m) 0

/-- Banks of a core, as bits, that a list of grants gives. -/
def bankMask (gs : List Grant) (core : Nat) : W64 :=
  gs.foldl (fun m g =>
    match g.kind with
    | .banks c b => if c == core then m ||| b else m
    | _ => m) 0

/-- A unit is out of use: retired, or fenced for a test (R432, R433). -/
def State.unitOut (s : State) (cls idx : Nat) : Bool :=
  s.heath.retired.contains (cls, idx) || s.heath.testing.any (fun (c, i, _) => c == cls && i == idx)

/-- Units that a scrub still holds: class (1 quadrant, 2 bank, 5 frame) and index (R406). -/
def State.scrubbing (s : State) (cls idx : Nat) : Bool :=
  s.ctxs.any (fun (_, x) => x.scrubHeld.contains (cls, idx))

/-- The quadrants of a core that a context holds for its own use. Context 0 holds what it has not
granted away (R392). -/
def ownedQuads (s : State) (c core : Nat) : List Nat :=
  let mine := if c = 0 then 15 else quadMask (((s.ctx? c).map (·.grants)).getD []) core false
  let gone := (s.children c).foldl (fun m (_, x) => m ||| quadMask x.grants core true) 0
  (List.range 4).filter (fun q =>
    Nat.testBit mine q && !Nat.testBit gone q && !s.unitOut 1 (4 * core + q)
      && !s.scrubbing 1 (4 * core + q))

/-- The banks of a core that a context holds for its own use. -/
def ownedBanks (s : State) (c core : Nat) : List Nat :=
  let mine : W64 := if c = 0 then BitVec.allOnes 64
    else bankMask (((s.ctx? c).map (·.grants)).getD []) core
  let gone := (s.children c).foldl (fun (m : W64) (_, x) => m ||| bankMask x.grants core) 0
  let pinned := s.carvedMask core
  (List.range 64).filter (fun b =>
    mine.getLsbD b && !gone.getLsbD b && !pinned.getLsbD b && !s.unitOut 2 (64 * core + b)
      && !s.scrubbing 2 (64 * core + b) && !s.heath.released.contains (core, b))

/-! ### What is free on a core (R113, R135) -/

/-- The fields resident on a core. -/
def State.residents (s : State) (core : Nat) : List (Nat × Field) :=
  s.fields.filter (fun (_, f) => f.status == .resident && f.core == core)

/-- Usable split-table entries of a quadrant (R135). -/
def usableSplits (s : State) (core q : Nat) : Nat :=
  32 - ((s.heath.retired.filter (fun (c, i) => c == 3 && i / 32 == 4 * core + q)).length
    + (s.heath.testing.filter (fun (c, i, _) => c == 3 && i / 32 == 4 * core + q)).length)

/-- The swaths that occupy slots of a quadrant. -/
def swathsOn (fs : List (Nat × Field)) (q : Nat) : List Swath :=
  fs.flatMap (fun (_, f) => (f.sws.filter (fun (_, w) => w.quad == q && !w.ctl.exited)).map (·.2))

/-- Free slots of a quadrant; slot 15 of quadrants 0 and 1 holds the firmware agent (R113). That slot
counts among the at most U slots that a retirement leaves (R135; notes/assumptions/122.md). -/
def freeSlots (s : State) (fs : List (Nat × Field)) (core q : Nat) : Nat :=
  Nat.min 16 (usableSplits s core q) - (if q < 2 then 1 else 0) - (swathsOn fs q).length

def freeTiles (fs : List (Nat × Field)) (q : Nat) : Nat :=
  16 - (fs.filter (fun (_, f) => f.mquad == q)).foldl (fun n (_, f) => n + f.tiles) 0

/-- Owned banks that no resident field holds. -/
def freeBanks (s : State) (fs : List (Nat × Field)) (c core : Nat) : List Nat :=
  (ownedBanks s c core).filter (fun b => !fs.any (fun (_, f) => f.banks.contains b))

def freeBars (fs : List (Nat × Field)) : Nat := 64 - fs.foldl (fun n (_, f) => n + f.bars.length) 0

/-- Split-table entries of a quadrant that no reserve and no F arm takes (R135). With U below 32 the F
arms of standing dual splits may leave no entry to reserve for a lane stream that starts: it starts all
the same, and no further split is dual (notes/assumptions/122.md). -/
def freeSplits (s : State) (core q : Nat) : Nat :=
  let ws := swathsOn (s.residents core) q
  usableSplits s core q - (ws.filter (fun w => w.meet.hs != .idle)).length
    - (ws.filter (fun w => w.lanes.dual.isSome)).length

/-! ### Placement (R113, R114) -/

/-- The quadrant with the most, the lowest number on a tie. -/
def best (l : List (Nat × Nat)) : Option (Nat × Nat) :=
  l.foldl (fun b (q, n) =>
    match b with
    | none => some (q, n)
    | some (q', n') => if n' < n then some (q, n) else some (q', n')) none

/-- Deal swaths to quadrants, given each quadrant's free slots (R114). -/
def dealSlots : List Nat → List (Nat × Nat) → Option (List (Nat × Nat))
  | [], _ => some []
  | sw :: r, free =>
    match best free with
    | none => none
    | some (_, 0) => none
    | some (q, _) =>
      (dealSlots r (free.map (fun (p, n) => if p = q then (p, n - 1) else (p, n)))).map ((sw, q) :: ·)

/-- Where a field would stand on a core. -/
structure Seat where
  core : Nat
  quads : List (Nat × Nat)
  mquad : Nat
  banks : List Nat
  deriving DecidableEq, Repr

/-- The seat of a field on a core, given the fields that stand there (R113, R114, R401). -/
def seatOn (s : State) (fs : List (Nat × Field)) (c core : Nat) (sws : List Nat)
    (tiles kib bars : Nat) : Option Seat :=
  let qs := ownedQuads s c core
  match dealSlots sws (qs.map (fun q => (q, freeSlots s fs core q))),
      best (qs.map (fun q => (q, freeTiles fs q))) with
  | some quads, some (mq, n) =>
    let need := (kib * 1024 + 16383) / 16384
    let banks := (freeBanks s fs c core).take need
    if tiles ≤ n && banks.length == need && bars ≤ freeBars fs then
      some { core := core, quads := quads, mquad := mq, banks := banks }
    else none
  | _, _ => none

/-! ### The first state of a field (R110, R111) -/

/-- Role and register count of a swath number (R111). -/
def LaunchRec.roleOf (r : LaunchRec) (sw : Nat) : Nat × Nat :=
  if r.roles.all (fun (c, _) => c == 0) then (0, r.vregs)
  else
    let rec go : List (Nat × Nat) → Nat → Nat → Nat × Nat
      | [], _, _ => (0, r.vregs)
      | (c, v) :: rest, at_, role => if sw < at_ + c then (role % 4, v) else go rest (at_ + c) (role + 1)
    go r.roles 0 1

/-- A swath of a field when the field is first placed (R110). -/
def firstSwath (r : LaunchRec) (num sw quad core : Nat) : Swath :=
  let (role, v) := r.roleOf sw
  let seed := r.seed + w64 ((num * 32 + sw) * 2 ^ 32)
  { Swath.zero with
    sw := sw, quad := quad, role := role, ng := r.lanes, vregs := v, lastCore := core,
    regs := { Regs.zero with pc := r.scode, seed := seed, chk := r.chk, rgnEntry := r.scode },
    eng := { Engines.zero with lseed := seed, mgen := seedGen seed 1024 } }

/-- A field when it is first placed. -/
def firstField (l : Launch) (lid num mx my slot : Nat) (seat : Seat) : Field :=
  { launch := lid, ctx := l.ctx, num := num, mx := mx, my := my, status := .resident, ready := false,
    readyAt := 0, core := seat.core, mquad := seat.mquad, slot := slot, banks := seat.banks,
    tiles := l.lrec.acc, scrKib := l.lrec.scr, acc := [], spad := [],
    bars := List.replicate l.lrec.barr { expected := 0, pending := 0, phase := false },
    stop := none, slicing := false,
    sws := seat.quads.map (fun (sw, q) => (sw, firstSwath l.lrec num sw q seat.core)) }

/-- The fields of a launch that one placement starts: one, or those of a meadow (R116). -/
def LaunchRec.group (r : LaunchRec) : Nat := if r.mw = 0 then 1 else r.mw * r.mh

/-- The column and row of a core in its die, and the core at a place (R112). -/
def coreCol (core : Nat) : Nat := core % 48 / 6
def coreRow (core : Nat) : Nat := core % 6
def coreAt (die col row : Nat) : Option Nat :=
  if col < 8 && row < 6 then some (48 * die + 6 * col + row) else none

/-- The cores that field i of a group takes when the corner is `core`. -/
def groupCore (r : LaunchRec) (core i : Nat) : Option Nat :=
  if r.mw = 0 then some core
  else coreAt (core / 48) (coreCol core + i % r.mw) (coreRow core + i / r.mw)

/-- The seats of a new group whose corner is `core`, with the fields that stand in the way. -/
def newSeats (s : State) (l : Launch) (core : Nat) (standing : Nat → List (Nat × Field)) :
    Option (List Seat) :=
  (List.range l.lrec.group).mapM (fun i =>
    (groupCore l.lrec core i).bind (fun k =>
      seatOn s (standing k) l.ctx k (List.range l.lrec.swaths) l.lrec.acc l.lrec.scr l.lrec.barr))

/-- The fields of a group: a field alone, or those of its meadow that have not faulted or ended. -/
def State.groupOf (s : State) (fid : Nat) : List (Nat × Field) :=
  match s.field? fid with
  | none => []
  | some f =>
    if ((mget s.launches f.launch).map (·.lrec.mw)).getD 0 = 0 then [(fid, f)]
    else s.fields.filter (fun (_, g) =>
      g.launch == f.launch && g.num == f.num && g.status != FStatus.faulted)

/-- The swaths that need slots at a resume (R140). -/
def Field.liveSws (f : Field) : List Nat := (f.sws.filter (fun (_, w) => !w.ctl.exited)).map (·.1)

/-- The seats of a resuming group whose corner is `core`. -/
def resumeSeats (s : State) (r : LaunchRec) (grp : List (Nat × Field)) (core : Nat)
    (standing : Nat → List (Nat × Field)) : Option (List Seat) :=
  grp.mapM (fun (_, f) =>
    (groupCore r core (f.my * r.mw + f.mx)).bind (fun k =>
      seatOn s (standing k) f.ctx k f.liveSws f.tiles f.scrKib f.bars.length))

/-- The context may place fields: it is LIVE and has a quantum (R374). -/
def State.places (s : State) (c : Nat) : Bool :=
  match s.ctx? c with
  | some x => x.state == .live && x.budgets.quantum != 0
  | none => false

/-- The cores of the device. -/
def allCores : List Nat := List.range 192

/-- A launch that no placement could ever satisfy, all other work absent (R118). -/
def neverFits (s : State) (l : Launch) : Bool :=
  allCores.all (fun k => (newSeats s l k (fun _ => [])).isNone)

/-! ### Leaving and resuming (R125, R126, R139, R231, R297) -/

/-- A wait that a resume executes again from its PC; an armed or satisfied `WAITM` stays. -/
def SWait.kept : SWait → Bool
  | .waitm .. => true
  | .waitmHit .. => true
  | _ => false

/-- A swath that would issue again after a resume: it is not parked, and it does not merely wait in
`WAITM` with no lane stream running (R125, R126). -/
def Swath.wouldIssue (w : Swath) : Bool :=
  !w.ctl.exited && w.ctl.parked.isNone && match w.ctl.wait with
    | .waitm .. => w.meet.hs == .running
    | _ => true

/-- A field that leaves its core may resume at once. A swath that waits in `EXIT` lets it, because its
engine operations go on only on a core (notes/assumptions/123.md). -/
def Field.resumable (f : Field) : Bool :=
  f.stop.isNone && f.sws.any (fun (_, w) => w.wouldIssue)

/-- An event of a field is traced: its core, its matrix quadrant from bit 16, and TIME (R423). -/
def State.logField (s : State) (f : Field) (kind : Nat) : State :=
  s.logEvent (f.core / 48) f.ctx kind (f.coords 31 0) (w64 (f.core + f.mquad * 2 ^ 16)) s.time

/-- A field whose image cannot be written, or holds what no image may hold, ends (R129, R284, R285). -/
def State.imageInvalid (s : State) (fid : Nat) (f : Field) (sw : Nat) : State :=
  s.terminal fid sw (faultRec f sw 0 false 0 (raise .imageInvalid))

/-- The first swath of a field. -/
def Field.firstSw (f : Field) : Nat := (f.sws.head?.map (·.1)).getD 0

/-- Swap a field out: it leaves its core, and its slot takes its state (R125, R284). Where its slot needs
the service of a fault, the field has left its core and its slot is written after the service; it does
not resume before. A fault of the arena that no service mends is IMAGE_INVALID (R285). -/
def State.swapOut (s : State) (fid : Nat) : State :=
  match s.field? fid with
  | none => s
  | some f =>
    if f.status != .resident then s
    else
      let g := f.leave .swapped
      let g := { g with ready := g.resumable, readyAt := s.nextReady }
      let s := { s.setField fid g with nextReady := s.nextReady + 1 }
      match s.saveSlot fid with
      | .done s => (s.countFor f.ctx cSWAPS 1).logField f 2
      | .waits s => (s.countFor f.ctx cSWAPS 1).logField f 2
      | .bad => s.imageInvalid fid f f.firstSw

/-- Swap out a field and, for a meadow, every field of its meadow (R116). -/
def State.swapGroup (s : State) (fid : Nat) : State :=
  (s.groupOf fid).foldl (fun s (i, _) => s.swapOut i) s

/-- Halt every resident field as an urgent claim halts it (R297, R315). -/
def State.haltAll (s : State) : State :=
  (s.fields.filter (fun (_, f) => f.status == .resident)).foldl (fun s (i, _) => s.swapOut i) s

/-- The entry that a DUAL entry becomes, and the arm that is live after the conversion (R139). An entry
that takes a deferred arm keeps that the arm is trap-held, and an entry that takes a finished one has no
APC; the spec's entry has no place for HELD, so the model keeps it beside the entry
(notes/assumptions/120.md). -/
def StackEnt.converted (e : StackEnt) (t f : Frag) : StackEnt × Frag :=
  let done (g : Frag) (arm : Bool) : StackEnt :=
    { e with kind := .second, mask := g.mask, atok := g.tok, apc := 0, afmt := g.fmt, born := g.born,
             endPc := g.endPc, sb := [], held := false, abars := false, hbar := none,
             heldArm := arm, conv := true }
  if t.wait == .join && f.wait != .join then (done t false, f)
  else if f.wait == .join then (done f true, t)
  else
    ({ e with kind := .first, mask := f.mask, apc := f.pc, afmt := f.fmt, atok := f.tok,
              abars := f.wait.isBars, hbar := f.wait.bar, endPc := f.endPc, born := f.born,
              sb := [], held := f.held, heldArm := true, conv := true }, t)

/-- A DUAL entry becomes a serialised entry on resume (R139). -/
def LaneStream.serialise (l : LaneStream) : LaneStream :=
  match l.f0, l.f1, l.dual with
  | some t, some f, some e =>
    { l with f0 := some (e.converted t f).2, f1 := none,
             stack := l.stack.map (fun x => if x.kind == .dual then (x.converted t f).1 else x) }
  | _, _, _ => l

/-- A swath on the core where it resumes: its waits are executed again from their PCs, a satisfied
`WAITM` completes (R126, R297). -/
def Swath.resumed (w : Swath) (quad core : Nat) : Swath :=
  let w := { w with quad := quad, lastCore := core }
  match w.ctl.wait with
  | .waitmHit d v =>
    scalarGo { w with ctl := { w.ctl with wait := .none } } d v
  | k => { w with ctl := { w.ctl with wait := if k.kept then k else .none } }
where
  /-- The result and the next PC. -/
  scalarGo (w : Swath) (d : Nat) (v : W64) : Swath :=
    { w with regs := { w.regs with x := if d = 0 then w.regs.x else mput w.regs.x d v,
                                   pc := w.regs.pc + 4 } }

/-- The flush of a swath that moves between cores (R231). -/
def State.moveFlush (s : State) (ctx : Nat) (w : Swath) (core : Nat) : MRes Unit :=
  if w.lastCore = core then
    match w.ctl.wait with
    | .waitmHit .. => .ok () (acquireFrom .home s core ctx)
    | _ => .ok () s
  else
    (releaseTo .home s w.lastCore ctx).bind fun _ s => .ok () (acquireFrom .home s core ctx)

/-- The flushes of every swath of a field. -/
def State.moveFlushes (ctx core : Nat) : List Swath → State → MRes Unit
  | [], s => .ok () s
  | w :: r, s => (s.moveFlush ctx w core).bind fun _ s => State.moveFlushes ctx core r s

/-- Read the image of a field that resumes at a seat, or the state in which it stays out: a fault of the
arena that a servicer mends is sent to it, and a bad image ends the field (R284, R285). -/
def State.loadField (s : State) (fid : Nat) (seat : Seat) : Except State Field :=
  match s.field? fid with
  | none => .error s
  | some f =>
    match mget s.launches f.launch with
    | none => .error s
    | some l =>
      let va := slotVa l.lrec f
      match arenaMap s (seat.core / 48) f.ctx va false (slotRanges l.lrec f) with
      | .error (e, at_) =>
        .error (if e.gate.isSome then s
                else if e.cause.parks then s.serveArena fid f e at_ else s.imageInvalid fid f f.firstSw)
      | .ok m =>
        -- a dword of the slot that is still on its way lands first
        if s.homeWrites.any (fun w => m.any (fun (_, d) => d / 65536 == w.line / 512)) then .error s else
        match readField s m va l.lrec f with
        | .error sw => .error (s.imageInvalid fid f sw)
        | .ok g => .ok g

/-- Read the images of the fields that resume together. -/
def State.loadFields (s : State) : List (Nat × Seat) → Except State (List (Nat × Field × Seat))
  | [] => .ok []
  | (fid, seat) :: r =>
    match s.loadField fid seat, s.loadFields r with
    | .error s, _ => .error s
    | _, .error s => .error s
    | .ok g, .ok gs => .ok ((fid, g, seat) :: gs)

/-- The flushes of every swath of the fields that resume together. -/
def State.groupFlushes : List (Nat × Field × Seat) → State → MRes Unit
  | [], s => .ok () s
  | (_, g, seat) :: r, s =>
    (State.moveFlushes g.ctx seat.core (g.sws.map (·.2)) s).bind fun _ s => State.groupFlushes r s

/-- More split-table entries of a quadrant are held and reserved than it has (R135). -/
def splitsShort (s : State) (core q : Nat) : Bool :=
  let ws := swathsOn (s.residents core) q
  decide (usableSplits s core q
    < (ws.filter (fun v => v.meet.hs != .idle)).length
      + (ws.filter (fun v => v.lanes.dual.isSome)).length)

/-- A field stands at its seat (R114, R139). Which of its DUAL entries a quadrant that supplies only some
of them keeps is not said: the model converts those of the lowest-numbered swaths until the others fit
(notes/assumptions/120.md). -/
def State.standAt (s : State) (fid : Nat) (g : Field) (seat : Seat) : State :=
  let place (i : Nat) (w : Swath) : Swath :=
    w.resumed ((seat.quads.find? (fun p => p.1 == i)).map (·.2) |>.getD w.quad) seat.core
  let g := { g with status := .resident, ready := false, core := seat.core,
                    mquad := seat.mquad, banks := seat.banks, stop := none,
                    sws := g.sws.map (fun (i, w) => (i, place i w)) }
  g.sws.foldl (fun s (i, w) =>
    if w.lanes.dual.isSome && splitsShort s seat.core w.quad then
      s.updSwathAt fid i (fun w => { w with lanes := w.lanes.serialise })
    else s) ((s.setField fid g).logField g 3)

/-- Resume the fields of a group together, or none of them (R116, R124, R126, R139, R284). -/
def State.resumeGroup (s : State) (seats : List (Nat × Seat)) : State :=
  match s.loadFields seats with
  | .error s => s
  | .ok gs =>
    match State.groupFlushes gs s with
    | .fault _ => s
    | .hold s => s
    | .ok _ s => gs.foldl (fun s (fid, g, seat) => s.standAt fid g seat) s

/-- The end of a field whose swaths have all exited: its slot says ENDED (R65, R108, R278). -/
def State.endField (s : State) (fid : Nat) : State :=
  match s.field? fid with
  | none => s
  | some f =>
    let s := if f.status == FStatus.resident then (s.logField f 4).slotPut f 0 FStatus.ended.code else s
    let s := { s with fields := mdel s.fields fid }
    s.updLaunch f.launch (fun l =>
      { l with finished := l.finished + 1, slots := l.slots.filter (· != f.slot) })

end Sys2Proof.Machine
end

