-- ==== Sys2Proof/Machine/Pager.lean ====
section
/-! DEFINITION. The page cache, leases, nodes and the pager: fills and evictions, bindings, lease
states, service completion, the pager window (R245, R248, R271-R277, R301-R315, R326, R327). -/

namespace Sys2Proof.Machine
open Sys2Proof

/-! ### The lines and the bytes of a unit -/

def inUnit (unit : Nat) (c : Copy) : Bool := c.dpa / 512 == unit

/-- Write back and make absent every copy of a unit's lines (R248). -/
def State.flushUnit (s : State) (unit : Nat) : State := s.flush (inUnit unit) (inUnit unit)

/-- Make absent every copy of a unit's lines, with no write-back. -/
def State.dropUnit (s : State) (unit : Nat) : State :=
  { s with l1 := s.l1.filter (fun c => !inUnit unit c), l2 := s.l2.filter (fun c => !inUnit unit c) }

/-- The 64 KiB at a pool address as a transfer of the unit reads them, by offset (R405). -/
def poolUnit (s : State) (pa : Nat) (k : Option UnitKey) : Mem :=
  match k with
  | none => s.pool.slice pa 65536 0
  | some _ => (List.range 512).foldl (fun m i =>
      m.wrMask (128 * i) (BitVec.allOnes 128) (poolLine s (pa + 128 * i) k i) 0 128) []

/-- Write the 64 KiB `m`, listed by offset, of a unit at a pool address (R405). -/
def State.putPoolUnit (s : State) (pa : Nat) (k : Option UnitKey) (m : Mem) : State :=
  match k with
  | none =>
    { s with pool := (s.pool.zero pa 65536).overlay (m.map (fun (c : Host.Cell) => (c.1 + pa, c.2))) }
  | some _ =>
    { s with pool := (List.range 512).foldl (fun p i =>
        p.wrMask (pa + 128 * i) (BitVec.allOnes 128) (sealLine k i (m.line (128 * i))) 0 128) s.pool }

/-- The pool addresses of the homes of a unit: one, or two while a dual-home window is open (R326). -/
def unitHomes (s : State) (unit : Nat) : List Nat :=
  match backing s (unit * 65536) with
  | none => []
  | some (_, l, a) =>
    poolAddr l.node a :: (match secondHome s (unit * 65536) with
      | some p => [p]
      | none => [])

/-- Write a frame back to every home of its unit (R272, R326). -/
def State.writeBackFrame (s : State) (f : Nat) : State :=
  let unit := (s.frame f).unit
  let m := s.mem.slice (frameDpa f) 65536 0
  (unitHomes s unit).foldl (fun s pa => s.putPoolUnit pa (unitKey s unit) m) s

/-- A frame becomes FREE; its charge ends (R398). One whose retirement waited for its unit to leave takes
the ROLE RETIRED (R275, R432). -/
def State.freeFrame (s : State) (f : Nat) : State :=
  let e := s.frame f
  s.setFrame f { e with st := .free, unit := 0, lease := 0, charge := 0, hold := 0,
                        role := if s.heath.retired.contains (5, f) then .retired else e.role }

/-- Evict a frame as `PGEVICT` does: its lines, then the frame, are written back (R248, R272). -/
def State.evictFrame (s : State) (f : Nat) : State :=
  let s := s.flushUnit (s.frame f).unit
  let s := if (s.frame f).st == .dirty then s.writeBackFrame f else s
  s.freeFrame f

/-! ### Fills (R272, R274, R277, R398) -/

/-- A frame is written back when it leaves: it is DIRTY, or a core L1 or cluster L2 holds dirty bytes of
its unit. -/
def leavesDirty (s : State) (f : Nat) : Bool :=
  let unit := (s.frame f).unit
  (s.frame f).st == .dirty || (s.l1 ++ s.l2).any (fun c => inUnit unit c && c.dirty != 0)

/-- A frame's write-back waits: its port is fenced, or its lease takes none (R305, R332;
notes/assumptions/127.md). -/
def backShut (s : State) (f : Nat) : Bool := poolShut s (s.frame f).unit && leavesDirty s f

/-- Take a victim for a unit, written back if it is DIRTY, the frame then FILLING, and count the fill and
its pool transfers (R420); none when no frame is
eligible, or when a fenced port keeps the fill or the write-back waiting. -/
def State.takeFrame (s : State) (unit ctx hold : Nat) : Option (Nat × State) :=
  match victimOf s (victimCandidates s unit ctx) with
  | none => none
  | some f =>
    if portShut s unit || backShut s f then none
    else
      let back := if (s.frame f).st != .free && leavesDirty s f then (unitHomes s (s.frame f).unit).length else 0
      let s := if (s.frame f).st == .free then s
        else (s.countEvict ctx (s.frame f).charge 512).evictFrame f
      let s := (s.countFor ctx cFILLS 1).usePool ctx (512 * (1 + back))
      let n := ((coveringLease s (unit * 65536)).map (·.1)).getD 0
      some (f, s.setFrame f { s.frame f with st := .filling, count := 0, unit := unit, lease := n,
                                             charge := ctx, hold := hold })

/-- Read a FILLING frame's unit from the pool; it becomes CLEAN, or SHARED when an access missed it
through an RO-SHARED page (R271, R272; notes/assumptions/33.md). -/
def State.fillFrame (s : State) (f : Nat) : State :=
  let e := s.frame f
  match unitHomes s e.unit with
  | [] => s.freeFrame f
  | pa :: _ =>
    let m := poolUnit s pa (unitKey s e.unit)
    let ro := s.roUnits.contains e.unit
    let s := { s with
      mem := (s.mem.zero (frameDpa f) 65536).overlay (m.map (fun (c : Host.Cell) => (c.1 + frameDpa f, c.2))),
      roUnits := s.roUnits.filter (· != e.unit) }
    s.setFrame f { e with st := if ro then .shared else .clean }

/-- The hints of a swath whose fills are all complete leave it, oldest first (R216). -/
def Swath.dropHints (w : Swath) (fills : List Fill) : Swath :=
  let rec go : List Hint → List Hint
    | [] => []
    | h :: r => if fills.any (fun f => f.group == h.group) then h :: r else go r
  let hs := go w.eng.hints
  { w with eng := { w.eng with
      gathers := w.eng.gathers - (w.eng.hints.length - hs.length), hints := hs } }

/-- Count every hint that has become complete, in the image too while the field is out (R297). -/
def State.dropHints (s : State) : State :=
  let t := { s with fields := mmap s.fields (fun _ f => f.mapSw (·.dropHints s.fills)) }
  s.fields.foldl (fun t (fid, f) => f.sws.foldl (fun t (sw, w) =>
    if (w.dropHints s.fills).eng.gathers = w.eng.gathers then t else t.putCounters fid sw) t) t

/-- The status with which a fill of a pool DPA cannot go on: 2 NO_LEASE, 3 NODE_LOST (R248, R305). -/
def pageStatus (s : State) (dpa : Nat) : Option Nat :=
  match backing s dpa with
  | none => some 2
  | some (_, l, _) =>
    if l.st == .lost || (s.node l.node).lost || (s.node l.node).route = 0 then some 3
    else if l.st == .live then none else some 2

/-- Start one fill that has been asked for; a fill whose unit is being filled joins it. -/
def State.startFill (s : State) (q : Fill) (hold : Nat) : State :=
  let upd (s : State) (g : Fill → Option Fill) : State :=
    { s with fills := s.fills.filterMap (fun x => if x == q then g x else some x) }
  let dpa := q.unit * 65536
  if (presentFrame s q.unit).isSome then upd s (fun _ => none)
  else match s.fills.find? (fun x => x.unit == q.unit && x.frame.isSome) with
    | some x => upd s (fun y => some { y with frame := x.frame })
    | none =>
      match pageStatus s dpa with
      | some k =>
        -- told to nobody but the pager (R308)
        let c : Cause := if k = 3 then .nodeLost else (leaseCheck s dpa).getD .leaseRevoked
        let (d, r) := serviceOf s c q.ctx 0 dpa q.rq noSwath
          (if q.rq = 4 then .pfh else .tolerant)
        (upd s (fun _ => none)).service d r
      | none =>
        if bypasses s q.unit q.ctx then upd s (fun _ => none)
        else if (cacheFrame s q.unit).isSome then s
        else match s.takeFrame q.unit q.ctx hold with
          | none => s
          | some (f, s) =>
            upd s (fun y => some { y with frame := some f })

/-- Every fill of a hint's group has started: its frames may be victims again (R274). -/
def State.releaseHolds (s : State) (group : Nat) : State :=
  { s with frames := mmap s.frames (fun _ (e : Frame) =>
      if e.hold == group then { e with hold := 0 } else e) }

/-- The POOLBW that a context keeps for itself (R396). -/
def poolLeft (s : State) (c : Nat) : Nat :=
  match s.ctx? c with
  | some x => x.budgets.poolbw - (s.liveChildren c).foldl (fun n (_, y) => n + y.budgets.poolbw) 0
  | none => 0

/-- The context has used its pool transfers of the period up, or has none. -/
def overPool (s : State) (c : Nat) : Bool := decide (poolLeft s c ≤ (s.useOf c).pool)

/-- The port of a unit's transfers. -/
def unitPort (s : State) (unit : Nat) : Option Nat :=
  (backing s (unit * 65536)).bind (fun (_, l, _) => s.poolPort l.node unit)

/-- A fill waits at its port behind one of a context that is within its budget (R397). -/
def behindBudget (s : State) (q : Fill) : Bool :=
  overPool s q.ctx && s.fills.any (fun x => x.frame.isNone && !overPool s x.ctx
    && unitPort s x.unit == unitPort s q.unit)

/-- Start the fills of a unit's group together, in order (R277), unless its context has used its budget up
and another's fill comes first (R397); the group's holds end when none of its fills still waits for a
frame (R274). -/
def State.startFills (s : State) (unit : Nat) : State :=
  match s.fills.find? (fun x => x.unit == unit && x.frame.isNone && !behindBudget s x) with
  | none => s
  | some q =>
    let group := if q.group = 0 then [q] else s.fills.filter (fun x => x.group == q.group && x.frame.isNone)
    let s := group.foldl (fun s x => s.startFill x q.group) s
    let s := if s.fills.any (fun x => x.group == q.group && x.frame.isNone) then s
      else s.releaseHolds q.group
    s.dropHints

/-- A pager core's wait ends with a value in `x`r, after an instruction of `len` bytes (R19, R44). What
it may not write was judged before it began to wait (R28). -/
def Swath.endPagerWait (w : Swath) (r : Nat) (v : W64) (ends : Bool) (len : Nat := 4) : Swath :=
  { w with ctl := { w.ctl with wait := .none } }.scalarDone [(r, v)] (w.regs.pc + w64 len) ends

/-- End the waits of pager cores for a unit's fill (R248). -/
def State.endPgfill (s : State) (unit status : Nat) : State :=
  { s with pagers := mmap s.pagers (fun _ p =>
      match p.sw.ctl.wait with
      | .pgfill r u => if u = unit then { p with sw := p.sw.endPagerWait r (w64 status) true } else p
      | _ => p) }

/-- Requesters of a unit's `POOL_MISS` records become ready (R248, R309). -/
def State.wakeUnit (s : State) (unit : Nat) : State :=
  s.pagers.foldl (fun s (d, p) =>
    let hit (r : Service) : Bool :=
      r.kind == 0 && r.cause == Cause.poolMiss.code && r.dpa / 65536 == unit
    let qs := (p.recs.filter hit).flatMap (·.reqs)
    let s := { s with pagers := mupd s.pagers d (fun p =>
      { p with recs := p.recs.map (fun r => if hit r then { r with reqs := [] } else r) }) }
    qs.foldl State.wake s) s

/-- The statuses of `PGFILL` after which the unit's requesters go on (R309). -/
def wakesUnit (status : Nat) : Bool := status == 0 || status == 1 || status == 7

/-- The fills of a unit end: complete, or dropped when its frame has been freed (R272, R311, R324). -/
def State.endFills (s : State) (unit status : Nat) : State :=
  let s := { s with fills := s.fills.filter (fun x => !(x.unit == unit && x.frame.isSome)) }
  let s := if s.pagers.any (fun (_, p) => match p.sw.ctl.wait with | .pgfill _ u => u == unit | _ => false)
    then
      let s := s.endPgfill unit status
      if wakesUnit status then s.wakeUnit unit else s
    else s
  s.dropHints

/-- A frame of a lease that is revoked or lost, CLEAN or SHARED, becomes FREE at once, and no copy serves
its clean bytes any longer; dirty bytes in a core L1 or cluster L2 stay there until `State.drainLease` or
the lease's release (R305, R307; notes/assumptions/105.md). -/
def State.shedFrame (s : State) (f : Nat) : State :=
  let unit := (s.frame f).unit
  { s with l1 := dropCleanOf (inUnit unit) s.l1, l2 := dropCleanOf (inUnit unit) s.l2 }.freeFrame f

/-- The lease of a frame serves its unit no longer. -/
def leaseGone (s : State) (f : Nat) : Bool :=
  let l := (s.lease (s.frame f).lease).st
  l == .revoked || l == .lost

/-- The fill of a unit completes (R272), unless a fenced port holds its read. A frame whose lease has
been revoked meanwhile becomes FREE at once (R305). -/
def State.finishFill (s : State) (unit : Nat) : State :=
  match s.fills.find? (fun x => x.unit == unit && x.frame.isSome) with
  | none => s
  | some q =>
    match q.frame with
    | none => s
    | some f =>
      if (s.frame f).st != .filling || (s.frame f).unit != unit then s.endFills unit 3
      else if portShut s unit then s
      else
        let s := s.fillFrame f
        if leaseGone s f then (s.shedFrame f).endFills unit 2
        else if s.fills.any (fun x => x.unit == unit && x.snooped) then
          ((s.dropUnit unit).freeFrame f).endFills unit 0
        else s.endFills unit 0

/-! ### Binding a first-touch unit (R245, R276) -/

/-- Bind a FILL-ON-TOUCH unit to a frame of its home die's reserve: the status of R245. A unit that a frame
holds already is PRESENT, and so is one that has read 0 since its LOCAL frame was lost, which is bound to
nothing (R275; notes/assumptions/145.md). -/
def State.bindUnit (s : State) (ctx unit : Nat) : Nat × State :=
  if s.localUnit unit || (cacheFrame s unit).isSome then (1, s)
  else if s.frameBudget ctx ≤ heldFrames s ctx then (4, s)
  else
    let die := homeDie (unit * 65536)
    let fs := (s.frames.filter (fun (f, e) =>
      f / framesPerDie == die && e.role == .reserve && e.st == .free && !frameFenced s f)).map (·.1)
    match fs with
    | [] => (3, s)
    | f0 :: rest =>
      let f := (f0 :: rest).getD (Config.freeNat s.freeCtr % (rest.length + 1)) f0
      let s := { s.dropUnit unit with mem := s.mem.zero (frameDpa f) 65536 }
      (0, (s.setFrame f { s.frame f with role := .local_, st := .dirty, count := 0, unit := unit,
                                         lease := 0, charge := ctx, hold := 0 }).tick)

/-- `MAPFT`, or a BIND, of the unit at a VA of a context, through a gateway: the status and the state
after it, or the fault of the walk (R245, R309). -/
def bindAt (s : State) (gw ctx va : Nat) : Except XErr (Nat × State) :=
  match entryFor s gw ctx va with
  | .error e => .error e
  | .ok e =>
    let dpa := e.dpa + va % 65536
    match dpaCheck s dpa with
    | some .stage2 => .error { cause := .stage2, dpa := dpa }
    | bad =>
      if !homeCheck e dpa || bad.isSome then .error { cause := .placement, dpa := dpa }
      else
        let s := s.learn gw ctx va
        if e.cls ≠ 1 || !e.r then .ok (2, s) else .ok (s.bindUnit ctx (dpa / 65536))

/-- Scrub a LOCAL frame: zeroed and back in the reserve (R276). -/
def State.scrubLocal (s : State) (f : Nat) : State :=
  let s := s.dropUnit (s.frame f).unit
  let unit := (s.frame f).unit
  let s := { s with mem := s.mem.zero (frameDpa f) 65536,
                    poisoned := s.poisoned.filter (fun l => l / 512 != unit) }
  (s.freeFrame f).setFrame f { (s.freeFrame f).frame f with role := .reserve, count := 0 }

/-! ### Leases (R303-R307) -/

/-- The frames of a lease that hold a unit. -/
def leaseFrames (s : State) (n : Nat) : List Nat :=
  (s.frames.filter (fun (_, e) => e.role == .cache && e.st != .free && e.lease == n)).map (·.1)

/-- Frames of a lease that is revoked or lost (R305): clean ones become FREE at once. A fill that has
begun reads its unit still when the lease is revoked, and its frame is then FREE (R307). -/
def State.shedLease (s : State) (n : Nat) (lost : Bool) : State :=
  (leaseFrames s n).foldl (fun s f =>
    match (s.frame f).st with
    | .clean | .shared => s.shedFrame f
    | .filling => if lost then (s.freeFrame f).endFills (s.frame f).unit 3 else s
    | .writeback => if lost then s.setFrame f { s.frame f with st := .dirty } else s
    | _ => s) s

/-- Queue a record of a lease: KIND 1 a warning, 2 an event (R308). -/
def State.leaseRecord (s : State) (n kind event : Nat) : State :=
  s.service (n % 4) { kind := kind, lease := n, event := event, coords := 0 }

/-- A lease becomes EMPTY: its entry is cleared and its redirects go (R305, R327). -/
def State.emptyLease (s : State) (n : Nat) : State :=
  let s := { s with redirects := s.redirects.filter (fun r => r.src != n) }
  s.setLease n { s.lease n with st := .empty, warn := false, ack := false, remain := 0, dbase := 0,
                                ackDue := false }

/-- End the waits of pager cores that satisfy `p`, which gives the destination register, with a
value. -/
def State.endPagerWaits (s : State) (p : SWait → Option Nat) (v : W64) (ends : Bool) : State :=
  { s with pagers := mmap s.pagers (fun _ q =>
      match p q.sw.ctl.wait with
      | some r => { q with sw := q.sw.endPagerWait r v ends }
      | none => q) }

/-- The pager core that waits for a unit's move. -/
def waitsMove (unit : Nat) : SWait → Option Nat
  | .pgmove r u => if u = unit then some r else none
  | _ => none

/-- A dual-home window closes, and its `PGMOVE` returns a status (R326). -/
def State.closeMove (s : State) (unit status : Nat) : State :=
  { s with moves := s.moves.filter (fun x => x.unit != unit) }.endPagerWaits (waitsMove unit) (w64 status)
    true

/-- The phase of a checkpoint that runs: quiescing or copying (R315). -/
def State.ckptRuns (s : State) : Bool := fld s.ckptStat 1 0 == 1 || fld s.ckptStat 1 0 == 2

/-- The end of a checkpoint: phase 3. Fields resume unless it was to halt them, or always where it has
failed (R315). -/
def State.endCheckpoint (s : State) (failed : Bool) : State :=
  { s with ckptStat := w64 (3 + b2n failed * 4),
           heath := { s.heath with halted := bitAt s.ckpt 13 && !failed } }

/-- A lease has left LIVE: a dual-home window that moves a unit to it closes with no switch, as does one
that copies a unit from it, and a checkpoint into it fails (R315, R326). -/
def State.leftLive (s : State) (n : Nat) : State :=
  let status := if (s.lease n).st == .lost then 3 else 2
  let s := (s.moves.filter (fun m => m.dst == n || (m.src == n && !m.copied))).foldl
    (fun s m => s.closeMove m.unit status) s
  if s.ckptRuns && fld s.ckpt 11 0 == n then s.endCheckpoint true else s

/-- A lease changes its state, from LIVE or not. -/
def State.setLeaseSt (s : State) (n : Nat) (l : Lease) : State :=
  let was := (s.lease n).st
  let s := s.setLease n l
  if was == .live && l.st != .live then s.leftLive n else s

/-- A copy of a line of a lease whose unit no frame holds: it was filled or written by bypass, or its frame
has been freed. -/
def frameless (s : State) (n : Nat) (c : Copy) : Bool :=
  let unit := c.dpa / 512
  (dregion (c.dpa * 128)).tag == 3 && (presentFrame s unit).isNone && !s.zeroUnits.contains unit
    && (backing s (c.dpa * 128)).any (fun (m, _) => m == n)

/-- Such a copy whose port carries its write-back. -/
def drains (s : State) (n : Nat) (c : Copy) : Bool := frameless s n c && !portShut s (c.dpa / 512)

/-- Dirty bytes of a lease stand in some core L1 or cluster L2 that no frame stands behind. -/
def leaseStirs (s : State) (n : Nat) : Bool := (s.l1 ++ s.l2).any (fun c => frameless s n c && c.dirty != 0)

/-- The stores to a lease's units that stand in copies with no frame behind them are performed against the
pool, and no copy of those units stays (R249, R307; notes/assumptions/105.md). -/
def State.drainLease (s : State) (n : Nat) : State := s.flush (drains s n) (drains s n)

/-- Free every frame of a lease without write-back (R305); bytes that no frame stands behind go too. -/
def State.dropLease (s : State) (n : Nat) : State :=
  (leaseFrames s n).foldl (fun s f => (s.dropUnit (s.frame f).unit).freeFrame f)
    { s with l1 := s.l1.filter (fun c => !frameless s n c), l2 := s.l2.filter (fun c => !frameless s n c) }

/-- Every cached frame of a lease is evicted, and its other dirty bytes are written back (R249). -/
def State.evictLease (s : State) (n : Nat) : State :=
  ((leaseFrames s n).foldl (fun s f =>
    match (s.frame f).st with
    | .clean | .dirty | .shared => s.evictFrame f
    | _ => s) s).drainLease n

/-- Two bound ranges overlap. -/
def overlaps (a n b m : Nat) : Bool := decide (a < b + m) && decide (b < a + n)

/-- A write to DBASE (R304). An unbind of lease 0 passes over LOCAL frames, whose LEASE reads 0
(notes/assumptions/165.md). -/
def State.writeDbase (s : State) (n : Nat) (value : W64) : State :=
  let l := s.lease n
  let base := fld value 51 16 * 65536
  if l.st != .live then s
  else if base = 0 then
    if s.frames.any (fun (_, e) => e.st != .free && e.role != .local_ && e.lease == n) then s
    else { s.setLease n { l with dbase := 0 } with
             redirects := s.redirects.filter (fun r => r.src != n) }
  else
    let len := l.len * 65536
    let clash := s.leases.filter (fun (m, k) =>
      m != n && k.dbase != 0 && overlaps base len k.dbase (k.len * 65536))
    if l.dbase != 0 || base < poolBase || poolEnd < base + len
        || clash.any (fun (_, k) => k.st == .live || k.st == .releasing) then s
    else
      let s := clash.foldl (fun s (m, k) => s.setLease m { k with dbase := 0 }) s
      let gone := clash.map (·.1)
      let s := { s with
        redirects := s.redirects.filter (fun r => !gone.contains r.src),
        frames := mmap s.frames (fun _ (e : Frame) =>
          if e.role == FrRole.cache && e.st != FrState.free && gone.contains e.lease
              && base ≤ e.unit * 65536 && e.unit * 65536 < base + len then { e with lease := n }
          else e) }
      s.setLease n { l with dbase := base }

/-- Word 0 of a lease's entry (R303). -/
def leaseWord (l : Lease) : W64 :=
  let st := match l.st with
    | .empty => 0 | .live => 1 | .expired => 2 | .revoked => 3 | .lost => 4 | .releasing => 5
  w64 (st + b2n l.warn * 8 + b2n l.ack * 16 + l.node * 256
    + (if l.st == .live then Nat.min l.remain (2 ^ 32 - 1) else 0) * 2 ^ 32)

/-- Send a lease message of R314 to the pool manager on the MGRPORT of a die. -/
def State.leaseMsg (s : State) (die kind n ext : Nat) : State :=
  s.emit ((mget s.pagers die).map (·.mgrPort))
    (.lease · (vdm [(0, kind), (2, n), (4, (s.lease n).node), (24, ext)]))

/-- REVOKE_ACK goes out, once, when the frame effects of the revocation are complete and every store that
was performed before it has reached the pool or a DIRTY frame; it goes on the port of the die that serves
the lease's records (R307; notes/assumptions/128.md). -/
def State.settleRevoke (s : State) (n : Nat) : State :=
  if (s.lease n).ackDue && !(leaseFrames s n).any (fun f => match (s.frame f).st with
      | .dirty => false
      | _ => true) then
    let s := s.drainLease n
    if leaseStirs s n then s
    else (s.leaseMsg (n % 4) 6 n 0).setLease n { s.lease n with ackDue := false }
  else s

/-! ### Nodes (R311) -/

/-- A node becomes lost; every lease on it that is not EMPTY becomes LOST. -/
def State.loseNode (s : State) (n : Nat) (down : Bool) : State :=
  let v := s.node n
  let s := s.setNode n { v with lost := true, needGrant := v.needGrant || down }
  ((s.leases.map (·.1)).filter (fun i => (s.lease i).node == n && (s.lease i).st != .empty)).foldl
    (fun s i =>
      let s := s.setLeaseSt i { s.lease i with st := .lost, ackDue := false }
      (s.shedLease i true).leaseRecord i 2 3) s

/-- Every node whose loss has ended stops being lost. -/
def State.relive (s : State) : State :=
  { s with nodes := mmap s.nodes (fun _ v =>
      if v.lost && v.route &&& ~~~s.heath.fenced != 0 && !v.needGrant then { v with lost := false }
      else v) }

/-- A write of a node's ROUTE mask (R302, R311). -/
def State.writeRoute (s : State) (n : Nat) (mask : BitVec 16) : State :=
  let old := (s.node n).route
  let s := s.setNode n { s.node n with route := mask }
  let s := if (mask == 0 && old != 0) || (mask != 0 && mask &&& ~~~s.heath.fenced == 0) then
      s.loseNode n false else s
  s.relive

/-- Fence ports; nodes whose last port is fenced are lost (R311, R332). -/
def State.fencePorts (s : State) (ports : BitVec 16) : State :=
  let before := s.heath.fenced
  let s := { s with heath := { s.heath with fenced := before ||| ports } }
  (s.nodes.filter (fun (_, v) => v.route != 0 && v.route &&& ~~~before != 0
      && v.route &&& ~~~s.heath.fenced == 0)).foldl (fun s (n, _) => s.loseNode n false) s

/-! ### Service completion (R292, R309) -/

/-- A chain leaves its swath and the copy counter falls (R168). -/
def Swath.dropChain (w : Swath) (uid : Nat) : Swath :=
  if w.eng.chains.any (fun c => c.uid == uid) then
    { w with eng := { w.eng with chains := w.eng.chains.filter (fun c => c.uid != uid),
                                 copies := w.eng.copies - 1 } }
  else w

/-- A transfer leaves its swath and the window counter falls (R212). -/
def Swath.dropXfer (w : Swath) (uid : Nat) : Swath :=
  if w.eng.xfers.any (fun c => c.uid == uid) then
    { w with eng := { w.eng with xfers := w.eng.xfers.filter (fun c => c.uid != uid),
                                 windows := w.eng.windows - 1 } }
  else w

/-- A chain or transfer is ended: its swath receives the terminal fault (R168). -/
def State.endEngine (s : State) (fid sw : Nat) (off : W32) (r : Raise) : State :=
  match s.field? fid, s.swathAt fid sw with
  | some f, some w =>
    s.terminal fid sw { faultRec f sw w.ctl.level false 0 r with chainoff := off }
  | _, _ => s

/-- The vector of a completed launch, through its context's virtual function (R402, R414). -/
def State.launchVector (s : State) (l : Launch) : State :=
  match l.irq, (s.ctx? l.ctx).bind (·.vf) with
  | true, some v => s.msix v l.vec
  | _, _ => s

/-- The completion write of a launch is given up: a record with no swath (R414). -/
def State.agentFault (s : State) (l : Nat) (cause : BitVec 16) : State :=
  match mget s.launches l with
  | none => s
  | some x =>
    let s := s.updLaunch l (fun x => { x with complWait := false, done := true })
    (s.terminalRecord 0 x.ctx
      { cause := cause, terminal := true, ctx := x.ctx, va := x.lrec.compl, coords := noSwath,
        ltag := x.ltag }).launchVector x

/-- A launch's submission is refused: `LAUNCH_INVALID` with no swath (R107). -/
def State.refuseLaunch (s : State) (die ctx : Nat) (ltag : W32) (cause : Cause) : State :=
  s.terminalRecord die ctx
    { cause := cause.code, terminal := true, ctx := ctx, coords := noSwath, ltag := ltag }

/-- The record of the fault that a swath is parked on, as it was when it was raised (R287, R292). -/
def Field.parkRec (f : Field) (sw : Nat) (p : Park) : RingRec :=
  { cause := p.cause, code := p.code, terminal := true, src := p.src, level := p.level, ctx := f.ctx,
    va := p.va, coords := f.coords sw p.lane, lpc := p.lpc }

/-- The record of an engine's fault that a servicer ends (R168, R287). -/
def Field.engineRec (f : Field) (sw level : Nat) (cause : BitVec 16) (va : W64) (off : W32) : RingRec :=
  { cause := cause, terminal := true, level := level, ctx := f.ctx, va := va, coords := f.coords sw 0,
    chainoff := off }

/-- A request of another agent that a servicer has given up: it is answered as one that finds no export
(R330, R331). -/
def State.refuseExport (s : State) (uid : Nat) : State :=
  { s with exportWaits := s.exportWaits.map (fun (x : ExportWait) =>
             if x.uid == uid then { x with service := false, refused := true } else x),
           agenda := s.agenda ++ [.exportRetry uid] }

/-- End the fault of one requester with the terminal fault (R309, R382): each has its own VA. -/
def State.endRequester (s : State) (cause : BitVec 16) (q : Requester) : State :=
  match q with
  | .swath fid sw =>
    match s.field? fid, s.swathAt fid sw with
    | some f, some w =>
      match w.ctl.parked with
      | none => s
      | some p =>
        (s.updSwathAt fid sw (fun w => { w with ctl := { w.ctl with parked := none } })).terminal fid sw
          (f.parkRec sw p) (some p.spc)
    | _, _ => s
  | .chain fid sw uid =>
    match s.field? fid, s.swathAt fid sw with
    | some f, some w =>
      match w.eng.chains.find? (fun c => c.uid == uid) with
      | none => s
      | some c =>
        ((s.dropCopyRef fid sw uid).updSwathAt fid sw (fun w => w.dropChain uid)).terminal fid sw
          (f.engineRec sw w.ctl.level cause c.faultVa (w32 c.cur))
    | _, _ => s
  | .xfer fid sw uid =>
    match s.field? fid, s.swathAt fid sw with
    | some f, some w =>
      match w.eng.xfers.find? (fun c => c.uid == uid) with
      | none => s
      | some c =>
        (s.updSwathAt fid sw (fun w => w.dropXfer uid)).terminal fid sw
          (f.engineRec sw w.ctl.level cause c.faultVa 0xFFFFFFFF)
    | _, _ => s
  | .arena fid =>
    match s.field? fid with
    | some f =>
      let s := s.updField fid (fun f => { f with arena := false, saving := false })
      s.imageInvalid fid f f.firstSw
    | none => s
  | .line fid sw =>
    match s.field? fid with
    | some f =>
      (s.updSwathAt fid sw (fun w => { w with ctl := { w.ctl with lineWait := false } })).imageInvalid fid f sw
    | none => s
  | .slot uid => s.dropSlotWait uid
  | .ring c retry => s.endRing c retry cause
  | .exporting uid => s.refuseExport uid
  | .agent l =>
    if (mget s.claims l).isSome then
      match mget s.claims l with
      | some c =>
        { s.refuseLaunch (l / 48) c.ctx (c.words.getD 1 0 |>.setWidth 32) .launchInvalid with
            claims := mdel s.claims l }
      | none => s
    else s.agentFault l cause
  | .tolerant => s
  | .pfh => s

/-- The dequeued record of an index. -/
def State.dequeued (s : State) (die idx : Nat) : Option Service :=
  (mget s.pagers die).bind (fun p => p.recs.find? (fun r => r.st == .dequeued && r.idx == idx))

/-- Free a record; the oldest waiting record may enter the queue (R308). -/
def State.freeRec (s : State) (die idx : Nat) : State :=
  { s with pagers := mupd s.pagers die (fun p => { p with recs := p.recs.filter (fun r =>
      !(r.st == RecState.dequeued && r.idx == idx)) }) }.takeIn die

/-- COMPLETE with RETRY (R309). -/
def State.completeRetry (s : State) (die idx : Nat) : State :=
  match s.dequeued die idx with
  | none => s
  | some r =>
    let s := s.freeRec die idx
    if r.kind = 0 then r.reqs.foldl State.wake s else s

/-- COMPLETE with TERMINAL (R309). -/
def State.completeTerminal (s : State) (die idx : Nat) : State :=
  match s.dequeued die idx with
  | none => s
  | some r =>
    let s := s.freeRec die idx
    if r.kind = 0 then r.reqs.foldl (fun s q => s.endRequester r.cause q) s else s

/-- COMPLETE with BIND (R309): the unit of the record's VA, as `MAPFT` finds it in the record's context
through the die's own port. A walk that faults gives no status: RESULT stays, and the record stays
dequeued (notes/assumptions/129.md). -/
def State.completeBind (s : State) (die idx : Nat) : State :=
  match s.dequeued die idx with
  | none => s
  | some r =>
    if r.kind ≠ 0 then s.freeRec die idx
    else if r.cause ≠ Cause.firstTouch.code then s
    else
      match bindAt s (32 + die) r.ctx r.va.toNat with
      | .error _ => s
      | .ok (st, s) =>
        let s := { s with pagers := mupd s.pagers die (fun p => { p with result := st }) }
        if st ≤ 1 then s.completeRetry die idx else s

/-- COMPLETE with a reserved action: ignored for a fault, frees a record of another kind. -/
def State.completeReserved (s : State) (die idx : Nat) : State :=
  match s.dequeued die idx with
  | none => s
  | some r => if r.kind = 0 then s else s.freeRec die idx

/-! ### The pager window (R302) -/

def pwin : Nat := 0xF_0000_0000_0000

/-- A frame-map entry as the window shows it (R271). -/
def frameWord (e : Frame) : W64 :=
  let role := match e.role with
    | .direct => 0 | .cache => 1 | .reserve => 2 | .local_ => 3 | .retired => 4
  let st := match e.st with
    | .free => 0 | .filling => 1 | .clean => 2 | .dirty => 3 | .writeback => 4 | .shared => 5
    | .upgrading => 6
  w64 (role * 2 ^ 61 + st * 2 ^ 58 + e.count * 2 ^ 48 + e.unit % 2 ^ 36 * 2 ^ 12 + e.lease)

/-- A dword of a service record (R308). -/
def serviceWord (r : Service) (off : Nat) : W64 :=
  match off with
  | 0 =>
    w64 (r.cause.toNat + r.kind * 2 ^ 16 + b2n r.noLease * 2 ^ 18 + b2n r.merged * 2 ^ 19
      + r.lease * 2 ^ 20 + r.ctx * 2 ^ 32 + r.rq * 2 ^ 44)
  | 8 => r.va
  | 16 => w64 r.dpa
  | 24 => r.coords
  | 32 => w64 r.event
  | 40 => w64 r.seq
  | _ => 0

/-- A dword of a lease's entry (R303). -/
def leaseDword (l : Lease) (off : Nat) : W64 :=
  match off with
  | 0 => leaseWord l
  | 8 => w64 l.pbase
  | 16 => w64 l.dbase
  | _ => w64 (l.len + b2n l.safe * 2 ^ 35)

/-- The ROUTE masks of four nodes. -/
def routeWord (s : State) (i : Nat) : W64 :=
  (s.node (4 * i + 3)).route ++ (s.node (4 * i + 2)).route ++ (s.node (4 * i + 1)).route
    ++ (s.node (4 * i)).route

/-- A listed offset of the window. -/
def windowListed (off : Nat) : Bool :=
  off % 8 == 0 && (off ≤ 0x38 || (0x1_0000 ≤ off && off < 0x2_0000) || (0x2_0000 ≤ off && off < 0x4_0000)
    || (0x4_0000 ≤ off && off < 0x4_2000) || (0x100_0000 ≤ off && off < 0x100_0000 + 8 * framesPerDie))

/-- A read of the window of a die, but for DEQ. -/
def windowRead (s : State) (die off : Nat) : W64 :=
  match mget s.pagers die with
  | none => 0
  | some p =>
    if off = 0x10 then w64 p.result
    else if off = 0x18 then if die = 0 then s.ckpt else 0
    else if off = 0x20 then s.ckptStat
    else if off = 0x28 then s.time
    else if off = 0x30 then
      w64 (s.frames.filter (fun (f, e) =>
        f / framesPerDie == die && e.role == .reserve && e.st == .free)).length
    else if off = 0x38 then w64 p.mgrPort
    else if 0x1_0000 ≤ off && off < 0x2_0000 then
      match p.recs.find? (fun r => r.st != .waiting && r.idx == (off - 0x1_0000) / 64) with
      | some r => serviceWord r (off % 64)
      | none => 0
    else if 0x2_0000 ≤ off && off < 0x4_0000 then
      leaseDword (s.lease ((off - 0x2_0000) / 32)) (off % 32)
    else if 0x4_0000 ≤ off && off < 0x4_2000 then routeWord s ((off - 0x4_0000) / 8)
    else if 0x100_0000 ≤ off then frameWord (s.frame (die * framesPerDie + (off - 0x100_0000) / 8))
    else 0

/-- A ROLE write (R271, R313). -/
def State.writeRole (s : State) (f : Nat) (value : W64) : State :=
  let e := s.frame f
  let put (r : FrRole) : State :=
    if s.setsFixed && (e.role == .cache || r == .cache) && e.role != r then s
    else s.setFrame f { e with role := r, unit := 0, lease := 0 }
  if e.st != .free || (e.role == .retired && s.setsFixed) then s
  else match fld value 63 61 with
    | 0 => put .direct
    | 1 => put .cache
    | 2 => put .reserve
    | 4 => put .retired
    | _ => s

/-- The steps that a window write brings about; each is one event (R302). -/
def windowSteps (s : State) (die off : Nat) (v : W64) : List Pending :=
  if off = 8 then
    if fld v 63 20 ≠ 0 || fld v 15 10 ≠ 0 then [] else [.complete die (fld v 9 0) (fld v 19 16)]
  else if off = 0x18 then
    if die ≠ 0 then []
    else if bitAt v 12 then [.checkpoint (fld v 11 0) (bitAt v 13)]
    else [.windowWrite die off v]
  else if off = 0x38 then [.windowWrite die off v]
  else if 0x2_0000 ≤ off && off < 0x4_0000 then
    if off % 32 = 16 then [.dbase ((off - 0x2_0000) / 32) v] else []
  else if 0x4_0000 ≤ off && off < 0x4_2000 then
    (List.range 4).filterMap (fun j =>
      let n := 4 * ((off - 0x4_0000) / 8) + j
      let m := BitVec.ofNat 16 (fld v (16 * j + 15) (16 * j))
      if (s.node n).route = m then none else some (.route n m))
  else if 0x100_0000 ≤ off then [.role die ((off - 0x100_0000) / 8) v]
  else []

end Sys2Proof.Machine
end

