-- ==== Sys2Proof/Machine/ScalarMem.lean ====
section
/-! DEFINITION. Scalar loads and stores in global memory, the scratchpad and the constant block, and
the accesses of a pager core (R53-R55, R117, R301). -/

namespace Sys2Proof.Machine
open Sys2Proof

/-! ### The accesses of a pager core (R301) -/

/-- The storage and the checks behind a pager core's DPA access. -/
def pagerCheck (s : State) (dpa : Nat) : Option XErr :=
  match dregion dpa with
  | .reserved => some (.of .range)
  | .sram core off => if off < 16384 * (s.carvedBanks core).length then none else some (.of .range)
  | .llc die off => if off < s.llcCarved die then none else some (.of .range)
  | .hbm => if s.poisoned.contains (dpa / 128) then some { cause := .poisoned, dpa := dpa } else none
  | .pool =>
    if s.localUnit (dpa / 65536) then none
    else match leaseCheck s dpa with
      | some c => some { cause := c, dpa := dpa }
      | none => if s.poisoned.contains (dpa / 128) then some { cause := .poisoned, dpa := dpa } else none

/-- A pager core's access to a pool unit without a frame goes over a fenced port, and waits (R332;
notes/assumptions/127.md). -/
def pagerShut (s : State) (dpa : Nat) : Bool := lineShut s (dpa / 128)

/-- A load in global memory by an issuing party: through its level, or of a DPA at its home. -/
def gLoad (F : Focus) (lvl : Level) (sys : Bool) (s : State) (va n : Nat) : MRes Nat :=
  match F.pager with
  | none => loadAt lvl sys s F.agent va n
  | some _ =>
    match pagerCheck s va with
    | some e => .fault e
    | none =>
      if pagerShut s va then .hold s
      else match (if sys then readHold s (va / 128) (byteMask (va % 128) n) else none) with
        | some s' => .hold s'
        | none => .ok (homeRd s va n) s

/-- A store in global memory by an issuing party at a level, as a release or a signal performs it: it
needs R and W (R203, R264). -/
def gStore (F : Focus) (lvl : Level) (sys : Bool) (s : State) (va v n : Nat) : MRes Unit :=
  match F.pager with
  | none => storeAt lvl sys s F.agent (F.agent.access true true false) va v n
  | some _ =>
    match pagerCheck s va with
    | some e => .fault e
    | none => homePutHold s va v n

/-- An atomic in global memory by an issuing party at a level. -/
def gAtomic (F : Focus) (lvl : Level) (sys : Bool) (s : State) (va n : Nat) (f : Nat → Option Nat) :
    MRes Nat :=
  match F.pager with
  | none => atomicAt lvl sys s F.agent va n f
  | some _ =>
    match pagerCheck s va with
    | some e => .fault e
    | none =>
      -- at `system` scope the host's half is collected even when nothing is written (R225, R328)
      if pagerShut s va then .hold s
      else match (if sys then readHold s (va / 128) (byteMask (va % 128) n) else none) with
        | some s' => .hold s'
        | none =>
          let old := homeRd s va n
          match f old with
          | some v => (homePutHold s va v n).bind fun _ s => .ok old s
          | none => .ok old s

/-- What a memory operation of a scalar instruction comes to. -/
def MRes.out {α : Type} (r : MRes α) (va : Nat) (k : α → State → SOut) : SOut :=
  match r with
  | .ok a s => k a s
  | .fault e => .trap (e.raise va)
  | .hold s => .hold s

/-- The window of the pager's own die (R301). -/
def inWindow (F : Focus) (va : Nat) : Bool :=
  F.pager.isSome && decide (pwin ≤ va) && decide (va < pwin + 0x200_0000)

/-! ### Global loads and stores (R53-R55) -/

/-- The address of a scalar access. -/
def scalarAddr (w : Swath) (a : BitVec 6) (imm : W64) : Nat := (w.xr a + imm).toNat

/-- Extend a loaded value. -/
def extend (signed : Bool) (n v : Nat) : W64 := if signed then sextN (8 * n) v else w64 v

/-- A load of `n` bytes. -/
def scalarLoad (n : Nat) (signed : Bool) (st : BitVec 2) (d a : BitVec 6) (imm : W64) (len : Nat)
    (s : State) : Result :=
  scalarIssue { SForm.var st [d] [a] with len := len }
    (fun F w s =>
      let va := scalarAddr w a imm
      if va % n ≠ 0 || (inWindow F va && n != 8) then .trap { raise .misaligned with va := w64 va }
      else if inWindow F va then
        let off := va - pwin
        if !windowListed off then .trap { raise .range with va := w64 va }
        else if off = 0 then .wait s (.deq d.toNat len)
        else .done s [(d.toNat, windowRead s F.die off)] none
      else (gLoad F .l1 false s va n).out va
        (fun v s => .done s [(d.toNat, extend signed n v)] none)) s

/-- A plain store by an issuing party: in the core L1, or at the home for a pager core. -/
def plainStore (F : Focus) (s : State) (va v n : Nat) : MRes Unit :=
  match F.pager with
  | none => storeL1 s F.agent va v n
  | some _ => gStore F .home false s va v n

/-- A store of the `n` low bytes. -/
def scalarStore (n : Nat) (st : BitVec 2) (d a : BitVec 6) (imm : W64) (len : Nat) (s : State) :
    Result :=
  scalarIssue { SForm.var st [] [d, a] with len := len }
    (fun F w s =>
      let va := scalarAddr w a imm
      if va % n ≠ 0 || (inWindow F va && n != 8) then .trap { raise .misaligned with va := w64 va }
      else if inWindow F va then
        let off := va - pwin
        if !windowListed off then .trap { raise .range with va := w64 va }
        else .done { s with agenda := s.agenda ++ windowSteps s F.die off (w.xr d) } [] none
      else (plainStore F s va (w.xr d).toNat n).out va
        (fun _ s => .done s [] none)) s

/-! ### Scopes (R196) -/

/-- The performing level of a scope code for a field's swaths. -/
def scopeLevel (s : State) (launch scope : Nat) : Level :=
  let mw := ((mget s.launches launch).map (·.lrec.mw)).getD 0
  match scope with
  | 0 | 1 => .l1
  | 2 => if mw = 0 then .l1 else if mw = 1 then .l2 else .home
  | 3 => if mw ≤ 1 then .l2 else .home
  | _ => .home

/-- The scope code of an access to a scratchpad: `field`, or `meadow` for another field's (R172). -/
def padScope (own other : Nat) : Nat := if own = other then 1 else 2

/-! ### The scratchpad (R98, R117) -/

/-- The field and the offset in it that a scratchpad offset reaches; none is `RANGE`. `own` keeps to
the field's own scratchpad. A field of the meadow that has ended or faulted is reached no longer: the
window raises `RANGE` there (notes/assumptions/140.md). -/
def scratchAt (s : State) (fid off n : Nat) (own : Bool) : Option (Nat × Nat) :=
  match s.field? fid with
  | none => none
  | some f =>
    if off + n ≤ f.scrKib * 1024 then some (fid, off)
    else if own then none
    else
      match (mget s.launches f.launch).map (·.lrec) with
      | none => none
      | some r =>
        if r.mw = 0 || off < 0x10_0000 then none
        else
          let i := off / 0x10_0000 - 1
          let o := off % 0x10_0000
          if r.scr * 1024 < o + n then none
          else ((s.groupOf fid).find? (fun (_, g) => g.my * r.mw + g.mx == i)).map (fun (k, _) => (k, o))

/-- `n` bytes of a field's scratchpad. -/
def scratchRd (s : State) (fid off n : Nat) : Nat :=
  ((s.field? fid).map (fun f => f.spad.rdN off n)).getD 0

def State.scratchWr (s : State) (fid off v n : Nat) : State :=
  s.updField fid (fun f => { f with spad := f.spad.wrN off n v })

def scratchLoadWith (st : BitVec 2) (d a : BitVec 6) (imm : W64) (len : Nat) (s : State) : Result :=
  scalarIssue { SForm.var st [d] [a] with len := len, onPager := false }
    (fun F w s =>
      let off := scalarAddr w a imm
      if off % 8 ≠ 0 then .trap (raise .misaligned)
      else match scratchAt s F.fid off 8 false with
        | none => .trap (raise .range)
        | some (f, o) => .done s [(d.toNat, w64 (scratchRd s f o 8))] none) s

def scratchStoreWith (st : BitVec 2) (d a : BitVec 6) (imm : W64) (len : Nat) (s : State) : Result :=
  scalarIssue { SForm.var st [] [d, a] with len := len, onPager := false }
    (fun F w s =>
      let off := scalarAddr w a imm
      if off % 8 ≠ 0 then .trap (raise .misaligned)
      else match scratchAt s F.fid off 8 false with
        | none => .trap (raise .range)
        | some (f, o) => .done (s.scratchWr f o (w.xr d).toNat 8) [] none) s

/-! ### The constant block (R53-R55) -/

/-- A line of the launch's constant block by its VA line, from the copy that the launch keeps; the
first read of a line makes its copy (R55; notes/assumptions/9.md). -/
def constLine (s : State) (F : Focus) (line : Nat) : Except XErr (BitVec 1024 × State) :=
  match mget s.launches F.launch with
  | none => .ok (0, s)
  | some l =>
    match mget l.consts line with
    | some v => .ok (v, s)
    | none =>
      match forContext s F.die F.ctx (128 * line) false with
      | .error e => .error e
      | .ok xl =>
        let v := if xl.zero then 0 else homeLine s (xl.dpa / 128 * 128)
        .ok (v, s.updLaunch F.launch (fun l => { l with consts := mput l.consts line v }))

/-- `n` bytes of the launch's constant block, at most 8 and within one line; none is `RANGE`. A fault
names the VA of the bytes. -/
def constRd (s : State) (F : Focus) (off n : Nat) : Option (Except Raise (Nat × State)) :=
  match (mget s.launches F.launch).map (·.lrec) with
  | none => none
  | some r =>
    let va := (r.const.toNat + off) % 2 ^ 64
    if r.clen < off + n then none
    else match constLine s F (va / 128) with
      | .error e => some (.error (e.raise va))
      | .ok (v, s) => some (.ok (v.toNat / 2 ^ (8 * (va % 128)) % 2 ^ (8 * n), s))

def constLoadWith (st : BitVec 2) (d a : BitVec 6) (imm : W64) (len : Nat) (s : State) : Result :=
  scalarIssue { SForm.var st [d] [a] with len := len, onPager := false }
    (fun F w s =>
      let off := scalarAddr w a imm
      if off % 8 ≠ 0 then .trap (raise .misaligned)
      else match constRd s F off 8 with
        | none => .trap (raise .range)
        | some (.error r) => .trap r
        | some (.ok (v, s)) => .done s [(d.toNat, w64 v)] none) s

/-! ### The forms -/

def execLdb (d a : BitVec 6) (i : BitVec 11) (st : BitVec 2) (s : State) : Result :=
  scalarLoad 1 true st d a (sx64 i) 4 s

def execLdbu (d a : BitVec 6) (i : BitVec 11) (st : BitVec 2) (s : State) : Result :=
  scalarLoad 1 false st d a (sx64 i) 4 s

def execLdh (d a : BitVec 6) (i : BitVec 11) (st : BitVec 2) (s : State) : Result :=
  scalarLoad 2 true st d a (sx64 i) 4 s

def execLdhu (d a : BitVec 6) (i : BitVec 11) (st : BitVec 2) (s : State) : Result :=
  scalarLoad 2 false st d a (sx64 i) 4 s

def execLdw (d a : BitVec 6) (i : BitVec 11) (st : BitVec 2) (s : State) : Result :=
  scalarLoad 4 true st d a (sx64 i) 4 s

def execLdwu (d a : BitVec 6) (i : BitVec 11) (st : BitVec 2) (s : State) : Result :=
  scalarLoad 4 false st d a (sx64 i) 4 s

def execLdd (d a : BitVec 6) (i : BitVec 11) (st : BitVec 2) (s : State) : Result :=
  scalarLoad 8 false st d a (sx64 i) 4 s

def execStb (d a : BitVec 6) (i : BitVec 11) (st : BitVec 2) (s : State) : Result :=
  scalarStore 1 st d a (sx64 i) 4 s

def execSth (d a : BitVec 6) (i : BitVec 11) (st : BitVec 2) (s : State) : Result :=
  scalarStore 2 st d a (sx64 i) 4 s

def execStw (d a : BitVec 6) (i : BitVec 11) (st : BitVec 2) (s : State) : Result :=
  scalarStore 4 st d a (sx64 i) 4 s

def execStd (d a : BitVec 6) (i : BitVec 11) (st : BitVec 2) (s : State) : Result :=
  scalarStore 8 st d a (sx64 i) 4 s

def execLds (d a : BitVec 6) (i : BitVec 11) (st : BitVec 2) (s : State) : Result :=
  scratchLoadWith st d a (sx64 i) 4 s

def execSts (d a : BitVec 6) (i : BitVec 11) (st : BitVec 2) (s : State) : Result :=
  scratchStoreWith st d a (sx64 i) 4 s

def execLdc (d a : BitVec 6) (i : BitVec 11) (st : BitVec 2) (s : State) : Result :=
  constLoadWith st d a (sx64 i) 4 s

end Sys2Proof.Machine
end

