-- ==== Sys2Proof/Machine/Streams.lean ====
section
/-! DEFINITION. The stream handshake, the transfers between the two views of the uniform registers,
named barriers and system registers (R30, R31, R60-R66, R69, R97, R129, R237, R280). -/

namespace Sys2Proof.Machine
open Sys2Proof

/-! ### Uniform registers (R30, R62, R63) -/

/-- The registers that a mask names. -/
def wNames (m : BitVec 16) : List Nat := (List.range 16).filter (fun n => m.getLsbD n)

/-- Scalar view of `w`n. -/
def Swath.ws (w : Swath) (n : Nat) : W64 := mgetD w.regs.wS n 0

/-- Write the scalar view of `w`n; it counts as written since the last meeting. -/
def Swath.setWs (w : Swath) (n : Nat) (v : W64) : Swath :=
  { w with regs := { w.regs with wS := mput w.regs.wS n v },
           meet := { w.meet with wset := w.meet.wset ||| (1 <<< n) } }

/-- Copy the named registers of `src` into the lane view. -/
def Swath.copyIn (w : Swath) (m : BitVec 16) (src : NMap W64) : Swath :=
  { w with regs := { w.regs with
      wL := (wNames m).foldl (fun l n => mput l n (mgetD src n 0)) w.regs.wL } }

/-- The copy made by `LRUN` and `TRUN`: every register that the scalar stream wrote since the last
meeting. -/
def Swath.meetNow (w : Swath) : Swath :=
  let w := w.copyIn w.meet.wset w.regs.wS
  { w with meet := { w.meet with wset := 0 } }

/-- The reseed of the lane generators that an `LRUN` carries (R183). -/
def Swath.reseedNow (w : Swath) : Swath :=
  if w.meet.seedSet then
    { w with meet := { w.meet with seedSet := false },
             eng := { w.eng with lseed := w.regs.seed, lgen := [] } }
  else w

/-- Stage the copy of an `LGO` (R63). -/
def Swath.stage (w : Swath) : Swath :=
  let m := w.meet
  { w with meet := { m with
      staged := m.wset, wG := (wNames m.wset).foldl (fun g n => mput g n (w.ws n)) [], wset := 0,
      stagedFmt := if m.fmtSet then some w.regs.fmt else none, fmtSet := false,
      stagedSeed := if m.seedSet then some w.regs.seed else none, seedSet := false } }

/-- The staged copy lands (R61, R63). -/
def Swath.land (w : Swath) : Swath :=
  let m := w.meet
  let w := w.copyIn m.staged m.wG
  let w := match m.stagedSeed with
    | some v => { w with eng := { w.eng with lseed := v, lgen := [] } }
    | none => w
  let w := match m.stagedFmt with
    | some v => w.updFrag false (fun g => { g with fmt := v })
    | none => w
  { w with meet := { w.meet with go := false, staged := 0, wG := [], stagedFmt := none,
                                 stagedSeed := none } }

/-- A staged copy is discarded: what it carried counts again as written (R61, R183). -/
def Swath.unstage (w : Swath) : Swath :=
  let m := w.meet
  { w with meet := { m with
      go := false, wset := m.wset ||| m.staged, staged := 0, wG := [],
      fmtSet := m.fmtSet || m.stagedFmt.isSome, stagedFmt := none,
      seedSet := m.seedSet || m.stagedSeed.isSome, stagedSeed := none } }

/-- A new fragment at a lane PC (R62, R290). -/
def newFrag (mask : LaneMask) (pc : W32) (fmt : W64) : Frag :=
  { mask := mask, pc := pc, rpc := pc, fmt := fmt, rfmt := fmt, tok := 0, wait := .ready,
    held := false, pend := false, endPc := none, sb := [], rset := [], passed := 0, aged := none,
    born := 0 }

/-- Start the lane stream (R62). The fragment's RPC and RFMT are its start PC and format at every LEVEL,
also at 1 and 2 (R244; notes/assumptions/162.md). -/
def Swath.startLanes (w : Swath) (pc : W32) : Swath :=
  let w := (w.meetNow).reseedNow
  { w with meet := { w.meet with hs := .running, fmtSet := false },
           lanes := { f0 := some (newFrag (presentMask w.ng) pc w.regs.fmt), f1 := none, stack := [],
                      late := w.lanes.late, births := 1 } }

/-! ### Signals (R64, R96, R280) -/

/-- A count is below the `n` units consumed next, modulo `2^b` from the units consumed so far. -/
def coveredBy (b stamp consumed n : Nat) : Bool :=
  decide ((stamp + 2 ^ b - consumed % 2 ^ b) % 2 ^ b < n)

/-- Consume `n` signals: what the lane stream wrote before the occurrences covered crosses into the
scalar view, with the flags that it raised there (R30, R64, R69). -/
def Swath.consume (w : Swath) (n : Nat) : Swath :=
  let c := w.meet.consumed.toNat
  let cross := (wNames w.meet.lwset).filter (fun i =>
    coveredBy 16 (mgetD w.meet.lwstamp i 0).toNat c n)
  let fl := w.regs.laneFlags.filter (fun (s, _) => coveredBy 32 s.toNat c n)
  { w with
    regs := { w.regs with
      wS := cross.foldl (fun m i => mput m i (mgetD w.regs.wL i 0)) w.regs.wS,
      flags := w.regs.flags ||| flAll (fl.map (·.2)),
      laneFlags := w.regs.laneFlags.filter (fun (s, _) => !coveredBy 32 s.toNat c n) },
    meet := { w.meet with
      sig := w.meet.sig - n, consumed := w.meet.consumed + w32 n,
      lwset := cross.foldl (fun m i => m &&& ~~~((1 : BitVec 16) <<< i)) w.meet.lwset } }

/-! ### Named barriers (R66, R97) -/

/-- Bit 2b of a token word: a token on barrier b; bit 2b + 1: its phase (R129). -/
def tokHas (t : BitVec 32) (b : Nat) : Bool := t.getLsbD (2 * b)
def tokPhase (t : BitVec 32) (b : Nat) : Bool := t.getLsbD (2 * b + 1)

def tokClear (t : BitVec 32) (b : Nat) : BitVec 32 := t &&& ~~~((3 : BitVec 32) <<< (2 * b))

def tokSet (t : BitVec 32) (b : Nat) (phase : Bool) : BitVec 32 :=
  tokClear t b ||| ((if phase then 3 else 1 : BitVec 32) <<< (2 * b))

/-- Tokens of two arms that fuse: one arm's, an equal one, or that of the phase in progress. -/
def tokMerge (bars : List Bar) (t u : BitVec 32) : BitVec 32 :=
  (List.range 16).foldl (fun acc b =>
    if tokHas t b && tokHas u b then
      if tokPhase t b = tokPhase u b then tokSet acc b (tokPhase t b)
      else tokSet acc b (((bars.drop b).head?.map (·.phase)).getD false)
    else if tokHas t b then tokSet acc b (tokPhase t b)
    else if tokHas u b then tokSet acc b (tokPhase u b)
    else acc) 0

/-- An arrival with count n: the barrier after it and the phase that the party awaits; none is
`BAR_COUNT`. -/
def Bar.arrive (b : Bar) (n : Nat) : Option (Bar × Bool) :=
  if n = 0 || 4095 < n then none
  else if b.pending ≠ 0 && b.expected ≠ n then none
  else if b.pending + 1 = n then
    some ({ expected := n, pending := 0, phase := !b.phase }, b.phase)
  else some ({ expected := n, pending := b.pending + 1, phase := b.phase }, b.phase)

/-- The barrier b of a field; none when it lies beyond the pool. -/
def State.bar (s : State) (fid b : Nat) : Option Bar :=
  (s.field? fid).bind (fun f => (f.bars.drop b).head?)

def State.setBar (s : State) (fid b : Nat) (v : Bar) : State :=
  s.updField fid (fun f => { f with bars := f.bars.set b v })

/-- A party with these tokens waits on barrier b: its phase has not completed. -/
def barWaits (s : State) (fid b : Nat) (tok : BitVec 32) : Bool :=
  tokHas tok b && ((s.bar fid b).map (·.phase)).getD false == tokPhase tok b

/-! ### System registers (R31, R109, R237, R281, R390, R391) -/

/-- `sr.tcause` (R237). -/
def Ctl.tcause (c : Ctl) : W64 := w64 ((c.frame c.level).causeWord + c.level * 2 ^ 28)

/-- `sr.swath` (R109). -/
def swathWord (f : Field) (w : Swath) : W64 :=
  w64 (w.sw + w.quad * 2 ^ 10 + w.role * 2 ^ 12 + f.mx * 2 ^ 14 + f.my * 2 ^ 19 + f.num * 2 ^ 24)

/-- `sr.ctx` (R390). -/
def ctxWord (id : Nat) (x : Context) (vf : Option Nat) : W64 :=
  let p := x.policy
  w64 (id + x.depth * 2 ^ 12 + x.part * 2 ^ 16 + b2n x.key.isSome * 2 ^ 21 + p.widest * 2 ^ 22
    + b2n p.clampTrap * 2 ^ 25 + b2n p.debug * 2 ^ 26 + b2n p.tlbi * 2 ^ 27 + b2n p.create * 2 ^ 28
    + p.maxClass * 2 ^ 29 + vf.getD 0 * 2 ^ 32 + b2n vf.isSome * 2 ^ 41)

/-- `sr.flags` as a read returns it: flags of lane instructions that no `LWAIT` covers yet may or may
not be included (R69). -/
def flagsRead (s : State) (w : Swath) : Flags :=
  w.regs.flags ||| flAll (w.regs.laneFlags.mapIdx (fun i (_, f) =>
    if Config.freeBool (s.freeCtr + i) then f else 0))

/-- A scalar read of a system register. A pager core belongs to no context and no field. -/
def sysRead (s : State) (F : Focus) (w : Swath) (r : Nat) : W64 :=
  match r with
  | 0x000 => w.regs.fmt
  | 0x001 => zx64 (flagsRead s w)
  | 0x002 =>
    match F.pager, s.ctx? F.ctx with
    | none, some x => ctxWord F.ctx x ((mget s.launches F.launch).bind (·.vf))
    | _, _ => 0
  | 0x003 => w.regs.seed
  | 0x004 => zx64 w.regs.chk
  | 0x005 => w.regs.rgn
  | 0x007 =>
    match F.pager, s.field? F.fid with
    | none, some f => swathWord f w
    | _, _ => 0
  | 0x008 => zx64 Config.savemax
  | 0x010 => w.ctl.tcause
  | 0x011 => (w.ctl.frame w.ctl.level).tpc
  | 0x012 => (w.ctl.frame w.ctl.level).tva
  | 0x013 => zx64 (w.ctl.frame w.ctl.level).tlpc
  | _ => 0

/-- Write the scalar view of `sr.fmt` (R59, R60). -/
def Swath.setFmt (w : Swath) (v : W64) : Swath :=
  { w with regs := { w.regs with fmt := v }, meet := { w.meet with fmtSet := true } }

/-- Write `sr.seed`: the reseeds of R183 follow. Until the next matrix operation MGEN of the image shows the
old state, and the reseed that waits is kept beside the image (notes/assumptions/160.md). -/
def Swath.setSeed (w : Swath) (v : W64) : Swath :=
  { w with regs := { w.regs with seed := v }, meet := { w.meet with seedSet := true },
           eng := { w.eng with mseed := some (seedGen v 1024) } }

/-- Write `sr.tpc` at a trap level. -/
def Swath.setTpc (w : Swath) (v : W64) : Swath :=
  let v := v &&& ~~~(3 : W64)
  { w with ctl := if w.ctl.level = 1 then { w.ctl with f1 := { w.ctl.f1 with tpc := v } }
                  else { w.ctl with f2 := { w.ctl.f2 with tpc := v } } }

end Sys2Proof.Machine
end

