-- ==== Sys2Proof/Machine/ScalarCtl.lean ====
section
/-! DEFINITION. Branches, calls, uniform registers, `sr.fmt`, the stream handshake, named barriers,
`WAITM`, `YIELD`, `EXIT` and the system registers, with the events that end their waits (R56-R69,
R126). -/

namespace Sys2Proof.Machine
open Sys2Proof

/-! ### Branches and calls (R56, R57) -/

/-- A conditional branch. -/
def scalarBranch (cc : Nat) (a b : BitVec 6) (o : BitVec 11) (st : BitVec 2) (s : State) : Result :=
  scalarIssue (.var st [] [a, b])
    (fun _ w s =>
      .done s [] (if scalarCmp cc (w.xr a) (w.xr b) then some (w.regs.pc + (sx64 o <<< 2)) else none)) s

def execBeq (a b : BitVec 6) (o : BitVec 11) (st : BitVec 2) (s : State) : Result :=
  scalarBranch 0 a b o st s

def execBne (a b : BitVec 6) (o : BitVec 11) (st : BitVec 2) (s : State) : Result :=
  scalarBranch 1 a b o st s

def execBlt (a b : BitVec 6) (o : BitVec 11) (st : BitVec 2) (s : State) : Result :=
  scalarBranch 2 a b o st s

def execBge (a b : BitVec 6) (o : BitVec 11) (st : BitVec 2) (s : State) : Result :=
  scalarBranch 3 a b o st s

def execBltu (a b : BitVec 6) (o : BitVec 11) (st : BitVec 2) (s : State) : Result :=
  scalarBranch 4 a b o st s

def execBgeu (a b : BitVec 6) (o : BitVec 11) (st : BitVec 2) (s : State) : Result :=
  scalarBranch 5 a b o st s

def execJal (d : BitVec 6) (i : BitVec 17) (st : BitVec 2) (s : State) : Result :=
  scalarIssue (.alu st 0 d [])
    (fun _ w s => .done s [(d.toNat, w.regs.pc + 4)] (some (w.regs.pc + (sx64 i <<< 2)))) s

/-- `JALR`, its link the word after it (R57). -/
def jalrWith (st : BitVec 2) (d a : BitVec 6) (imm : W64) (len : Nat) (s : State) : Result :=
  scalarIssue { SForm.alu st 0 d [a] with len := len }
    (fun _ w s =>
      let t := w.xr a + imm
      if fld t 1 0 ≠ 0 then .trap { raise .misaligned with va := t }
      else .done s [(d.toNat, w.regs.pc + w64 len)] (some t)) s

def execJalr (d a : BitVec 6) (i : BitVec 11) (st : BitVec 2) (s : State) : Result :=
  jalrWith st d a (sx64 i) 4 s

/-! ### Uniform registers and `sr.fmt` (R58, R59) -/

def execMovxw (d : BitVec 4) (a : BitVec 6) (st : BitVec 2) (s : State) : Result :=
  scalarIssue { stall := st.toNat, reads := [.x a.toNat], writes := [.w d.toNat], lat := some 0 }
    (fun F w s => .done (s.updSwath F.party (fun v => v.setWs d.toNat (w.xr a))) [] none) s

def execMovwx (d : BitVec 6) (a : BitVec 4) (st : BitVec 2) (s : State) : Result :=
  scalarIssue { stall := st.toNat, reads := [.w a.toNat], writes := [.x d.toNat], lat := some 0 }
    (fun _ w s => .done s [(d.toNat, w.ws a.toNat)] none) s

def execSetfmt (a m : BitVec 6) (st : BitVec 2) (s : State) : Result :=
  scalarIssue { stall := st.toNat, reads := [.x a.toNat], writes := [.sr 0], lat := some 0 }
    (fun F w s =>
      let v := (w.regs.fmt &&& ~~~fmtMask m) ||| (w.xr a &&& fmtMask m)
      if m = 0 then .done s [] none
      else if !fmtOk v then .trap (raise .illegal)
      else .done (s.updSwath F.party (fun w => w.setFmt v)) [] none) s

/-! ### The stream handshake (R61-R64) -/

/-- The launch's lane code length, 0 when there is none. -/
def State.llen (s : State) (launch : Nat) : Nat := ((mget s.launches launch).map (·.lrec.llen)).getD 0

/-- A region-ending form of the swath alone (R46). -/
def SForm.meet (st : BitVec 2) (ds srcs : List (BitVec 6)) : SForm :=
  { SForm.var st ds srcs with ends := true, onPager := false }

def execLrun (a : BitVec 6) (i : BitVec 11) (st : BitVec 2) (s : State) : Result :=
  scalarIssue (.meet st [] [a])
    (fun F w s =>
      let n := w.xr a + sx64 i
      if s.llen F.launch ≤ n.toNat then .trap (raise .range)
      else if w.meet.hs != .idle then .trap (raise .streamState)
      else .done (s.updSwath F.party (fun w => w.startLanes (w32 n.toNat))) [] none) s

def execLgo (st : BitVec 2) (s : State) : Result :=
  scalarIssue (.meet st [] [])
    (fun F w s =>
      match w.meet.hs with
      | .idle => .trap (raise .streamState)
      | .running =>
        if w.meet.go then .trap (raise .streamState)
        else .done (s.updSwath F.party (fun w =>
          { w.stage with meet := { w.stage.meet with go := true } })) [] none
      | .held =>
        .done (s.updSwath F.party (fun w =>
          let v := w.stage.land
          { v with meet := { v.meet with hs := .running } }.updFrag false
            (fun g => g.region w.ctl.level))) [] none) s

/-- `LWAIT`. The registers that cross into the scalar view count as transfers, and not as writes by the
instruction: `REGION_WAR` is judged for xd alone (notes/assumptions/121.md). -/
def execLwait (d a : BitVec 6) (i : BitVec 11) (st : BitVec 2) (s : State) : Result :=
  scalarIssue (.meet st [d] [a])
    (fun F w s =>
      let n := w.xr a + sx64 i
      if 65535 < n.toNat then .trap (raise .range)
      else if n.toNat ≤ w.meet.sig then
        .done (s.updSwath F.party (fun w => w.consume n.toNat))
          [(d.toNat, w64 (w.meet.sig - n.toNat))] none
      else if w.meet.hs != .running then .trap (raise .streamState)
      else .wait s (.lwait d.toNat n.toNat)) s

/-- A waiting `LWAIT` is looked at again (R61, R64). -/
def execLwaitResume (fid sw : Nat) (s : State) : Result :=
  match s.residentAt fid sw with
  | some (F, w) =>
    match w.ctl.wait with
    | .lwait d n =>
      if n ≤ w.meet.sig then
        .next (s.endWait F [(d, w64 (w.meet.sig - n))] true (fun w => w.consume n))
      else if w.meet.hs != .running then .next (s.failWait F (raise .streamState))
      else .next s
    | _ => .next s
  | none => .next s

/-! ### Named barriers (R66) -/

/-- Arrive on barrier b for the scalar stream: the state after, and whether the phase awaited is still
in progress. -/
def scalarArrive (F : Focus) (s : State) (b : Nat) (bar : Bar) (n : Nat) : Option (State × Bool) :=
  (bar.arrive n).map (fun (v, phase) =>
    ((s.setBar F.fid b v).updSwath F.party (fun w =>
      { w with eng := { w.eng with stok := tokSet w.eng.stok b phase } }), v.phase == phase))

def execBara (n : BitVec 4) (a : BitVec 6) (st : BitVec 2) (s : State) : Result :=
  scalarIssue (.meet st [] [a])
    (fun F w s =>
      match s.bar F.fid n.toNat with
      | none => .trap (raise .illegal)
      | some bar =>
        match scalarArrive F s n.toNat bar (w.xr a).toNat with
        | none => .trap (raise .barCount)
        | some (s, _) => .done s [] none) s

/-- The scalar stream's token on a barrier is cleared, and a `BARS` is over. -/
def Swath.barDone (w : Swath) (b : Nat) : Swath :=
  { w with eng := { w.eng with stok := tokClear w.eng.stok b },
           meet := { w.meet with barsDone := false } }

def execBarw (n : BitVec 4) (st : BitVec 2) (s : State) : Result :=
  scalarIssue { SForm.var st [] [] with onPager := false }
    (fun F w s =>
      match s.bar F.fid n.toNat with
      | none => .trap (raise .illegal)
      | some _ =>
        if barWaits s F.fid n.toNat w.eng.stok then .wait s (.barw n.toNat)
        else .done (s.updSwath F.party (fun w =>
          { w with eng := { w.eng with stok := tokClear w.eng.stok n.toNat } })) [] none) s

/-- `BARS`: an arrival, unless this `BARS` has made it, then the wait; the region entry after the
arrival is the `BARS` itself (R66, R290). -/
def execBars (n : BitVec 4) (a : BitVec 6) (st : BitVec 2) (s : State) : Result :=
  scalarIssue (.meet st [] [a])
    (fun F w s =>
      match s.bar F.fid n.toNat with
      | none => .trap (raise .illegal)
      | some bar =>
        if w.meet.barsDone && w.meet.barsPc == w.regs.pc then
          if barWaits s F.fid n.toNat w.eng.stok then .wait s (.bars n.toNat)
          else .done (s.updSwath F.party (fun w => w.barDone n.toNat)) [] none
        else match scalarArrive F s n.toNat bar (w.xr a).toNat with
          | none => .trap (raise .barCount)
          | some (s, true) =>
            .wait (s.updSwath F.party (fun w =>
              { w with meet := { w.meet with barsDone := true, barsPc := w.regs.pc } }.scalarRegion))
              (.bars n.toNat)
          | some (s, false) => .done (s.updSwath F.party (fun w => w.barDone n.toNat)) [] none) s

/-- A waiting scalar barrier form is looked at again. -/
def resumeScalarBar (F : Focus) (w : Swath) (s : State) : State :=
  match w.ctl.wait with
  | .barw b =>
    if barWaits s F.fid b w.eng.stok then s
    else (s.updSwath F.party (fun w =>
      { w with eng := { w.eng with stok := tokClear w.eng.stok b } })).endWait F [] false
  | .bars b =>
    if barWaits s F.fid b w.eng.stok then s
    else (s.updSwath F.party (fun w => w.barDone b)).endWait F [] true
  | _ => s

/-- A waiting fragment is looked at again: its token is cleared and it goes on. -/
def resumeLaneBar (s : State) (fid sw : Nat) (second : Bool) (g : Frag) (b : Nat) (ends : Bool)
    (level : Nat) : State :=
  if barWaits s fid b g.tok then s
  else s.updSwathAt fid sw (fun w => w.updFrag second (fun g =>
    let g := { g with tok := tokClear g.tok b, wait := .ready, pc := g.pc + 1 }
    if ends then g.region level else g))

/-- A barrier wait whose phase has completed ends (R66, R97). -/
def execBarrierWaitResume (p : PartyId) (s : State) : Result :=
  match p with
  | .scalar fid sw =>
    match s.residentAt fid sw with
    | some (F, w) => .next (resumeScalarBar F w s)
    | none => .next s
  | .lane fid sw second =>
    match s.residentAt fid sw with
    | some (F, w) =>
      match w.lanes.get second with
      | some g =>
        match g.wait with
        | .barw b => .next (resumeLaneBar s fid sw second g b false F.level)
        | .bars b => .next (resumeLaneBar s fid sw second g b true F.level)
        | _ => .next s
      | none => .next s
    | none => .next s
  | .pager _ => .next s

/-! ### `WAITM` (R67, R126) -/

/-- The conditions of `WAITM`. -/
def waitmHolds (cc : Nat) (v cmp : Nat) : Bool :=
  match cc with
  | 0 => v == cmp
  | 1 => v != cmp
  | 2 => decide (cmp ≤ v)
  | _ => decide (v < cmp)

/-- A `device`-scope acquire read by an issuing party; `acq` makes the inner levels' clean lines
absent (R204, R215). -/
def acquireRead (F : Focus) (s : State) (va n : Nat) (acq : Bool) : MRes Nat :=
  match F.pager with
  | some _ =>
    match pagerCheck s va with
    | some e => .fault e
    | none => (pullRecords s (va / 128)).bind fun _ s => .ok (homeRd s va n) s
  | none =>
    (coveringLoad false s F.agent va n).bind fun v s =>
      .ok v (if acq then acquireFrom .home s F.core F.ctx else s)

/-- One look of a `WAITM` at its value: a plain read at the home slice first, and the acquire when the
condition holds. Its value is the one that the acquire reads, which must satisfy the condition too (R67). -/
def waitmLook (F : Focus) (s : State) (cc : Nat) (wide : Bool) (va cmp : W64) (acq : Bool) :
    MRes (Option Nat) :=
  let n := if wide then 8 else 4
  let cmp := if wide then cmp.toNat else cmp.toNat % 2 ^ 32
  (gLoad F .home false s va.toNat n).bind fun v s =>
    if waitmHolds cc v cmp then
      (acquireRead F s va.toNat n acq).bind fun v s => .ok (if waitmHolds cc v cmp then some v else none) s
    else .ok none s

def execWaitm (d a b : BitVec 6) (w : BitVec 1) (c : BitVec 2) (st : BitVec 2) (s : State) : Result :=
  scalarIssue (.var st [d] [a, b])
    (fun F x s =>
      let va := x.xr a
      let wide := w == 1
      if va.toNat % (if wide then 8 else 4) ≠ 0 || inWindow F va.toNat then
        .trap { raise .misaligned with va := va }
      else (waitmLook F s c.toNat wide va (x.xr b) true).out va.toNat
        (fun v s =>
          match v with
          | some v => .done s [(d.toNat, w64 v)] none
          | none => .wait s (.waitm d.toNat c.toNat wide va (x.xr b)))) s

/-- A look of an armed `WAITM`, resident or swapped out (R67, R126). A fault of a look made for a
swapped field is left to the look made when it has resumed. -/
def rereadAt (F : Focus) (w : Swath) (swapped : Bool) (s : State) : State :=
  match w.ctl.wait with
  | .waitm d cc wide va cmp =>
    match waitmLook F s cc wide va cmp (!swapped) with
    | .hold s => s
    | .fault e => if swapped then s.makeReady F.fid else s.failWait F (e.raise va.toNat)
    | .ok none s => s
    | .ok (some v) s =>
      if swapped then
        (s.updSwath F.party (fun w =>
          { w with ctl := { w.ctl with wait := .waitmHit d (w64 v) } })).makeReady F.fid
      else s.endWait F [(d, w64 v)] false
  | _ => s

/-- The scalar streams that wait in `WAITM`, resident or swapped out, and those of the pager cores, with
what each waits for. -/
def waitms (s : State) : List (Focus × SWait) :=
  let armed (F : Focus) (w : Swath) : Option (Focus × SWait) :=
    match w.ctl.wait with
    | .waitm .. => some (F, w.ctl.wait)
    | _ => none
  s.fields.flatMap (fun (fid, f) =>
    if f.status == .resident || f.status == .swapped then
      f.sws.filterMap (fun (sw, w) => armed (focusOf f fid sw (.scalar fid sw) w) w)
    else [])
  ++ s.pagers.filterMap (fun (d, p) => armed (pagerFocus d) p.sw)

/-- The condition of an armed `WAITM` holds of what stands at the home of its word. -/
def waitDue (s : State) (F : Focus) : SWait → Bool
  | .waitm _ cc wide va cmp =>
    let n := if wide then 8 else 4
    let holds (dpa : Nat) : Bool :=
      waitmHolds cc (homeRd s dpa n) (if wide then cmp.toNat else cmp.toNat % 2 ^ 32)
    match F.pager with
    | some _ => holds va.toNat
    | none =>
      match forContext s F.die F.ctx va.toNat false with
      | .ok xl => holds xl.dpa
      | .error _ => false
  | _ => false

/-- A `WAITM` reads its value again when a write, an atomic or a back-invalidation has reached its line:
the read is made where it ends the wait, since any other has no effect (R67, R126). -/
def State.wakeWaitms (s : State) : State :=
  let due := (waitms s).filter (fun (F, k) => waitDue s F k)
  { s with agenda := s.agenda ++ due.map (fun (F, _) => .reread F.party) }

def execWaitmReread (p : PartyId) (s : State) : Result :=
  match p with
  | .scalar fid sw =>
    match s.field? fid, s.focusAt fid sw with
    | some f, some (F, w) =>
      match f.status with
      | .resident => .next (rereadAt F w false s)
      | .swapped => .next (rereadAt F w true s)
      | _ => .next s
    | _, _ => .next s
  | .pager _ =>
    match ({ s with chosen := some p }).scalarFocus with
    | some (F, w) => .next (rereadAt F w false s)
    | none => .next s
  | .lane .. => .next s

/-! ### `YIELD` and `EXIT` (R65, R68) -/

def execYield (st : BitVec 2) (s : State) : Result :=
  scalarIssue (.var st [] [])
    (fun F _ s => .done (s.updSwath F.party (fun w =>
      { w with ctl := { w.ctl with yielded := true } })) [] none) s

/-- What an `EXIT` still waits for. -/
def exitReady (w : Swath) : Bool :=
  w.meet.hs == .idle && w.eng.copies == 0 && w.eng.matrix == 0 && w.eng.gathers == 0
    && w.eng.windows == 0

/-- The swath ends; with its last swath the field ends. -/
def State.exitSwath (s : State) (F : Focus) : State :=
  let s := s.updSwath F.party (fun w => { w with ctl := { w.ctl with wait := .none, exited := true } })
  match s.field? F.fid with
  | some f => if f.sws.all (fun (_, w) => w.ctl.exited) then s.endField F.fid else s
  | none => s

def execExit (st : BitVec 2) (s : State) : Result :=
  scalarIssue (.meet st [] [])
    (fun F w s =>
      if w.meet.hs == .held then .trap (raise .streamState)
      else if exitReady w then .done (s.exitSwath F) [] none
      else .wait s .exit) s

/-- A waiting `EXIT` is looked at again. -/
def execExitResume (fid sw : Nat) (s : State) : Result :=
  match s.residentAt fid sw with
  | some (F, w) =>
    match w.ctl.wait with
    | .exit =>
      if w.meet.hs == .held then .next (s.failWait F (raise .streamState))
      else if exitReady w then .next (s.exitSwath F)
      else .next s
    | _ => .next s
  | none => .next s

/-! ### System registers (R69) -/

def execMfsr (d : BitVec 6) (r : BitVec 10) (st : BitVec 2) (s : State) : Result :=
  scalarIssue { stall := st.toNat, reads := [.sr r.toNat], writes := [.x d.toNat], lat := some 1 }
    (fun F w s =>
      .done { s with freeCtr := s.freeCtr + 1 + w.regs.laneFlags.length }
        [(d.toNat, sysRead s F w r.toNat)] none) s

def execMtsr (a : BitVec 6) (r : BitVec 10) (st : BitVec 2) (s : State) : Result :=
  scalarIssue { stall := st.toNat, reads := [.x a.toNat], writes := [.sr r.toNat], lat := some 0 }
    (fun F w s =>
      let v := w.xr a
      let put (g : Swath → Swath) : SOut := .done (s.updSwath F.party g) [] none
      match r.toNat with
      | 0x000 => if fmtOk v then put (fun w => w.setFmt v) else .trap (raise .illegal)
      | 0x001 => put (fun w => { w with regs := { w.regs with flags := v.setWidth 7 } })
      | 0x003 => put (fun w => w.setSeed v)
      | 0x004 => put (fun w => { w with regs := { w.regs with chk := v.setWidth 2 } })
      | 0x011 => if w.ctl.level = 0 then .trap (raise .privileged) else put (fun w => w.setTpc v)
      | _ => .trap (raise .illegal)) s

end Sys2Proof.Machine
end

