-- ==== Sys2Proof/Machine/Matrix.lean ====
section
/-! DEFINITION. The matrix engine: planes, the issue of matrix operations and their checks, K-steps,
draining, batches and `MGROW` (R120, R141-R161, R190-R194). -/

namespace Sys2Proof.Machine
open Sys2Proof

/-! ### Planes and elements (R147, R148) -/

/-- Element `i` of packed elements of a format, from their bytes. -/
def elemBits (fmt : Nat) (rd : Nat → Nat) (i : Nat) : Nat :=
  match fmt with
  | 1 | 2 => rd (2 * i) + 256 * rd (2 * i + 1)
  | 5 | 6 => rd i % 64
  | 7 => rd (i / 2) / 16 ^ (i % 2) % 16
  | 11 => rd (i / 4) / 4 ^ (i % 4) % 4
  | _ => rd i

/-- Bytes of a scratchpad from an offset. -/
def spadAt (m : Mem) (off : Nat) (b : Nat) : Nat := (m.rd (off + b)).toNat

/-- Element `i` of a loaded plane. Where its source bytes have changed since the load, the element is
the old one or the new one (R149). -/
def Plane.elem (p : Plane) (spad : Mem) (ctr i : Nat) : Nat :=
  if p.fmt = 15 then 0
  else
    let old := elemBits p.fmt.toNat (spadAt p.img 0) i
    let new := elemBits p.fmt.toNat (spadAt spad p.off) i
    if old = new || Config.freeBool (ctr + i) then old else new

/-- The recorded format of the active FP plane, and of the shadow, once every queued operation has
run (R151). -/
def Engines.fpFormats (e : Engines) : Nat × Nat :=
  e.mq.foldl (fun (a, sh) o =>
    if o.kind = 1 then (a, fmtWF o.fmt) else if o.kind = 3 then (sh, a) else (a, sh))
    (e.fpA.fmt.toNat, e.fpS.fmt.toNat)

/-! ### Issue (R142-R146, R149-R156) -/

/-- A matrix operation's form. -/
def SForm.matrix (st : BitVec 2) (srcs : List (BitVec 6)) : SForm :=
  { SForm.meet st [] srcs with cls := some 1 }

/-- A new queue entry: what the operation reads at issue. -/
def newOp (w : Swath) (kind tile src : Nat) (desc : List W64) : MatOp :=
  { kind := kind, tile := tile, prog := 0, batch := w.eng.nb, closed := false, fmt := w.regs.fmt,
    gen := w.eng.mseed.getD 0, src := src, desc := desc, flags := 0 }

/-- Queue a matrix operation. -/
def State.queueOp (s : State) (F : Focus) (o : MatOp) : State :=
  s.updSwath F.party (fun w => { w with eng := { w.eng with
    mq := w.eng.mq ++ [o], matrix := w.eng.matrix + 1, mseed := none } })

/-- The field of an issuing swath: its tile count and its scratchpad's end G in bytes. -/
def State.matrixSide (s : State) (fid : Nat) : Nat × Nat :=
  match s.field? fid with
  | some f => (f.tiles, f.scrKib * 1024)
  | none => (0, 0)

/-- The checks of an offset from a register: its alignment, then its range (R145). -/
def offsetTrap (off align n g : Nat) : Option Raise :=
  if off % align ≠ 0 then some (raise .misaligned)
  else if g < off + n then some (raise .range)
  else none

/-- The first check that fails. -/
def firstTrap : List (Bool × Cause) → Option Raise
  | [] => none
  | (true, c) :: _ => some (raise c)
  | (false, _) :: r => firstTrap r

/-- Go on when no check fails. -/
def unlessTrap (t : Option Raise) (k : SOut) : SOut :=
  match t with
  | some r => .trap r
  | none => k

def mloadWith (kind fmt : Nat) (a : BitVec 6) (F : Focus) (w : Swath) (s : State) : SOut :=
  let off := (w.xr a).toNat
  unlessTrap (offsetTrap off 128 (planeBytes fmt) (s.matrixSide F.fid).2)
    (.done (s.queueOp F (newOp w kind 0 off [])) [] none)

def execMloadFp (a : BitVec 6) (st : BitVec 2) (s : State) : Result :=
  scalarIssue (.matrix st [a])
    (fun F w s =>
      let wf := fmtWF w.regs.fmt
      if wf = 0 || 8 ≤ wf then .trap (raise .illegal) else mloadWith 1 wf a F w s) s

def execMloadTern (a : BitVec 6) (st : BitVec 2) (s : State) : Result :=
  scalarIssue (.matrix st [a]) (mloadWith 2 11 a) s

def execMflipFp (st : BitVec 2) (s : State) : Result :=
  scalarIssue (.matrix st []) (fun F w s => .done (s.queueOp F (newOp w 3 0 0 [])) [] none) s

def execMflipTern (st : BitVec 2) (s : State) : Result :=
  scalarIssue (.matrix st []) (fun F w s => .done (s.queueOp F (newOp w 4 0 0 [])) [] none) s

/-- The dwords of a 32-byte descriptor in a field's scratchpad. -/
def descAt (s : State) (fid off : Nat) : List W64 :=
  (List.range 4).map (fun i => w64 (scratchRd s fid (off + 8 * i) 8))

/-- The fields of an operation descriptor (R150). -/
def opAOFF (d : List W64) : Nat := fld (d.getD 0 0) 19 0
def opAPITCH (d : List W64) : Nat := fld (d.getD 0 0) 35 20
def opM (d : List W64) : Nat := fld (d.getD 0 0) 42 36
def opK (d : List W64) : Nat := fld (d.getD 0 0) 55 43
def opWOFF (d : List W64) : Nat := fld (d.getD 1 0) 19 0
def opWSRC (d : List W64) : Bool := bitAt (d.getD 1 0) 20
def opASOFF (d : List W64) : Nat := fld (d.getD 2 0) 19 0
def opWSOFF (d : List W64) : Nat := fld (d.getD 2 0) 39 20

/-- Bytes of `k` elements of a format. -/
def elemsBytes (fmt k : Nat) : Nat := rowBytes fmt * k / 64

/-- The checks of an operation descriptor: reserved bits and limits, alignment, range (R150, R151). -/
def opTrap (d : List W64) (tern : Bool) (fmt : W64) (planeFmt g : Nat) : Option Raise :=
  let af := if tern then 9 else fmtAF fmt
  let wf := if tern then 11 else fmtWF fmt
  let step := if tern then 128 else 64
  let len := elemsBytes af (opK d)
  let scaled := !tern && fmtBS fmt == 1
  let nb := opK d / 32
  firstTrap [
    (fld (d.getD 0 0) 63 56 != 0 || fld (d.getD 1 0) 63 21 != 0 || fld (d.getD 2 0) 63 40 != 0
      || d.getD 3 0 != 0, .engineArg),
    (opM d == 0 || decide (64 < opM d) || opK d == 0 || decide (4096 < opK d) || opK d % step != 0
      || opAPITCH d % 16 != 0 || decide (opAPITCH d < len), .engineArg),
    (!opWSRC d && (opWOFF d != 0 || opK d != step), .engineArg),
    (!scaled && (opASOFF d != 0 || opWSOFF d != 0), .engineArg),
    (!tern && !opWSRC d && planeFmt != wf, .engineArg),
    (opAOFF d % 16 != 0 || (opWSRC d && opWOFF d % 128 != 0)
      || (scaled && (opASOFF d % 4 != 0 || opWSOFF d % 4 != 0)), .misaligned),
    (decide (g < opAOFF d + (opM d - 1) * opAPITCH d + len)
      || (opWSRC d && decide (g < opWOFF d + opK d / step * planeBytes wf))
      || (scaled && (decide (g < opASOFF d + 4 * (opM d * nb)) || decide (g < opWSOFF d + 256 * nb))),
      .range)]

/-- A format that `MMUL` accepts for its elements (R151). -/
def mmulFormat (f : Nat) : Bool := decide (1 ≤ f) && decide (f ≤ 7)

/-- The combinations of `sr.fmt` that a multiplication accepts (R151). -/
def mulFmtOk (tern : Bool) (fmt : W64) : Bool :=
  if tern then fmtAF fmt == 9 && fmtWF fmt == 11 && fmtACC fmt == 8 && fmtBS fmt == 0
  else mmulFormat (fmtAF fmt) && mmulFormat (fmtWF fmt) && fmtACC fmt == 0

/-- `MMUL` and `MTERN` at issue. -/
def multiplyWith (tern : Bool) (t : BitVec 4) (a : BitVec 6) (F : Focus) (w : Swath) (s : State) :
    SOut :=
  let (tiles, g) := s.matrixSide F.fid
  let top := if tern then t.toNat + 1 else t.toNat
  if !mulFmtOk tern w.regs.fmt || decide (tiles ≤ top) || (tern && t.toNat % 2 != 0) then
    .trap (raise .illegal)
  else
    let off := (w.xr a).toNat
    unlessTrap (offsetTrap off 32 32 g)
      (let d := descAt s F.fid off
       unlessTrap (opTrap d tern w.regs.fmt w.eng.fpFormats.1 g)
         (.done (s.queueOp F (newOp w (if tern then 6 else 5) t.toNat 0 d)) [] none))

def execMmul (t : BitVec 4) (a : BitVec 6) (st : BitVec 2) (s : State) : Result :=
  scalarIssue (.matrix st [a]) (multiplyWith false t a) s

def execMtern (t : BitVec 4) (a : BitVec 6) (st : BitVec 2) (s : State) : Result :=
  scalarIssue (.matrix st [a]) (multiplyWith true t a) s

def execMzero (t : BitVec 4) (st : BitVec 2) (s : State) : Result :=
  scalarIssue (.matrix st [])
    (fun F w s =>
      if (s.matrixSide F.fid).1 ≤ t.toNat then .trap (raise .illegal)
      else .done (s.queueOp F (newOp w 7 t.toNat 0 [])) [] none) s

/-- The fields of a drain descriptor (R155). -/
def drDOFF (d : List W64) : Nat := fld (d.getD 0 0) 19 0
def drDPITCH (d : List W64) : Nat := fld (d.getD 0 0) 35 20
def drM (d : List W64) : Nat := fld (d.getD 0 0) 42 36
def drSCL (d : List W64) : Bool := bitAt (d.getD 0 0) 43
def drRSOFF (d : List W64) : Nat := fld (d.getD 1 0) 19 0
def drCSOFF (d : List W64) : Nat := fld (d.getD 1 0) 39 20

/-- The checks of a drain descriptor (R155); INT32 with SCL = 1 is a combination not accepted. -/
def drainTrap (d : List W64) (fmt : W64) (g : Nat) : Option Raise :=
  let out := fmtOUT fmt
  let len := rowBytes out
  firstTrap [
    (out == 8 && drSCL d, .illegal),
    (fld (d.getD 0 0) 63 44 != 0 || fld (d.getD 1 0) 63 40 != 0 || d.getD 2 0 != 0 || d.getD 3 0 != 0,
      .engineArg),
    (drM d == 0 || decide (64 < drM d) || drDPITCH d % 16 != 0 || decide (drDPITCH d < len)
      || (!drSCL d && (drRSOFF d != 0 || drCSOFF d != 0)), .engineArg),
    (drDOFF d % 16 != 0 || (drSCL d && (drRSOFF d % 4 != 0 || drCSOFF d % 4 != 0)), .misaligned),
    (decide (g < drDOFF d + (drM d - 1) * drDPITCH d + len)
      || (drSCL d && (decide (g < drRSOFF d + 4 * drM d) || decide (g < drCSOFF d + 256))), .range)]

/-- The combinations of `sr.fmt` that `MDRAIN` accepts; INT32 out of a binary32 tile is none. -/
def drainFmtOk (fmt : W64) : Bool :=
  decide (fmtOUT fmt ≤ 9) && !(fmtOUT fmt == 8 && fmtACC fmt != 8)

def execMdrain (t : BitVec 4) (a : BitVec 6) (st : BitVec 2) (s : State) : Result :=
  scalarIssue (.matrix st [a])
    (fun F w s =>
      let (tiles, g) := s.matrixSide F.fid
      if !drainFmtOk w.regs.fmt || decide (tiles ≤ t.toNat) then .trap (raise .illegal)
      else
        let off := (w.xr a).toNat
        unlessTrap (offsetTrap off 32 32 g)
          (let d := descAt s F.fid off
           unlessTrap (drainTrap d w.regs.fmt g)
             (.done (s.queueOp F (newOp w 8 t.toNat 0 d)) [] none))) s

/-! ### Batches (R157, R158) -/

def execMfence (d : BitVec 6) (st : BitVec 2) (s : State) : Result :=
  scalarIssue { SForm.meet st [d] [] with lat := some 1 }
    (fun F w s =>
      let nb := w.eng.nb
      .done (s.updSwath F.party (fun w => { w with eng := { w.eng with
          nb := nb + 1,
          mq := w.eng.mq.map (fun o => if o.closed then o else { o with closed := true, batch := nb }) } }))
        [(d.toNat, zx64 nb)] none) s

/-- Batches that have been closed since batch `b` was, modulo 65,536. -/
def batchAge (w : Swath) (b : BitVec 16) : Nat := (w.eng.nb - 1 - b).toNat

/-- Batch `b` and every earlier one are complete. -/
def batchDone (w : Swath) (b : BitVec 16) : Bool :=
  !w.eng.mq.any (fun o => o.closed && decide (batchAge w b ≤ batchAge w o.batch))

def execMwait (a : BitVec 6) (st : BitVec 2) (s : State) : Result :=
  scalarIssue { SForm.var st [] [a] with onPager := false }
    (fun _ w s =>
      let b := (w.xr a).setWidth 16
      if fld (w.xr a) 63 16 ≠ 0 || 32768 ≤ batchAge w b then .trap (raise .engineArg)
      else if batchDone w b then .done s [] none
      else .wait s (.mwait b)) s

/-- A waiting `MWAIT` is looked at again. -/
def execMwaitResume (fid sw : Nat) (s : State) : Result :=
  match s.residentAt fid sw with
  | some (F, w) =>
    match w.ctl.wait with
    | .mwait b => if batchDone w b then .next (s.endWait F [] false) else .next s
    | _ => .next s
  | none => .next s

/-! ### `MGROW` (R120, R159, R401) -/

/-- The status of a request and the field after it. -/
def growField (s : State) (f : Field) (meadow : Bool) (a b : Nat) : Nat × Field :=
  if 16 < a || 1024 < b || 16 < f.tiles + a || 1024 < f.scrKib + b || (meadow && b != 0) then (2, f)
  else if a = 0 && b = 0 then (0, f)
  else
    let fs := s.residents f.core
    let need := ((f.scrKib + b) * 1024 + 16383) / 16384 - f.banks.length
    let banks := (freeBanks s fs f.ctx f.core).take need
    if freeTiles fs f.mquad < a || banks.length < need then (1, f)
    else (0, { f with tiles := f.tiles + a, scrKib := f.scrKib + b, banks := f.banks ++ banks })

def execMgrow (d a b : BitVec 6) (st : BitVec 2) (s : State) : Result :=
  scalarIssue (.meet st [d] [a, b])
    (fun F w s =>
      match s.field? F.fid with
      | none => .done s [(d.toNat, 2)] none
      | some f =>
        let meadow := ((mget s.launches f.launch).map (·.lrec.mw)).getD 0 != 0
        let (k, g) := growField s f meadow (w.xr a).toNat (w.xr b).toNat
        .done (s.setField F.fid g) [(d.toNat, w64 k)] none) s

/-! ### Execution (R152-R156, R160, R161, R190-R194) -/

/-- An accumulator element's key (R278). -/
def accKey (tile r n : Nat) : Nat := tile * 4096 + r * 64 + n

/-- One draw when the mode is SRN: the draw and the state after it. -/
def drawFor (mode : Mode) (gen : W32) : Nat × W32 :=
  if mode = SRN then ((drawGen gen).toNat, drawGen gen) else (0, gen)

/-- The exact sum of a block's products (R191). A sum in which products that are not zero cancel is +0 in
every mode; the rule gives the sign only where all products are zero (notes/assumptions/141.md). -/
def blockSum (as ws : List FVal) : Ex :=
  if (as ++ ws).any FVal.isNan then
    { v := .nan false, fl := flIf ((as ++ ws).any FVal.isSnan) flIV }
  else
    let ps := List.zipWith (fun a w => (exMul a w).v) as ws
    if ps.any FVal.isNan then { v := .nan false, fl := flIV } else exSum false ps

/-- A block sum times its two scales (R191). -/
def scaleBlock (x : Ex) (sa sw : FVal) : Ex :=
  if sa.isNan || sw.isNan then { v := .nan false, fl := x.fl ||| flIf (sa.isSnan || sw.isSnan) flIV }
  else if [x.v, sa, sw].any FVal.isZero && [x.v, sa, sw].any FVal.isInf then
    { v := .nan false, fl := x.fl ||| flIV }
  else { v := (exMul (exMul x.v sa).v sw).v, fl := x.fl }

/-- What the engine carries from one block add to the next: accumulators, generator, flags. -/
structure MatAcc where
  acc : NMap W32
  gen : W32
  fl : Flags

/-- One block add (R191). -/
def MatAcc.add (m : MatAcc) (mode : Mode) (key : Nat) (x : Ex) : MatAcc :=
  let (u, gen) := drawFor mode m.gen
  let old := (mgetD m.acc key 0).toNat
  let (v, fl) := binary32.finish mode u (exSum (zeroNeg mode) [binary32.decode old, x.v])
  { acc := mput m.acc key (w32 v), gen := gen, fl := m.fl ||| fl ||| x.fl }

/-- An element as an exact value. -/
def elemVal (fmt bits : Nat) : FVal := ((Fmt.ofCode fmt).getD binary32).decode bits

/-- A binary32 in scratchpad as an exact value. -/
def f32At (m : Mem) (off : Nat) : FVal := binary32.decode (m.rdN off 4)

/-- One K-step of an `MMUL` (R152, R191): blocks, then rows, then columns. -/
def mmulStep (f : Field) (w : Swath) (o : MatOp) (ctr : Nat) : MatAcc :=
  let d := o.desc
  let af := fmtAF o.fmt
  let wf := fmtWF o.fmt
  let mode := fmtRM o.fmt
  let i := o.prog
  let act (r k : Nat) : FVal :=
    elemVal af (elemBits af (spadAt f.spad (opAOFF d + r * opAPITCH d)) (64 * i + k))
  let wt (k n : Nat) : FVal := elemVal wf
    (if opWSRC d then elemBits wf (spadAt f.spad (opWOFF d + i * planeBytes wf)) (64 * k + n)
     else w.eng.fpA.elem f.spad ctr (64 * k + n))
  (List.range 2).foldl (fun m h =>
    let ks := (List.range 32).map (· + 32 * h)
    let b := 2 * i + h
    let cols := (List.range 64).map (fun n => ks.map (fun k => wt k n))
    (List.range (opM d)).foldl (fun m r =>
      let row := ks.map (fun k => act r k)
      (List.range 64).foldl (fun m n =>
        let x := blockSum row (cols.getD n [])
        let x := if fmtBS o.fmt = 1 then
            scaleBlock x (f32At f.spad (opASOFF d + 4 * (r * (opK d / 32) + b)))
              (f32At f.spad (opWSOFF d + 4 * (64 * b + n)))
          else x
        m.add mode (accKey o.tile r n) x) m) m)
    { acc := f.acc, gen := w.eng.mgen, fl := 0 }

/-- One K-step of an `MTERN` (R153, R192). -/
def mternStep (f : Field) (w : Swath) (o : MatOp) (ctr : Nat) : MatAcc :=
  let d := o.desc
  let i := o.prog
  let act (r k : Nat) : Int :=
    bitsInt true 8 (spadAt f.spad (opAOFF d + r * opAPITCH d) (128 * i + k))
  let code (k n : Nat) : Nat :=
    if opWSRC d then elemBits 11 (spadAt f.spad (opWOFF d + i * 4096)) (128 * k + n)
    else w.eng.tnA.elem f.spad ctr (128 * k + n)
  (List.range (opM d)).foldl (fun m r =>
    (List.range 128).foldl (fun m n =>
      let t := (List.range 128).foldl (fun acc k => acc + act r k * (t2Val (code k n)).getD 0) (0 : Int)
      let rsv := (List.range 128).any (fun k => (t2Val (code k n)).isNone)
      let key := accKey (o.tile + n / 64) r (n % 64)
      { m with acc := mput m.acc key (mgetD m.acc key 0 + BitVec.ofInt 32 t),
               fl := m.fl ||| flIf rsv flRSV }) m)
    { acc := f.acc, gen := w.eng.mgen, fl := 0 }

/-- Write element `n` of an output row. Bits [7:6] of a 6-bit element's byte are free. -/
def putElem (m : Mem) (base fmt n v ctr : Nat) : Mem :=
  match rowBytes fmt with
  | 256 => m.wrN (base + 4 * n) 4 v
  | 128 => m.wrN (base + 2 * n) 2 v
  | 32 =>
    let old := (m.rd (base + n / 2)).toNat
    m.wr (base + n / 2) (BitVec.ofNat 8 (if n % 2 = 0 then old / 16 * 16 + v else old % 16 + 16 * v))
  | _ =>
    let top := if fmt = 5 || fmt = 6 then 64 * (Config.freeNat ctr % 4) else 0
    m.wr (base + n) (BitVec.ofNat 8 (v + top))

/-- One element drained: its bits, the flags, the generator after it (R156, R194). -/
def drainElem (fmt : W64) (scales : Option (Nat × Nat)) (e : W32) (gen : W32) : Nat × Flags × W32 :=
  let mode := fmtRM fmt
  let out := fmtOUT fmt
  if fmtACC fmt = 8 && out = 8 then (e.toNat, 0, gen)
  else
    let (v, fl) := if fmtACC fmt = 8 then binary32.encode RNE 0 (ofInt e.toInt) else (e.toNat, 0)
    let (v, fl, gen) := match scales with
      | some (rs, cs) =>
        let (u, gen) := drawFor mode gen
        let (v, f1) := binary32.mul mode u v rs
        let (u, gen) := drawFor mode gen
        let (v, f2) := binary32.mul mode u v cs
        (v, fl ||| f1 ||| f2, gen)
      | none => (v, fl, gen)
    if out = 0 then (v, fl, gen)
    else
      let (u, gen) := drawFor mode gen
      let (b, f) := convertTo out mode u (binary32.decode v)
      (b, fl ||| f, gen)

/-- The scratchpad, flags and generator after an `MDRAIN` (R156, R194). Every scale is read as it stood before
the drain (notes/assumptions/161.md). -/
def drainRun (f : Field) (gen : W32) (o : MatOp) (ctr : Nat) : Mem × Flags × W32 :=
  let d := o.desc
  (List.range (drM d)).foldl (fun (m : Mem × Flags × W32) r =>
    (List.range 64).foldl (fun (m : Mem × Flags × W32) n =>
      let sc := if drSCL d then
          some (f.spad.rdN (drRSOFF d + 4 * r) 4, f.spad.rdN (drCSOFF d + 4 * n) 4)
        else none
      let (b, fl, gen) := drainElem o.fmt sc (mgetD f.acc (accKey o.tile r n) 0) m.2.2
      (putElem m.1 (drDOFF d + r * drDPITCH d) (fmtOUT o.fmt) n b (ctr + 64 * r + n),
        m.2.1 ||| fl, gen)) m) (f.spad, 0, gen)

/-- The matrix generator as the oldest operation finds it: a reseed that it carries comes first
(R183). -/
def Swath.startOp (w : Swath) (o : MatOp) : Swath :=
  if o.gen = 0 then w else { w with eng := { w.eng with mgen := o.gen } }

/-- A matrix operation that is at the head of a resident field's queue. -/
def State.matHead (s : State) (fid sw : Nat) : Option (Field × Swath × MatOp) :=
  match s.field? fid, s.swathAt fid sw with
  | some f, some w =>
    match w.eng.mq with
    | o :: _ => if f.status == .resident then some (f, w.startOp o, o) else none
    | [] => none
  | _, _ => none

/-- A K-step of the operation at the head of a swath's queue completes (R152, R153, R160). -/
def execMatrixKstepComplete (fid sw : Nat) (s : State) : Result :=
  match s.matHead fid sw with
  | some (f, w, o) =>
    if o.isMul && decide (o.prog < o.steps) then
      let m := if o.kind = 5 then mmulStep f w o s.freeCtr else mternStep f w o s.freeCtr
      let o := { o with prog := o.prog + 1, gen := m.gen, flags := o.flags ||| m.fl }
      let w := { w with eng := { w.eng with mgen := m.gen, mq := o :: w.eng.mq.tail } }
      .next { s.setField fid { f.updSw sw (fun _ => w) with acc := m.acc } with
                freeCtr := s.freeCtr + 16384 }
    else .next s
  | none => .next s

/-- Tile `t` of a field all zero (R154). -/
def Field.zeroTile (f : Field) (t : Nat) : Field :=
  { f with acc := f.acc.filter (fun (k, _) => k / 4096 != t) }

/-- What an operation of another kind does when it completes (R149, R154, R156). It reads and writes all its
bytes at that one event, so that an access which overlaps it and is not ordered with it sees all of its
bytes old or all of them new, of which R142 lets each be either (notes/assumptions/138.md). -/
def completeOther (f : Field) (w : Swath) (o : MatOp) (ctr : Nat) : Field × Swath :=
  let e := w.eng
  match o.kind with
  | 1 =>
    let fmt := fmtWF o.fmt
    (f, { w with eng := { e with fpS := { off := o.src, fmt := BitVec.ofNat 4 fmt,
                                          img := f.spad.slice o.src (planeBytes fmt) 0 } } })
  | 2 =>
    (f, { w with eng := { e with tnS := { off := o.src, fmt := 11,
                                          img := f.spad.slice o.src 4096 0 } } })
  | 3 => (f, { w with eng := { e with fpA := e.fpS, fpS := e.fpA } })
  | 4 => (f, { w with eng := { e with tnA := e.tnS, tnS := e.tnA } })
  | 7 => (f.zeroTile o.tile, w)
  | _ =>
    let (m, fl, gen) := drainRun f e.mgen o ctr
    ({ f with spad := m },
      { w with eng := { e with mgen := gen, mq := { o with flags := fl } :: e.mq.tail } })

/-- The oldest matrix operation of a swath completes (R141, R142). -/
def execMatrixOpComplete (fid sw : Nat) (s : State) : Result :=
  match s.matHead fid sw with
  | some (f, w, o) =>
    if o.isMul then
      if o.steps ≤ o.prog then .next (s.setField fid (f.updSw sw (fun _ => w.retireOp)))
      else .next s
    else
      let (f, w) := completeOther f w o s.freeCtr
      .next { s.setField fid (f.updSw sw (fun _ => w.retireOp)) with freeCtr := s.freeCtr + 4096 }
  | none => .next s

/-- The operation in progress pauses (R160). -/
def execMatrixOpPause (fid sw : Nat) (s : State) : Result :=
  .next (s.updSwathAt fid sw Swath.pauseOps)

end Sys2Proof.Machine
end

