-- ==== Sys2Proof/Machine/Chains.lean ====
section
/-! DEFINITION. Copy chains and phase barriers: `CPGO`, `WAITC`, the entries of a chain and their
faults, `PBINIT`, `PBARV` and `PBWAIT` (R141, R162-R172). -/

namespace Sys2Proof.Machine
open Sys2Proof

/-! ### Phase barriers (R171, R172) -/

/-- The object of a value. -/
def pbEXPECTED (v : Nat) : Nat := v % 2 ^ 16
def pbPENDING (v : Nat) : Nat := v / 2 ^ 16 % 2 ^ 16
def pbPHASE (v : Nat) : Nat := v / 2 ^ 32 % 2

/-- Malformed, or a reserved bit that is not 0. -/
def pbBad (v : Nat) : Bool :=
  v / 2 ^ 33 != 0 || pbEXPECTED v == 0 || pbPENDING v == 0 || decide (pbEXPECTED v < pbPENDING v)

/-- The object after an arrival with count `c`; none is `ENGINE_ARG`. -/
def pbArrive (v c : Nat) : Option Nat :=
  if pbBad v || c = 0 || pbPENDING v < c then none
  else if pbPENDING v = c then
    some (pbEXPECTED v + pbEXPECTED v * 2 ^ 16 + (1 - pbPHASE v) * 2 ^ 32)
  else some (pbEXPECTED v + (pbPENDING v - c) * 2 ^ 16 + pbPHASE v * 2 ^ 32)

/-- Where a phase-barrier object lies, or the trap of its offset. -/
def pbPlace (s : State) (fid off : Nat) : Except Raise (Nat × Nat) :=
  if off % 8 ≠ 0 then .error (raise .misaligned)
  else match scratchAt s fid off 8 false with
    | none => .error (raise .range)
    | some p => .ok p

/-- The release of an arrival on an object in field `other` (R172). -/
def pbRelease (s : State) (fid launch core ctx other : Nat) : MRes Unit :=
  releaseTo (scopeLevel s launch (padScope fid other)) s core ctx

def execPbinit (a b : BitVec 6) (st : BitVec 2) (s : State) : Result :=
  scalarIssue (.meet st [] [a, b])
    (fun F w s =>
      let c := (w.xr b).toNat
      if c = 0 || 65535 < c then .trap (raise .engineArg)
      else match pbPlace s F.fid (w.xr a).toNat with
        | .error r => .trap r
        | .ok (k, o) => .done (s.scratchWr k o (c + c * 2 ^ 16) 8) [] none) s

def execPbarv (d a b : BitVec 6) (st : BitVec 2) (s : State) : Result :=
  scalarIssue (.meet st [d] [a, b])
    (fun F w s =>
      if w.xr b = 0 then .trap (raise .engineArg)
      else match pbPlace s F.fid (w.xr a).toNat with
        | .error r => .trap r
        | .ok (k, o) =>
          let v := scratchRd s k o 8
          match pbArrive v (w.xr b).toNat with
          | none => .trap (raise .engineArg)
          | some v' =>
            (pbRelease s F.fid F.launch F.core F.ctx k).out 0
              (fun _ s => .done (s.scratchWr k o v' 8) [(d.toNat, w64 (pbPHASE v))] none)) s

/-- A look at the object of a `PBWAIT`: its phase when that differs from the one awaited. -/
def pbLook (s : State) (F : Focus) (off : W64) (phase : Bool) : Except Raise (Option (Nat × State)) :=
  match pbPlace s F.fid off.toNat with
  | .error r => .error r
  | .ok (k, o) =>
    let v := scratchRd s k o 8
    if pbBad v then .error (raise .engineArg)
    else if pbPHASE v = b2n phase then .ok none
    else .ok (some (pbPHASE v,
      acquireFrom (scopeLevel s F.launch (padScope F.fid k)) s F.core F.ctx))

def execPbwait (d a b : BitVec 6) (st : BitVec 2) (s : State) : Result :=
  scalarIssue { SForm.var st [d] [a, b] with onPager := false }
    (fun F w s =>
      match pbLook s F (w.xr a) (bitAt (w.xr b) 0) with
      | .error r => .trap r
      | .ok none => .wait s (.pbwait d.toNat (w.xr a) (bitAt (w.xr b) 0))
      | .ok (some (v, s)) => .done s [(d.toNat, w64 v)] none) s

/-- A waiting `PBWAIT` reads its object again. -/
def execPbwaitResume (fid sw : Nat) (s : State) : Result :=
  match s.residentAt fid sw with
  | some (F, w) =>
    match w.ctl.wait with
    | .pbwait d off phase =>
      match pbLook s F off phase with
      | .error r => .next (s.failWait F r)
      | .ok none => .next s
      | .ok (some (v, s)) => .next (s.endWait F [(d, w64 v)] false)
    | _ => .next s
  | none => .next s

/-! ### `CPGO` and `WAITC` (R162, R170) -/

/-- A chain that has not begun. -/
def newChain (uid head : Nat) : Chain :=
  { uid := uid, head := head, cur := head, loops := [], i1 := 0, i2 := 0, done := false,
    waiting := false, ccopy := none, absent := [], units := [], revoked := false }

/-- Start a chain; the copy counter rises (R162). -/
def State.startChain (s : State) (F : Focus) (c : Chain) : State :=
  { s.updSwath F.party (fun w => { w with eng := { w.eng with
      chains := w.eng.chains ++ [c], copies := w.eng.copies + 1 } }) with nextUid := s.nextUid + 1 }

def execCpgo (a : BitVec 6) (st : BitVec 2) (s : State) : Result :=
  scalarIssue { SForm.meet st [] [a] with cls := some 0 }
    (fun F w s =>
      let head := (w.xr a).toNat
      unlessTrap (offsetTrap head 64 1 (s.matrixSide F.fid).2)
        (.done (s.startChain F (newChain s.nextUid head)) [] none)) s

def execWaitc (c : BitVec 2) (a : BitVec 6) (st : BitVec 2) (s : State) : Result :=
  scalarIssue { SForm.var st [] [a] with onPager := false }
    (fun _ w s =>
      let n := (w.xr a).toNat
      if 255 ≤ n || w.eng.counter c.toNat ≤ n then .done s [] none
      else .wait s (.waitc c.toNat n)) s

/-- A waiting `WAITC` is looked at again. -/
def execWaitcResume (fid sw : Nat) (s : State) : Result :=
  match s.residentAt fid sw with
  | some (F, w) =>
    match w.ctl.wait with
    | .waitc cls n => if w.eng.counter cls ≤ n then .next (s.endWait F [] false) else .next s
    | _ => .next s
  | none => .next s

/-! ### The accesses of an engine (R142, R168) -/

/-- The outcome of an engine's step. -/
inductive ERes (α : Type)
  | ok (a : α) (s : State)
  /-- What has been written stays written. -/
  | fault (e : XErr) (va : Nat) (s : State)
  | hold (s : State)

def ERes.bind {α β : Type} (r : ERes α) (f : α → State → ERes β) : ERes β :=
  match r with
  | .ok a s => f a s
  | .fault e va s => .fault e va s
  | .hold s => .hold s

/-- An access through the swath's caches, seen as an engine's. -/
def MRes.eng {α : Type} (r : MRes α) (va : Nat) (s : State) : ERes α :=
  match r with
  | .ok a s => .ok a s
  | .fault e => .fault e va s
  | .hold s => .hold s

/-- Read a byte: of a scratchpad, or of global memory. -/
def engGet (s : State) (A : Agent) (fid : Nat) (pad : Bool) (a : Nat) : ERes Nat :=
  if pad then
    match scratchAt s fid a 1 false with
    | none => .fault (.of .range) 0 s
    | some (k, o) => .ok (scratchRd s k o 1) s
  else (loadAt .l1 false s A a 1).eng a s

/-- Write a byte. -/
def engPut (s : State) (A : Agent) (fid : Nat) (pad : Bool) (a v : Nat) : ERes Unit :=
  if pad then
    match scratchAt s fid a 1 false with
    | none => .fault (.of .range) 0 s
    | some (k, o) => .ok () (s.scratchWr k o v 1)
  else (storeL1 s A a v 1).eng a s

/-- Copy `n` bytes, from byte `i`; addresses are taken modulo 2^64. Where source and destination overlap,
R165 leaves which value a byte gets: the model copies bytes in ascending order, so that a byte copied
early is read again later (notes/assumptions/139.md). -/
def engCopy (A : Agent) (fid : Nat) (ssp dsp : Bool) (src dst : Nat) : Nat → Nat → State → ERes Unit
  | _, 0, s => .ok () s
  | i, n + 1, s =>
    (engGet s A fid ssp ((src + i) % 2 ^ 64)).bind fun v s =>
      (engPut s A fid dsp ((dst + i) % 2 ^ 64) v).bind fun _ s =>
        engCopy A fid ssp dsp src dst (i + 1) n s

/-- The first address of `[a, a + n)` in each page that it overlaps, modulo 2^64. -/
def pageStarts (a n : Nat) : List Nat :=
  (unitsOf a n).map (fun u => (if u = a / 65536 then a else u * 65536) % 2 ^ 64)

/-- The DPA units that an access has reached, for R399. -/
def reached (s : State) (A : Agent) (a n : Nat) (units : List Nat) : List Nat :=
  (pageStarts a n).foldl (fun l va =>
    match translate s A.cluster A.ctx va (A.access true false false) with
    | .ok xl => if xl.cls = 3 || l.contains (xl.dpa / 65536) then l else l ++ [xl.dpa / 65536]
    | .error _ => l) units

/-! ### The faults of a chain (R168) -/

/-- A chain of a resident field that may go on. -/
def State.chainAt (s : State) (fid sw uid : Nat) : Option (Field × Swath × Chain) :=
  match s.field? fid, s.swathAt fid sw with
  | some f, some w =>
    match w.eng.chains.find? (fun c => c.uid == uid) with
    | some c => if f.status == .resident && !c.done && !c.waiting then some (f, w, c) else none
    | none => none
  | _, _ => none

/-- Put a chain in the place of the one with its number. -/
def State.setChain (s : State) (fid sw : Nat) (c : Chain) : State :=
  s.updSwathAt fid sw (fun w => { w with eng := { w.eng with
    chains := w.eng.chains.map (fun d => if d.uid = c.uid then c else d) } })

/-- A fault of a chain: served while the chain alone waits, or the end of the chain and of its field. -/
def State.chainFault (s : State) (fid sw : Nat) (c : Chain) (r : Raise) : State :=
  match s.field? fid, s.swathAt fid sw with
  | some f, some w =>
    if r.cause.parks then
      let s := (s.setChain fid sw { c with waiting := true, faultVa := r.va }).logFault f sw r.cause.code r.va 0
      let ltag := ((mget s.launches f.launch).map (·.ltag)).getD 0
      s.toServicer (f.core / 48) f.ctx (f.coords sw 0) 1 (.chain fid sw c.uid) r
        { faultRec f sw w.ctl.level false 0 r with ltag := ltag, spc := w.regs.pc,
                                                   chainoff := w32 c.cur }
    else ((s.dropCopyRef fid sw c.uid).updSwathAt fid sw (fun w => w.dropChain c.uid)).endEngine fid sw
      (w32 c.cur) r
  | _, _ => s

/-- The agent as which a swath's engines access memory (R168). -/
def engineAgent (f : Field) (w : Swath) : Agent :=
  { core := f.core, ctx := f.ctx, super := decide (0 < w.ctl.level) }

/-! ### Entries (R163-R167) -/

/-- The bits that each kind of entry may set, dword by dword. -/
def entryMask (kind : Nat) : List Nat :=
  let all := 2 ^ 64 - 1
  match kind with
  | 1 => [0x7F, all, all, all, all, all, 0, 0]
  | 2 => [0xDF, all, 2 ^ 32 - 1, all, all, all, 2 ^ 32 - 1, 0]
  | 3 => [0x0F, 0xFFFF003F, all, all, 0, 0, 0, 0]
  | 4 => [0x0F, 0x3F03FFFFFFFF, 2 ^ 32 - 1, 0, 0, 0, 0, 0]
  | 5 => [0x0F, 0xFFFFFFFFFFFF, 0, 0, 0, 0, 0, 0]
  | _ => [0x0F, 0, 0, 0, 0, 0, 0, 0]

/-- KIND is known and no reserved bit is set (R167). -/
def entryOk (d : List W64) : Bool :=
  let kind := fld (d.getD 0 0) 3 0
  decide (kind ≤ 5) &&
    (List.zip d (entryMask kind)).all (fun (v, m) => v &&& ~~~(w64 m) == 0)

/-- The loops whose body holds the current entry. -/
def Chain.around (c : Chain) : List LoopAt :=
  c.loops.filter (fun l => l.start ≤ c.cur && c.cur < l.off)

/-- An amount summed over the loops around an entry (R165). -/
def Chain.plus (c : Chain) (base : W64) (inc : LoopAt → W64) : Nat :=
  (c.around.foldl (fun a l => a + w64 l.j * inc l) base).toNat

/-- The next entry. -/
def Chain.advance (c : Chain) (off : Nat) : Chain :=
  { c with cur := off, i1 := 0, i2 := 0, absent := [], entry := none, idx := [] }

/-- The scratchpad offset of a GATHER's index list, with what the loops around it add (R164, R165). -/
def Chain.indexAt (c : Chain) (d : List W64) : Nat := c.plus (w64 (fld (d.getD 3 0) 31 0)) (·.sinc)

/-- Bytes of an index (R163). -/
def indexWidth (d : List W64) : Nat := if bitAt (d.getD 0 0) 7 then 8 else 4

/-- The chain with the entry that it has reached, read when it reached it, and with a GATHER's indices,
which see none of its own writes (R162, R227). -/
def Chain.reach (c : Chain) (f : Field) : Chain :=
  match c.entry with
  | some _ => c
  | none =>
    let d := (List.range 8).map (fun i => w64 (f.spad.rdN (c.cur + 8 * i) 8))
    let n := Nat.min (fld (d.getD 4 0) 31 0) 65536
    { c with
      entry := some d,
      idx := if fld (d.getD 0 0) 3 0 ≠ 2 then []
        else (List.range n).map (fun i => f.spad.rdN (c.indexAt d + i * indexWidth d) (indexWidth d)) }

/-- The end of an engine's step: the chain as it then stands, or its fault. -/
def State.chainEnd (fid sw : Nat) (c : Chain) (r : ERes Chain) : State :=
  match r with
  | .ok c s => s.setChain fid sw c
  | .hold s => s
  | .fault e va s => s.chainFault fid sw c (e.raise va)

/-- Run the current entry of a chain when it is of kind `kind`; an entry that lies beyond the
scratchpad or is malformed ends the chain whichever step meets it. Every entry starts when all earlier
ones are complete: R165 lets a COPY or GATHER with ORD = 0 overlap them, which the model never does
(notes/assumptions/139.md). -/
def chainStep (kind fid sw uid : Nat)
    (body : Field → Agent → Chain → List W64 → State → ERes Chain) (s : State) : Result :=
  match s.chainAt fid sw uid with
  | none => .next s
  | some (f, w, c) =>
    if c.ccopy.isSome then .next s
    else if f.scrKib * 1024 < c.cur + 64 then .next (s.chainFault fid sw c (raise .range))
    else
      let c := c.reach f
      let s := s.setChain fid sw c
      let d := c.entry.getD []
      if !entryOk d then .next (s.chainFault fid sw c (raise .chainInvalid))
      else if fld (d.getD 0 0) 3 0 ≠ kind then .next s
      else if c.revoked then .next (s.chainFault fid sw c (raise .revoked))
      else .next (State.chainEnd fid sw c (body f (engineAgent f w) c d s))

/-- A malformed entry. -/
def malformed (s : State) : ERes Chain := .fault (.of .chainInvalid) 0 s

/-- One step of a COPY entry. -/
def copyStep (fid : Nat) (_f : Field) (A : Agent) (c : Chain) (d : List W64) (s : State) :
    ERes Chain :=
  let ssp := bitAt (d.getD 0 0) 5
  let dsp := bitAt (d.getD 0 0) 6
  let x0 := fld (d.getD 3 0) 31 0
  let x1 := fld (d.getD 3 0) 47 32
  let x2 := fld (d.getD 3 0) 63 48
  if x0 = 0 || x1 = 0 || x2 = 0 then malformed s
  else
    let stride (v : W64) (hi lo : Nat) : W64 := sextN 32 (fld v hi lo)
    let at_ (base : Nat) (v : W64) : Nat :=
      (w64 base + w64 c.i1 * stride v 31 0 + w64 c.i2 * stride v 63 32).toNat
    let src := at_ (c.plus (d.getD 1 0) (·.sinc)) (d.getD 4 0)
    let dst := at_ (c.plus (d.getD 2 0) (·.dinc)) (d.getD 5 0)
    (engCopy A fid ssp dsp src dst 0 x0 s).bind fun _ s =>
      let u := if ssp then c.units else reached s A src x0 c.units
      let u := if dsp then u else reached s A dst x0 u
      let c := { c with units := u }
      .ok (if c.i1 + 1 < x1 then { c with i1 := c.i1 + 1 }
           else if c.i2 + 1 < x2 then { c with i1 := 0, i2 := c.i2 + 1 }
           else c.advance (c.cur + 64)) s

/-- The pages of a row that keep it from being copied: absent ones, and a fault of another kind. -/
def rowPages (s : State) (A : Agent) (a n : Nat) : List XErr × Option (XErr × Nat) :=
  (pageStarts a n).foldl (fun (l : List XErr × Option (XErr × Nat)) va =>
    match translate s A.cluster A.ctx va (A.access true false false) with
    | .ok _ => l
    | .error e => if e.absent then (l.1 ++ [e], l.2) else (l.1, l.2.orElse (fun _ => some (e, va))))
    ([], none)

/-- Start the fills of the absent pool pages of an access, each by itself (R166, R207): only the frames of a
`PFH` hint are kept from being victims together (R274). -/
def State.askFills (s : State) (es : List XErr) (ctx rq : Nat) : State :=
  (es.filter (fun e => e.cause == .poolMiss)).foldl (fun s e => s.askFill (e.dpa / 65536) ctx 0 rq e.ro) s

/-- The status words of a GATHER (R165). -/
def statusWords (absent : List Nat) (n : Nat) : Nat :=
  absent.foldl (fun v i => v + 2 ^ i) 0 % 2 ^ n

/-- One row of a GATHER entry. A row with an absent byte is absent, and raises no fault (R166). -/
def gatherStep (fid : Nat) (f : Field) (A : Agent) (c : Chain) (d : List W64) (s : State) :
    ERes Chain :=
  let h := d.getD 0 0
  let width := indexWidth d
  let ioff := fld (d.getD 3 0) 31 0
  let stoff := fld (d.getD 3 0) 63 32
  let nrows := fld (d.getD 4 0) 31 0
  let rowb := fld (d.getD 4 0) 63 32
  let nw := (nrows + 31) / 32
  if !bitAt h 6 || ioff % width ≠ 0 || stoff % 4 ≠ 0 || nrows = 0 || 65536 < nrows || rowb = 0
      || 65536 < rowb then malformed s
  else
    let g := f.scrKib * 1024
    let ix := c.indexAt d + c.i1 * width
    let dst := c.plus (d.getD 2 0) (·.dinc) + c.i1 * fld (d.getD 6 0) 31 0
    let so := c.plus (w64 stoff) (fun _ => w64 (4 * nw))
    let finish (c : Chain) (s : State) : ERes Chain :=
      if c.i1 + 1 < nrows then .ok { c with i1 := c.i1 + 1 } s
      else if g < so + 4 * nw then .fault (.of .range) 0 s
      else .ok (c.advance (c.cur + 64)) (s.scratchWr fid so (statusWords c.absent nrows) (4 * nw))
    if g < ix + width then .fault (.of .range) 0 s
    else
      let a := ((d.getD 1 0) + w64 (c.idx.getD c.i1 0) * (d.getD 5 0)).toNat
      match rowPages s A a rowb with
      | ([], some (e, va)) => .fault e va s
      | ([], none) =>
        (engCopy A fid false true a dst 0 rowb s).bind fun _ s =>
          finish { c with units := reached s A a rowb c.units } s
      | (es, _) => finish { c with absent := c.absent ++ [c.i1] } (s.askFills es A.ctx 3)

/-- Two loop bodies that overlap without one containing the other. -/
def loopsCross (a b : LoopAt) : Bool :=
  decide (a.start < b.off) && decide (b.start < a.off)
    && !(decide (a.start ≤ b.start) && decide (b.off ≤ a.off))
    && !(decide (b.start ≤ a.start) && decide (a.off ≤ b.off))

/-- How many loops of a list contain one of them, itself included. -/
def loopDepth (l : List LoopAt) (x : LoopAt) : Nat :=
  (l.filter (fun a => decide (a.start ≤ x.start) && decide (x.off ≤ a.off))).length

/-- A LOOP entry. -/
def loopStep (_fid : Nat) (_f : Field) (_A : Agent) (c : Chain) (d : List W64) (s : State) :
    ERes Chain :=
  let back := fld (d.getD 1 0) 5 0
  let count := fld (d.getD 1 0) 31 16
  if back = 0 || count = 0 || c.cur < c.head + 64 * back then malformed s
  else
    let j := ((c.loops.find? (fun l => l.off == c.cur)).map (·.j)).getD 0
    let x : LoopAt := { start := c.cur - 64 * back, off := c.cur, j := j, sinc := d.getD 2 0,
                        dinc := d.getD 3 0 }
    let rest := c.loops.filter (fun l => l.off != c.cur)
    let all := rest ++ [x]
    if rest.any (loopsCross x) || all.any (fun y => decide (4 < loopDepth all y)) then malformed s
    else if j + 1 < count then
      .ok ({ c with loops := rest ++ [{ x with j := j + 1 }] }.advance x.start) s
    else .ok ({ c with loops := rest ++ [{ x with j := 0 }] }.advance (c.cur + 64)) s

/-- A skipped entry is a LOOP whose body begins at or before the SKIPIF (R167). -/
def skipsLoop (f : Field) (cur n : Nat) : Bool :=
  (List.range n).any (fun i =>
    let off := cur + 64 * (i + 1)
    decide (off + 64 ≤ f.scrKib * 1024) && f.spad.rdN off 8 % 16 == 3
      && decide (off ≤ cur + 64 * (f.spad.rdN (off + 8) 8 % 64)))

/-- The scope code of an access at a scratchpad offset: `meadow` when it goes through the window, whichever
field it reaches there (R117, R165). -/
def windowScope (f : Field) (off n : Nat) : Nat := if off + n ≤ f.scrKib * 1024 then 1 else 2

/-- A SKIPIF entry. -/
def skipifStep (fid : Nat) (f : Field) (A : Agent) (c : Chain) (d : List W64) (s : State) :
    ERes Chain :=
  let coff := fld (d.getD 1 0) 31 0
  let skip := fld (d.getD 1 0) 45 40
  if coff % 4 ≠ 0 || skip = 0 || skipsLoop f c.cur skip then malformed s
  else match scratchAt s fid coff 4 false with
    | none => .fault (.of .range) 0 s
    | some (k, o) =>
      let holds := waitmHolds (fld (d.getD 1 0) 33 32) (scratchRd s k o 4) (fld (d.getD 2 0) 31 0)
      .ok (c.advance (if holds then c.cur + 64 * (skip + 1) else c.cur + 64))
        (acquireFrom (scopeLevel s f.launch (windowScope f coff 4)) s A.core A.ctx)

/-- An ARRIVE entry. -/
def arriveStep (fid : Nat) (f : Field) (A : Agent) (c : Chain) (d : List W64) (s : State) :
    ERes Chain :=
  let poff := fld (d.getD 1 0) 31 0
  let cnt := fld (d.getD 1 0) 47 32
  if poff % 8 ≠ 0 || cnt = 0 then malformed s
  else match scratchAt s fid poff 8 false with
    | none => .fault (.of .range) 0 s
    | some (k, o) =>
      match pbArrive (scratchRd s k o 8) cnt with
      | none => .fault (.of .engineArg) 0 s
      | some v =>
        ((pbRelease s fid f.launch A.core A.ctx k).eng 0 s).bind fun _ s =>
          .ok (c.advance (c.cur + 64)) (s.scratchWr k o v 8)

def execChainCopy (fid sw chain : Nat) (s : State) : Result :=
  chainStep 1 fid sw chain (copyStep fid) s

def execChainGather (fid sw chain : Nat) (s : State) : Result :=
  chainStep 2 fid sw chain (gatherStep fid) s

def execChainLoop (fid sw chain : Nat) (s : State) : Result :=
  chainStep 3 fid sw chain (loopStep fid) s

def execChainSkipif (fid sw chain : Nat) (s : State) : Result :=
  chainStep 4 fid sw chain (skipifStep fid) s

def execChainArrive (fid sw chain : Nat) (s : State) : Result :=
  chainStep 5 fid sw chain (arriveStep fid) s

def execChainEnd (fid sw chain : Nat) (s : State) : Result :=
  chainStep 0 fid sw chain (fun _ _ c _ s => .ok { c with done := true } s) s

/-- The oldest chain of a swath counts as complete (R141): while the field is out, the image keeps it as it
stands (R169, R284). -/
def execChainComplete (fid sw : Nat) (s : State) : Result :=
  match s.field? fid, s.swathAt fid sw with
  | some f, some w =>
    match w.eng.chains with
    | c :: _ =>
      if c.done && f.status == .resident then .next (s.updSwathAt fid sw (fun w => w.dropChain c.uid))
      else .next s
    | [] => .next s
  | _, _ => .next s

end Sys2Proof.Machine
end

