-- ==== Sys2Proof/Machine/PagerForms.lean ====
section
/-! DEFINITION. The pager-only forms (R248, R249, R323, R326) and the events of the page cache, the
pager cores, leases, nodes and the checkpoint (R272-R276, R301-R315). -/

namespace Sys2Proof.Machine
open Sys2Proof

/-! ### Page forms (R248) -/

/-- A pager form: present on a pager core alone (R301). -/
def SForm.pager (st : BitVec 2) (d : BitVec 6) (srcs : List (BitVec 6)) (ends : Bool) : SForm :=
  { SForm.var st [d] srcs with ends := ends, offPager := false }

/-- `DPA` operands of pager forms are unit bases (R248). -/
def unitOperand (v : W64) : Option Nat := if v.toNat % 65536 = 0 then some v.toNat else none

/-- The context that a `PGFILL` charges (R398). -/
def fillCharge (s : State) (unit : Nat) : Nat :=
  let rs := s.pagers.flatMap (fun (_, p) =>
    p.recs.filter (fun r => r.kind == 0 && r.st != .waiting && r.dpa / 65536 == unit))
  match rs.foldl (fun (b : Option Service) r =>
      match b with
      | none => some r
      | some x => if r.seq < x.seq then some r else some x) none with
  | some r => r.ctx
  | none => 0

def execPgfill (d a : BitVec 6) (st : BitVec 2) (s : State) : Result :=
  scalarIssue (.pager st d [a] true)
    (fun _ w s =>
      let status (s : State) (k : Nat) : SOut := .done s [(d.toNat, w64 k)] none
      match unitOperand (w.xr a) with
      | none => .trap (raise .engineArg)
      | some dpa =>
        let unit := dpa / 65536
        if (dregion dpa).tag ≠ 3 then status s 4
        else if (presentFrame s unit).isSome then status (s.wakeUnit unit) 1
        else match pageStatus s dpa with
          | some k => status s k
          | none =>
            match cacheFrame s unit with
            | some f =>
              if (s.frame f).st == .filling then
                .wait { s with fills := s.fills ++ [{ unit := unit, ctx := fillCharge s unit,
                                                      group := 0, rq := 0, frame := some f,
                                                      snooped := false }] }
                  (.pgfill d.toNat unit)
              else .hold s
            | none =>
              let c := fillCharge s unit
              if bypasses s unit c then status (s.wakeUnit unit) 7
              else match s.takeFrame unit c 0 with
                | none => .hold s
                | some (f, s) => status ((s.fillFrame f).wakeUnit unit) 0) s

def execPgevict (d a : BitVec 6) (st : BitVec 2) (s : State) : Result :=
  scalarIssue (.pager st d [a] true)
    (fun _ w s =>
      let status (s : State) (k : Nat) : SOut := .done s [(d.toNat, w64 k)] none
      match unitOperand (w.xr a) with
      | none => .trap (raise .engineArg)
      | some dpa =>
        if (dregion dpa).tag ≠ 3 then status s 4
        else match cacheFrame s (dpa / 65536) with
          | none => status s 1
          | some f =>
            match (s.frame f).st with
            | .clean | .dirty | .shared =>
              match pageStatus s dpa with
              | some k => status s k
              | none => if backShut s f then .hold s else status (s.evictFrame f) 0
            | _ => .hold s) s

/-- The redirect table of a die has no room for an entry of a unit, beside those that the open windows
will need (R327). -/
def redirectsFull (s : State) (die unit : Nat) : Bool :=
  let listed (u : Nat) : Bool := s.redirects.any (fun r => r.unit == u)
  !listed unit && decide (4096 ≤ (s.redirects.filter (fun r => r.die == die)).length
    + (s.moves.filter (fun m => m.die == die && !listed m.unit)).length)

/-- `PGMOVE`: opens the dual-home window; the switch message ends it. The entry is the table's of the die
whose tag gateway holds the unit's tag (R271, R326, R327). -/
def execPgmove (d a : BitVec 6) (b : BitVec 5) (st : BitVec 2) (s : State) : Result :=
  scalarIssue (.pager st d [a, b ++ 0#1, b ++ 1#1] true)
    (fun _ w s =>
      let status (k : Nat) : SOut := .done s [(d.toNat, w64 k)] none
      let (l, off) := w.xpair b
      let dst := fld l 11 0
      match unitOperand (w.xr a) with
      | none => .trap (raise .engineArg)
      | some dpa =>
        let unit := dpa / 65536
        let die := homeDie dpa
        if (dregion dpa).tag ≠ 3 then status 4
        else if s.moves.any (fun m => m.unit == unit) then .hold s
        else match pageStatus s dpa with
          | some k => status k
          | none =>
            let q := s.lease dst
            if q.st == .lost || (q.st == .live && ((s.node q.node).lost || (s.node q.node).route = 0))
            then status 3
            else if q.st != .live then status 2
            else if off.toNat % 65536 ≠ 0 || q.len * 65536 ≤ off.toNat then status 5
            else if redirectsFull s die unit then status 5
            else
              let src := ((backing s dpa).map (·.1)).getD 0
              .wait { s with moves := s.moves ++ [{ unit := unit, die := die, src := src, dst := dst,
                                                    off := off.toNat, copied := false }] }
                (.pgmove d.toNat unit)) s

/-- `PGUPG`: the frame becomes UPGRADING and the home is asked (R323, steps 1 and 2). -/
def execPgupg (d a : BitVec 6) (st : BitVec 2) (s : State) : Result :=
  scalarIssue (.pager st d [a] true)
    (fun _ w s =>
      let status (k : Nat) : SOut := .done s [(d.toNat, w64 k)] none
      match unitOperand (w.xr a) with
      | none => .trap (raise .engineArg)
      | some dpa =>
        match cacheFrame s (dpa / 65536) with
        | none => status 1
        | some f =>
          match (s.frame f).st, backing s dpa with
          | .shared, some (_, l, _) =>
            if l.st != .live then status 2
            else .wait (s.beginUpgrade f) (.pgupg d.toNat (dpa / 65536))
          | .shared, none => status 2
          | _, _ => status 1) s

/-! ### `LEASEOP` (R249, R305) -/

/-- The checks that every variant shares; `ok` judges xb. -/
def leaseForm (d a : BitVec 6) (srcs : List (BitVec 6)) (st : BitVec 2) (ends : Bool)
    (ok : Swath → Bool) (body : Focus → Swath → State → Nat → SOut) (s : State) : Result :=
  scalarIssue (.pager st d (a :: srcs) ends)
    (fun F w s =>
      if fld (w.xr a) 63 12 ≠ 0 || !ok w then .trap (raise .engineArg)
      else body F w s (w.xr a).toNat) s

def execLeaseopRenew (d a b : BitVec 6) (st : BitVec 2) (s : State) : Result :=
  leaseForm d a [b] st true (fun w => w.xr b != 0 && decide ((w.xr b).toNat < 2 ^ 32))
    (fun F w s n =>
      match (s.lease n).st with
      | .empty => .done s [(d.toNat, 2)] none
      | .live | .expired =>
        .wait (s.leaseMsg F.die 2 n (w.xr b).toNat) (.leaseop d.toNat n false)
      | _ => .done s [(d.toNat, 1)] none) s

def execLeaseopQuery (d a b : BitVec 6) (st : BitVec 2) (s : State) : Result :=
  leaseForm d a [b] st false (fun w => w.xr b == 0)
    (fun _ _ s n => .done s [(d.toNat, leaseWord (s.lease n))] none) s

def execLeaseopRelease (d a b : BitVec 6) (st : BitVec 2) (s : State) : Result :=
  leaseForm d a [b] st true (fun w => w.xr b == 0)
    (fun F _ s n =>
      match (s.lease n).st with
      | .empty => .done s [(d.toNat, 2)] none
      | .live =>
        if (leaseFrames s n).any (fun f => match (s.frame f).st with
            | .filling | .writeback | .upgrading => true
            | _ => backShut s f)
            || (s.l1 ++ s.l2).any (fun c => frameless s n c && c.dirty != 0 && poolShut s (c.dpa / 512))
        then .hold s
        else
          let s := s.evictLease n
          .wait ((s.setLeaseSt n { s.lease n with st := .releasing, remain := 0 }).leaseMsg F.die 7 n 0)
            (.leaseop d.toNat n true)
      | .releasing => .wait (s.leaseMsg F.die 7 n 0) (.leaseop d.toNat n true)
      | _ => .done ((s.dropLease n).emptyLease n) [(d.toNat, 0)] none) s

def execLeaseopAckwarn (d a b : BitVec 6) (st : BitVec 2) (s : State) : Result :=
  leaseForm d a [b] st true (fun w => w.xr b == 0)
    (fun _ _ s n =>
      if (s.lease n).st == .empty then .done s [(d.toNat, 2)] none
      else .done (s.setLease n { s.lease n with ack := true }) [(d.toNat, 0)] none) s

/-! ### Waits of pager cores that events end -/

/-- The waits for an answer about a lease. -/
def waitsLease (n : Nat) (release : Bool) : SWait → Option Nat
  | .leaseop r l k => if l = n && k == release then some r else none
  | _ => none

/-- An event that has a state to go to. -/
def happens (s : State) : Result := .next s

/-! ### The page cache and service records -/

/-- A fill starts (R272, R274, R277). -/
def execPageFillStart (unit : Nat) (s : State) : Result := happens (s.startFills unit)

/-- A fill completes (R272). -/
def execPageFillComplete (unit : Nat) (s : State) : Result := happens (s.finishFill unit)

/-- A waiting record enters a queue that has room (R308). -/
def execServiceRecordAdmit (die : Nat) (s : State) : Result := happens (s.takeIn die)

/-- Take the oldest queued record. -/
def takeRecord : List Service → Option (Nat × List Service)
  | [] => none
  | r :: t =>
    if r.st == .queued then some (r.idx, { r with st := .dequeued } :: t)
    else (takeRecord t).map (fun (i, l) => (i, r :: l))

/-- A pager core that reads DEQ gets the oldest record's index (R302). -/
def execDeq (die : Nat) (s : State) : Result :=
  match mget s.pagers die with
  | none => happens s
  | some p =>
    match p.sw.ctl.wait, takeRecord p.recs with
    | .deq r len, some (i, recs) =>
      happens { s with pagers := mput s.pagers die { p with
        recs := recs, sw := p.sw.endPagerWait r (w64 i) false len } }
    | _, _ => happens s

/-- A DEQ that finds the queue empty for 1 µs returns bit 63 alone (R302). -/
def execDeqTimeout (die : Nat) (s : State) : Result :=
  match mget s.pagers die with
  | none => happens s
  | some p =>
    match p.sw.ctl.wait, takeRecord p.recs with
    | .deq r len, none =>
      happens { s with pagers := mput s.pagers die { p with
        sw := p.sw.endPagerWait r (w64 (2 ^ 63)) false len } }
    | _, _ => happens s

def execPagerCompleteRetry (die idx : Nat) (s : State) : Result := happens (s.completeRetry die idx)

def execPagerCompleteBind (die idx : Nat) (s : State) : Result := happens (s.completeBind die idx)

def execPagerCompleteTerminal (die idx : Nat) (s : State) : Result :=
  happens (s.completeTerminal die idx)

/-- A reserved action: 3 to 15 (R309). -/
def execPagerCompleteReserved (die idx action : Nat) (s : State) : Result :=
  if action < 3 then happens s else happens (s.completeReserved die idx)

/-- A checkpoint into a lease starts unless the lease does not serve it or one runs: no field is placed
from here on, and every field is halted as an urgent claim halts it (R297, R315). -/
def State.startCheckpoint (s : State) (lease : Nat) (halt : Bool) : State :=
  let l := s.lease lease
  if l.st != .live || l.dbase == 0 || !l.safe || decide (l.len < 3146113) || s.ckptRuns then s
  else
    let s := s.haltAll
    { s with ckpt := w64 (lease + 4096 + b2n halt * 8192), ckptStat := 1,
             heath := { s.heath with ckptAt := 0 } }

/-- A write of CKPT on die 0, which is ignored while a checkpoint runs, or of MGRPORT (R302, R315). -/
def execPagerWindowWrite (die off : Nat) (value : W64) (s : State) : Result :=
  if off = 0x18 then
    if die ≠ 0 || s.ckptRuns then happens s
    else if bitAt value 12 then happens (s.startCheckpoint (fld value 11 0) (bitAt value 13))
    else happens { s with ckpt := w64 (fld value 13 0) }
  else if off = 0x38 then
    happens { s with pagers := mupd s.pagers die (fun p => { p with mgrPort := fld value 3 0 }) }
  else happens s

def execLeaseDbaseWrite (lease : Nat) (value : W64) (s : State) : Result :=
  happens (s.writeDbase lease value)

def execRouteWrite (node : Nat) (mask : BitVec 16) (s : State) : Result :=
  happens (s.writeRoute node mask)

/-- A ROLE write of one of the 786,432 frames of one of the four dies (R13, R271, R313). -/
def execFrameRoleWrite (die frame : Nat) (value : W64) (s : State) : Result :=
  if 4 ≤ die || framesPerDie ≤ frame then happens s
  else happens (s.writeRole (die * framesPerDie + frame) value)

/-- Load a pager core's firmware image and start it at address 0 (R301; notes/assumptions/25.md). -/
def Pager.load (p : Pager) (img : List (BitVec 32)) : Pager :=
  let sram := (img.foldl (fun (acc : Mem × Nat) w => (acc.1.wrN acc.2 4 w.toNat, acc.2 + 4)) ([], 0)).1
  { p with sram := sram, imgLen := 4 * img.length, sw := .zero, running := true }

/-- Restart a pager core that has stopped (R301, R310): its registers are 0 again (31.md), and the
records dequeued and not completed go ahead of the others. -/
def Pager.restart (p : Pager) : Pager :=
  let back := (p.recs.filter (fun r => r.st == .dequeued)).map (fun r => { r with st := .queued })
  { p with sw := .zero, running := true, result := 0,
           recs := back ++ p.recs.filter (fun r => r.st != .dequeued) }

def execPagerRestart (die : Nat) (s : State) : Result :=
  match mget s.pagers die with
  | none => happens s
  | some p =>
    if p.running || p.imgLen = 0 then happens s
    else happens { s with pagers := mput s.pagers die p.restart }

/-- Teasel scrubs a LOCAL frame whose unit has left every range table (R276, R399). -/
def execLocalFrameScrub (frame : Nat) (s : State) : Result :=
  let e := s.frame frame
  let reached := s.ctxs.any (fun (_, x) => x.ranges.any (fun r =>
    overlaps (r.dbase) (r.len * 65536) (e.unit * 65536) 65536))
  if e.role == .local_ && !reached then happens (s.scrubLocal frame) else happens s

/-! ### Leases, nodes and messages (R305, R306, R311, R314) -/

def execLeaseWarn (lease : Nat) (s : State) : Result :=
  let l := s.lease lease
  if l.st == .live && decide (l.remain ≤ 10000) && !l.ack && !l.warn then
    happens ((s.setLease lease { l with warn := true }).leaseRecord lease 1 0)
  else happens s

def execLeaseWarnRepeat (lease : Nat) (s : State) : Result :=
  let l := s.lease lease
  if l.st == .live && l.warn && !l.ack then happens (s.leaseRecord lease 1 0) else happens s

def execLeaseExpire (lease : Nat) (s : State) : Result :=
  let l := s.lease lease
  if l.st == .live && l.remain == 0 then happens (s.setLeaseSt lease { l with st := .expired })
  else happens s

/-- GRANT: fills an EMPTY lease; the node's loss is judged after it (R305, R311). -/
def execGrant (lease node pool len : Nat) (safe : Bool) (remain : Nat) (s : State) : Result :=
  let l := s.lease lease
  if 4096 ≤ lease || 4095 ≤ node || len = 0 || 2 ^ 34 < len || 2 ^ 32 ≤ remain || pool % 65536 ≠ 0
      || 2 ^ 50 ≤ pool then happens (s.heathLog 7 0 0 0 1)
  else if l.st != .empty then happens (s.heathLog 7 0 0 0 (w64 lease))
  else
    let s := (s.setNode node { s.node node with needGrant := false }).relive
    let st : LeaseState := if (s.node node).lost then .lost else .live
    let s := s.setLease lease { st := st, warn := false, ack := false, node := node, remain := remain,
                                pbase := pool, dbase := 0, len := len, safe := safe }
    happens (s.leaseRecord lease 2 1)

/-- RENEW_ACK (R305, R306). -/
def execRenewAck (lease remain : Nat) (s : State) : Result :=
  let l := s.lease lease
  if l.st == .live || l.st == .expired then
    let big := decide (10000 < remain)
    let s := s.setLease lease { l with st := .live, remain := remain, warn := l.warn && !big,
                                       ack := l.ack && !big }
    happens ((s.leaseRecord lease 2 4).endPagerWaits (waitsLease lease false) 0 true)
  else happens (s.endPagerWaits (waitsLease lease false) 1 true)

def execRenewNak (lease : Nat) (s : State) : Result :=
  happens (s.endPagerWaits (waitsLease lease false) 1 true)

/-- REVOKE; the answer is sent when the effects on frames are complete (R305, R307). -/
def execRevoke (lease : Nat) (s : State) : Result :=
  let l := s.lease lease
  if l.st == .live || l.st == .expired then
    let s := s.setLeaseSt lease { l with st := .revoked, remain := 0, ackDue := true }
    happens (((s.shedLease lease false).leaseRecord lease 2 2).settleRevoke lease)
  else happens (s.heathLog 7 0 0 0 (w64 lease))

/-- REVOKE_ACK, where the event that revoked the lease could not send it yet (R307). -/
def execRevokeAck (lease : Nat) (s : State) : Result := happens (s.settleRevoke lease)

def execReleaseAck (lease : Nat) (s : State) : Result :=
  if (s.lease lease).st == .releasing then
    happens ((s.emptyLease lease).endPagerWaits (waitsLease lease true) 0 true)
  else happens s

def execNodeDown (node : Nat) (s : State) : Result := happens (s.loseNode node true)

/-- A lease message of another type, or with a nonzero reserved byte (R314). -/
def execLeaseMessageInvalid (kind : Nat) (s : State) : Result :=
  happens (s.heathLog 7 0 0 0 (w64 kind))

/-- No answer within 100 ms (R314). -/
def execLeaseopTimeout (die : Nat) (s : State) : Result :=
  match mget s.pagers die with
  | none => happens s
  | some p =>
    match p.sw.ctl.wait with
    | .leaseop r _ _ =>
      happens (s.updSwath (.pager die) (fun w => w.endPagerWait r 3 true))
    | _ => happens s

/-- A step of the oldest open dual-home window of a die: the unit is copied, unless a fenced port keeps
its transfer waiting, or the switch message is applied. A window whose leases no longer serve has closed
by then (`State.leftLive`, R326). -/
def execPgmoveSwitch (die : Nat) (s : State) : Result :=
  match s.moves.find? (fun m => m.die == die) with
  | none => happens s
  | some m =>
    if !m.copied then
      let key := unitKey s m.unit
      let port := s.poolPort (s.lease m.dst).node m.unit
      if portShut s m.unit || port.any (fun p => s.heath.fenced.getLsbD p) then happens s
      else match unitHomes s m.unit with
        | [a, b] =>
          let s := s.putPoolUnit b key (poolUnit s a key)
          happens { s with moves := s.moves.map (fun x =>
            if x.unit == m.unit then { x with copied := true } else x) }
        | _ => happens (s.closeMove m.unit 2)
    else
      let entry : Redirect := { die := die, unit := m.unit, src := m.src, dst := m.dst, off := m.off }
      let others := s.redirects.filter (fun (r : Redirect) => r.unit != m.unit)
      happens ({ s with redirects := others ++ [entry] }.closeMove m.unit 0)

/-! ### The whole-device checkpoint (R315) -/

/-- Heath starts a checkpoint, as a write of CKPT does (R315). -/
def execCheckpointStart (lease : Nat) (halt : Bool) (s : State) : Result :=
  happens (s.startCheckpoint lease halt)

/-- A frame that a checkpoint copies. -/
def Frame.copied (e : Frame) : Bool :=
  e.role == .direct || e.role == .local_ || (e.role == .cache && e.st == .dirty)

/-- The frames of the device; one that is not listed is DIRECT. -/
def allFrames : Nat := 4 * framesPerDie

/-- The frames from `at_` on that a checkpoint copies. -/
def framesLeft (s : State) (at_ : Nat) : Nat :=
  allFrames - at_ - (s.frames.filter (fun (f, e) => at_ ≤ f && !e.copied)).length

/-- The first frame from `at_` on that a checkpoint copies: it passes at most the `n` listed ones. -/
def nextCopied (s : State) : Nat → Nat → Nat
  | 0, at_ => at_
  | n + 1, at_ => if (s.frame at_).copied then at_ else nextCopied s n (at_ + 1)

/-- CKPTSTAT while frames are copied. -/
def copyStat (s : State) (at_ : Nat) : W64 := w64 (2 + framesLeft s at_ * 2 ^ 32)

/-- Step 2: every dirty byte has gone to its frame, and the copying of frames begins. -/
def State.quiesced (s : State) : State :=
  let s := s.flush (fun _ => true) (fun _ => true)
  { s with ckptStat := copyStat s 0, heath := { s.heath with ckptAt := 0 } }

/-- Step 3 for one frame: it is copied as it stands, under the key of its unit. -/
def State.copyFrame (s : State) (base f : Nat) : State :=
  let e := s.frame f
  let key := if e.st == .free then none else unitKey s e.unit
  let s := s.putPoolUnit (base + f * 65536) key (s.mem.slice (f * 65536) 65536 0)
  { s with ckptStat := copyStat s (f + 1), heath := { s.heath with ckptAt := f + 1 } }

/-- Step 4: the frame map from 192 GiB, then TIME. The default entry is that of a frame not listed. -/
def State.copyMap (s : State) (base : Nat) : State :=
  let at_ := base + 192 * 2 ^ 30
  let timeAt := at_ + 24 * 2 ^ 20
  let rest := s.pool.filter (fun c => c.1 < at_ || timeAt + 8 ≤ c.1)
  let map_ := s.frames.foldl (fun (m : Mem) (f, e) => m.wrN (at_ + 8 * f) 8 (frameWord e).toNat) rest
  { s with pool := map_.wrN timeAt 8 s.time.toNat }

/-- The next step of a checkpoint that runs: the write-back of every dirty byte, the copy of the next
frame, or the map, TIME and the end. A step that a host's half or a fenced port keeps waiting is tried
again (R315, R328). -/
def execCheckpointComplete (s : State) : Result :=
  let l := s.lease (fld s.ckpt 11 0)
  let base := poolAddr l.node l.pbase
  if !s.ckptRuns then happens s
  else if fld s.ckptStat 1 0 = 1 then
    happens ((linesHold s (dirtyLines s (fun _ => true) (fun _ => true))).getD s.quiesced)
  else
    let f := nextCopied s s.frames.length s.heath.ckptAt
    let shut := (s.poolPort l.node ((l.dbase + Nat.min f allFrames * 65536) / 65536)).any
      (fun p => s.heath.fenced.getLsbD p)
    if shut then happens s
    else if f < allFrames then happens (s.copyFrame base f)
    else happens ((s.copyMap base).endCheckpoint false)

end Sys2Proof.Machine
end

