-- ==== Sys2Proof/Machine/Sync.lean ====
section
/-! DEFINITION. Scalar atomics, acquire and release, fences, cache range operations, `PFH` and the
deferred-release signals (R196-R205, R208, R209, R214-R216). -/

namespace Sys2Proof.Machine
open Sys2Proof

/-! ### Scopes and the context's widest scope (R197) -/

/-- The widest scope of the issuing context and its CLAMPTRAP bit. A pager core has no context. -/
def widestScope (s : State) (F : Focus) : Nat × Bool :=
  match F.pager, s.ctx? F.ctx with
  | none, some x => (x.policy.widest, x.policy.clampTrap)
  | _, _ => (6, false)

/-- `SCOPE_CLAMP` for an atomic or an acquire (R197). -/
def acquireClamped (s : State) (F : Focus) (scope : Nat) : Bool := decide ((widestScope s F).1 < scope)

/-- The scope at which a release-like form is performed and whether it was clamped; none is
`SCOPE_CLAMP` (R197). -/
def releaseScope (s : State) (F : Focus) (scope : Nat) : Option (Nat × Bool) :=
  let (w, t) := widestScope s F
  if scope ≤ w then some (scope, false) else if t then none else some (w, true)

/-- The flag of a clamped form. -/
def State.clampFlag (s : State) (F : Focus) (clamped : Bool) : State :=
  if clamped then s.updSwath F.party (fun w => w.addFlags flSCOPE) else s

/-- The release of an issuing party at a scope; a pager core holds no copies (R204, R301). -/
def partyRelease (F : Focus) (s : State) (scope : Nat) : MRes Unit :=
  if F.pager.isSome then .ok () s else releaseTo (scopeLevel s F.launch scope) s F.core F.ctx

/-- The invalidation of an acquire at a scope. -/
def partyAcquire (F : Focus) (s : State) (scope : Nat) : State :=
  if F.pager.isSome then s else acquireFrom (scopeLevel s F.launch scope) s F.core F.ctx

/-- An access of `n` bytes that may not be made: misaligned, or made to the pager window. -/
def syncBad (F : Focus) (va n : Nat) : Bool := va % n != 0 || inWindow F va

/-- The trap of a misaligned access. -/
def misaligned (va : Nat) : SOut := .trap { raise .misaligned with va := w64 va }

/-! ### Atomics (R198, R200-R202) -/

/-- The operations of the atomics on values of `bits` bits. -/
inductive AOp
  | add | min | max | umin | umax | and | or | xor | xchg
  deriving DecidableEq, Repr

def AOp.signed : AOp → Bool
  | .min | .max => true
  | _ => false

/-- The new value (R200). -/
def AOp.new (op : AOp) (bits m b : Nat) : Nat :=
  let lt (x y : Nat) : Bool := decide (bitsInt true bits x < bitsInt true bits y)
  match op with
  | .add => (m + b) % 2 ^ bits
  | .min => if lt b m then b else m
  | .max => if lt m b then b else m
  | .umin => Nat.min m b
  | .umax => Nat.max m b
  | .and => Nat.land m b
  | .or => Nat.lor m b
  | .xor => Nat.xor m b
  | .xchg => b

/-- An atomic of a lane of an issuing swath, logged, and in its place of a replay (R423, R425). -/
def loggedAtomic (F : Focus) (lane : Nat) (lvl : Level) (sys : Bool) (s : State) (va n : Nat)
    (f : Nat → Option Nat) : MRes Nat :=
  match F.pager, s.field? F.fid with
  | none, some fd =>
    let co := fd.coords F.sw lane
    let stop (s : State) : State := s.updField F.fid Field.cmdStop
    match replayGate s F.die F.ctx 16 co (w64 va) with
    | .hold => .hold s
    | .stop => .hold (stop s)
    | .go want =>
      (gAtomic F lvl sys s va n f).bind fun old s =>
        let s := s.logEvent F.die F.ctx 16 co (w64 va) (w64 old)
        .ok old (if want.any (· != w64 old) then stop s else s)
  | _, _ => gAtomic F lvl sys s va n f

/-- A scalar atomic; `f` gives the new value from the old one, or none to write nothing. -/
def scalarAtomicWith (signed : Bool) (d a : BitVec 6) (srcs : List (BitVec 6)) (wide : BitVec 1)
    (scope : BitVec 3) (st : BitVec 2) (f : Swath → Nat → Nat → Option Nat) (s : State) : Result :=
  scalarIssue { SForm.var st [d] (a :: srcs) with ends := true }
    (fun F w s =>
      let n := if wide = 1 then 8 else 4
      let va := (w.xr a).toNat
      if syncBad F va n then misaligned va
      else if acquireClamped s F scope.toNat then .trap (raise .scopeClamp)
      else (loggedAtomic F 0 (scopeLevel s F.launch scope.toNat) (scope = 6) s va n (f w (8 * n))).out va
        (fun old s => .done s [(d.toNat, extend signed n old)] none)) s

/-- A scalar atomic with one operand, its low bytes taken. -/
def scalarAtomic (op : AOp) (d a b : BitVec 6) (wide : BitVec 1) (scope : BitVec 3) (st : BitVec 2)
    (s : State) : Result :=
  scalarAtomicWith op.signed d a [b] wide scope st
    (fun w bits m => some (op.new bits m ((w.xr b).toNat % 2 ^ bits))) s

def execAtomAdd (d a b : BitVec 6) (w : BitVec 1) (p : BitVec 3) (st : BitVec 2) (s : State) : Result :=
  scalarAtomic .add d a b w p st s

def execAtomXchg (d a b : BitVec 6) (w : BitVec 1) (p : BitVec 3) (st : BitVec 2) (s : State) : Result :=
  scalarAtomic .xchg d a b w p st s

def execAtomMin (d a b : BitVec 6) (w : BitVec 1) (p : BitVec 3) (st : BitVec 2) (s : State) : Result :=
  scalarAtomic .min d a b w p st s

def execAtomMax (d a b : BitVec 6) (w : BitVec 1) (p : BitVec 3) (st : BitVec 2) (s : State) : Result :=
  scalarAtomic .max d a b w p st s

def execAtomUmin (d a b : BitVec 6) (w : BitVec 1) (p : BitVec 3) (st : BitVec 2) (s : State) : Result :=
  scalarAtomic .umin d a b w p st s

def execAtomUmax (d a b : BitVec 6) (w : BitVec 1) (p : BitVec 3) (st : BitVec 2) (s : State) : Result :=
  scalarAtomic .umax d a b w p st s

def execAtomAnd (d a b : BitVec 6) (w : BitVec 1) (p : BitVec 3) (st : BitVec 2) (s : State) : Result :=
  scalarAtomic .and d a b w p st s

def execAtomOr (d a b : BitVec 6) (w : BitVec 1) (p : BitVec 3) (st : BitVec 2) (s : State) : Result :=
  scalarAtomic .or d a b w p st s

def execAtomXor (d a b : BitVec 6) (w : BitVec 1) (p : BitVec 3) (st : BitVec 2) (s : State) : Result :=
  scalarAtomic .xor d a b w p st s

def execAtomCas (d a : BitVec 6) (b : BitVec 5) (w : BitVec 1) (p : BitVec 3) (st : BitVec 2)
    (s : State) : Result :=
  scalarAtomicWith false d a [b ++ 0#1, b ++ 1#1] w p st
    (fun w bits m =>
      let (cmp, new) := w.xpair b
      if m = cmp.toNat % 2 ^ bits then some (new.toNat % 2 ^ bits) else none) s

/-! ### Acquire and release (R203, R204) -/

/-- An acquire load at a scope: a covering read at `device` scope or wider (R215). -/
def scopedLoad (F : Focus) (s : State) (scope va n : Nat) : MRes Nat :=
  match F.pager with
  | some _ =>
    if scope < 5 then gLoad F .home false s va n
    else (acquireRead F s va n false).bind fun v s =>
      -- the host's half is collected at `system` scope
      match (if scope = 6 then readHold s (va / 128) (byteMask (va % 128) n) else none) with
      | some s' => .hold s'
      | none => .ok v s
  | none =>
    if scope < 5 then loadAt (scopeLevel s F.launch scope) false s F.agent va n
    else coveringLoad (scope = 6) s F.agent va n

def execLdacq (d a : BitVec 6) (w : BitVec 1) (p : BitVec 3) (st : BitVec 2) (s : State) : Result :=
  scalarIssue (.var st [d] [a])
    (fun F x s =>
      let n := if w = 1 then 8 else 4
      let va := (x.xr a).toNat
      if syncBad F va n then misaligned va
      else if acquireClamped s F p.toNat then .trap (raise .scopeClamp)
      else (scopedLoad F s p.toNat va n).out va
        (fun v s => .done (partyAcquire F s p.toNat) [(d.toNat, w64 v)] none)) s

/-- A release store at a scope. -/
def scopedStore (F : Focus) (s : State) (scope va v n : Nat) : MRes Unit :=
  (partyRelease F s scope).bind fun _ s =>
    gStore F (scopeLevel s F.launch scope) (scope = 6) s va v n

def execStrel (a b : BitVec 6) (w : BitVec 1) (p : BitVec 3) (st : BitVec 2) (s : State) : Result :=
  scalarIssue (.var st [] [a, b])
    (fun F x s =>
      let n := if w = 1 then 8 else 4
      let va := (x.xr a).toNat
      if syncBad F va n then misaligned va
      else match releaseScope s F p.toNat with
        | none => .trap (raise .scopeClamp)
        | some (scope, clamped) =>
          (scopedStore F s scope va (x.xr b).toNat n).out va
            (fun _ s => .done (s.clampFlag F clamped) [] none)) s

/-- A fence: a release, an acquire, or both. -/
def scalarFence (rel acq : Bool) (p : BitVec 3) (st : BitVec 2) (s : State) : Result :=
  scalarIssue (.var st [] [])
    (fun F _ s =>
      match releaseScope s F p.toNat with
      | none => .trap (raise .scopeClamp)
      | some (scope, clamped) =>
        (if rel then partyRelease F s scope else .ok () s).out 0
          (fun _ s =>
            let s := if acq then partyAcquire F s scope else s
            .done (s.clampFlag F clamped) [] none)) s

def execFenceFull (p : BitVec 3) (st : BitVec 2) (s : State) : Result := scalarFence true true p st s
def execFenceAcq (p : BitVec 3) (st : BitVec 2) (s : State) : Result := scalarFence false true p st s
def execFenceRel (p : BitVec 3) (st : BitVec 2) (s : State) : Result := scalarFence true false p st s

/-! ### Cache range operations (R209) -/

/-- The copies of a context that overlap `[a, a + n)` in the L1 of a core and in its cluster's L2. -/
def rangeL1 (F : Focus) (a n : Nat) (c : Copy) : Bool :=
  inL1 F.core F.ctx c && decide (c.va * 128 < a + n) && decide (a < c.va * 128 + 128)
def rangeL2 (F : Focus) (a n : Nat) (c : Copy) : Bool :=
  inL2 F.core F.ctx c && decide (c.va * 128 < a + n) && decide (a < c.va * 128 + 128)

/-- The write-backs of `CWB` and `CWBI`. -/
def cacheClean (lvl : Level) (F : Focus) (a n : Nat) (s : State) : MRes Unit :=
  match lvl with
  | .l1 => .ok () s
  | .l2 => .ok () (s.wbL1s (rangeL1 F a n))
  | .home =>
    match linesHold s (dirtyLines s (rangeL1 F a n) (rangeL2 F a n)) with
    | some s' => .hold s'
    | none => .ok () ((s.wbL1s (rangeL1 F a n)).wbL2s (rangeL2 F a n))

/-- The invalidation of `CINV` and `CWBI`. -/
def cacheDrop (lvl : Level) (F : Focus) (a n : Nat) (s : State) : State :=
  match lvl with
  | .l1 => s
  | .l2 => { s with l1 := dropCleanOf (rangeL1 F a n) s.l1 }
  | .home => { s with l1 := dropCleanOf (rangeL1 F a n) s.l1, l2 := dropCleanOf (rangeL2 F a n) s.l2 }

/-- A cache range operation. -/
def cacheRange (wb inv : Bool) (p : BitVec 3) (a b : BitVec 6) (st : BitVec 2) (s : State) : Result :=
  scalarIssue (.var st [] [a, b])
    (fun F w s =>
      let n := (w.xr b).toNat
      let va := (w.xr a).toNat
      if 2 ^ 40 < n then .trap (raise .range)
      else if n = 0 || F.pager.isSome then .done s [] none
      else
        let lvl := scopeLevel s F.launch p.toNat
        (if wb then cacheClean lvl F va n s else .ok () s).out va
          (fun _ s => .done (if inv then cacheDrop lvl F va n s else s) [] none)) s

def execCwb (p : BitVec 3) (a b : BitVec 6) (st : BitVec 2) (s : State) : Result :=
  cacheRange true false p a b st s
def execCinv (p : BitVec 3) (a b : BitVec 6) (st : BitVec 2) (s : State) : Result :=
  cacheRange false true p a b st s
def execCwbi (p : BitVec 3) (a b : BitVec 6) (st : BitVec 2) (s : State) : Result :=
  cacheRange true true p a b st s

/-! ### Page-group prefetch (R208, R277) -/

/-- How `PFH` judges a unit. -/
inductive PfhUnit
  | skip
  /-- Its fill starts; `ro` for a unit of an RO-SHARED page. -/
  | fill (unit : Nat) (ro : Bool)
  | nothing
  deriving DecidableEq, Repr

/-- Checks 1 to 10 skip a unit, and check 11 fills it (R265). -/
def pfhUnit (s : State) (A : Agent) (va : Nat) : PfhUnit :=
  match entryFor s A.cluster A.ctx va with
  | .error _ => .skip
  | .ok e =>
    let dpa := e.dpa + va % 65536
    let unit := dpa / 65536
    if e.cls = 3 || !e.r || (e.s && !A.super) || (dpaCheck s dpa).isSome || !homeCheck e dpa
        || inContentStore s dpa then .skip
    else if e.cls = 1 && !s.localUnit unit && (cacheFrame s unit).isNone then .skip
    else if (dregion dpa).tag ≠ 3 || s.localUnit unit then .nothing
    else if (leaseCheck s dpa).isSome then .skip
    else if (presentFrame s unit).isSome then .nothing
    else .fill unit (e.cls == 2)

/-- The units of a group, with their status bits, in ascending order of the bits. -/
def pfhGroup (base shape : W64) : List (Nat × Nat) :=
  let pitch := sextN 32 (fld shape 31 0)
  (List.range (fld shape 47 45 + 1)).flatMap (fun y =>
    (List.range (fld shape 44 42 + 1)).map (fun x =>
      (8 * y + x, ((base &&& ~~~(w64 0xFFFF)) + (w64 y * pitch + w64 x) * w64 65536).toNat)))

def execPfh (d a b : BitVec 6) (st : BitVec 2) (s : State) : Result :=
  scalarIssue { SForm.var st [d] [a, b] with onPager := false, cls := some 2 }
    (fun F w s =>
      let shape := w.xr b
      if fld shape 63 48 ≠ 0 || fld shape 41 32 ≠ 0 then .trap (raise .engineArg)
      else
        -- each unit is an access of its own, and draws by itself between an old entry and the tables (R268)
        let us := (pfhGroup (w.xr a) shape).map (fun (i, va) =>
          (i, va, pfhUnit { s with freeCtr := s.freeCtr + 4 * i } F.agent va))
        let status := us.foldl (fun v (i, _, u) => if u = .skip then v + 2 ^ i else v) 0
        let group := s.nextUid + 1
        let s := us.foldl (fun s (_, va, u) =>
          let s := s.learn F.agent.cluster F.ctx va
          match u with
          | .fill unit ro => s.askFill unit F.ctx group 4 ro
          | _ => s) s
        let s := { s with nextUid := group, freeCtr := s.freeCtr + 256 }
        let s := s.updSwath F.party (fun w => { w with eng := { w.eng with
          gathers := w.eng.gathers + 1, hints := w.eng.hints ++ [{ group := group }] } })
        .done s [(d.toNat, w64 status)] none) s

/-- The oldest hints of a swath whose fills are all complete are counted (R216). -/
def execPfhComplete (fid sw : Nat) (s : State) : Result :=
  .next ((s.updSwathAt fid sw (·.dropHints s.fills)).putCounters fid sw)

/-! ### Deferred-release signals (R214, R215) -/

/-- A signal line may take one more record. -/
def signalRoom (s : State) (line : Nat) : Bool :=
  decide ((s.deferred.filter (fun d => d.line == line)).length < 4)
    && decide ((s.deferred.filter (fun d => homeDie (d.line * 128) == homeDie (line * 128))).length
        < 1024)

/-- The store of a `SIGREL` at a scope of `device` or wider: a record is attached, or a full release
is made. A pager core has no copies to release. -/
def signalStore (F : Focus) (s : State) (scope va v : Nat) : MRes Unit :=
  match F.pager with
  | some _ => gStore F .home (scope = 6) s va v 8
  | none =>
    match translate s F.agent.cluster F.ctx va (F.agent.access true true false) with
    | .error e => if e.gate.isSome then .hold s else .fault e
    | .ok xl =>
      let line := xl.dpa / 128
      if signalRoom s line then
        (gStore F .home (scope = 6) s va v 8).bind fun _ s =>
          .ok () { s with deferred := s.deferred ++ [{ line := line, ctx := F.ctx, core := F.core }] }
      else scopedStore F s scope va v 8

def execSigrel (p : BitVec 3) (a b : BitVec 6) (st : BitVec 2) (s : State) : Result :=
  scalarIssue (.var st [] [a, b])
    (fun F w s =>
      let va := (w.xr a).toNat
      if syncBad F va 8 then misaligned va
      else match releaseScope s F p.toNat with
        | none => .trap (raise .scopeClamp)
        | some (scope, clamped) =>
          -- clamped below `device`, where no signal exists, it is a release store
          (if scope < 5 then scopedStore F s scope va (w.xr b).toNat 8
           else signalStore F s scope va (w.xr b).toNat).out va
            (fun _ s => .done (s.clampFlag F clamped) [] none)) s

def execSigacq (d a : BitVec 6) (p : BitVec 3) (st : BitVec 2) (s : State) : Result :=
  scalarIssue (.var st [d] [a])
    (fun F w s =>
      let va := (w.xr a).toNat
      if syncBad F va 8 then misaligned va
      else if acquireClamped s F p.toNat then .trap (raise .scopeClamp)
      else (scopedLoad F s p.toNat va 8).out va
        (fun v s => .done (partyAcquire F s p.toNat) [(d.toNat, w64 v)] none)) s

end Sys2Proof.Machine
end

