-- ==== Sys2Proof/Machine/Fabric.lean ====
section
/-! DEFINITION. The device as home and as holder on the fabric: the coherence directory, upgrades,
downgrades, the host's half lines, dead agents and uncorrectable directory entries (R319-R325, R328,
R332-R334). -/

namespace Sys2Proof.Machine
open Sys2Proof

/-! ### Agents and slots (R319, R320) -/

/-- Kinds of completion: Unsupported Request, data, data with the poison bit, done. -/
def ansUR : Nat := 0
def ansData : Nat := 1
def ansPoison : Nat := 2
def ansDone : Nat := 3

/-- An Unsupported Request, which Heath logs (R319, R320). -/
def State.refuseRequest (s : State) (detail : Nat) : State :=
  (s.send (.answer ansUR [])).heathLog 7 0 0 0 (w64 detail)

/-- The slot of an agent: 0 for the host. -/
def slotOf (s : State) (node : Nat) (host : Bool) : Option Nat :=
  if host then some 0 else (s.sharers.find? (fun (k, n) => k != 0 && n == node)).map (·.1)

/-- The node of a slot. -/
def slotNode (s : State) (slot : Nat) : Nat := mgetD s.sharers slot 4095

def execUnsupportedFeatureRequest (port : Nat) (s : State) : Result := .next (s.refuseRequest port)

/-! ### Directory entries (R321, R322) -/

/-- Change the entry of a line; an entry all zero is not listed. -/
def State.setDir (s : State) (line : Nat) (e : DirEnt) : State :=
  { s with dir := if e = .zero then mdel s.dir line else mput s.dir line e }

/-- Change the host's state of a half (0 low, 1 high). -/
def State.setHalf (s : State) (line half v : Nat) : State :=
  let e := s.dirEnt line
  s.setDir line (if half = 0 then { e with hlo := v } else { e with hhi := v })

/-- Change the entries of every line of a unit (R322). -/
def State.setUnitDir (s : State) (unit : Nat) (f : DirEnt → DirEnt) : State :=
  (List.range 512).foldl (fun s i => s.setDir (unit * 512 + i) (f (s.dirEnt (unit * 512 + i)))) s

/-- An entry of some line of a unit satisfies `p`. A peer holds a line only as part of its whole unit, and
the entry of one line may have been rebuilt since (R322, R334). -/
def unitHas (s : State) (unit : Nat) (p : DirEnt → Bool) : Bool :=
  s.dir.any (fun (l, e) => l / 512 == unit && p e)

/-- The slots that share a unit. -/
def unitSharers (s : State) (unit : Nat) : List Nat :=
  (List.range 48).filter (fun n => 0 < n && unitHas s unit (fun e => e.shr.getLsbD n))

/-- The slot of the agent that owns a unit. -/
def unitOwner (s : State) (unit : Nat) : Option Nat :=
  (s.dir.find? (fun (l, e) => l / 512 == unit && e.o)).map (fun (_, e) => e.owner)

def slotBit (n : Nat) : BitVec 48 := (1 : BitVec 48) <<< n

/-- Poison a line (R333). -/
def State.poison (s : State) (line : Nat) : State :=
  if s.poisoned.contains line then s else { s with poisoned := s.poisoned ++ [line] }

/-! ### Serving a request at the home (R215, R320, R322, R324, R328) -/

/-- The bytes of a line or of one of its halves. -/
def lineData (v : BitVec 1024) (o n : Nat) : List Byte :=
  (List.range n).map (fun i => v.extractLsb' (8 * (o + i)) 8)

/-- Answer a fill of the agent of a slot with the line, or with the poison bit. -/
def State.answerLine (s : State) (slot addr o n : Nat) : State :=
  let line := addr / 128
  let s := if s.poisoned.contains line then s.send (.answer ansPoison []) else s
  s.emit (s.slotPort slot) (.dataOut · (if slot = 0 then 0 else slotNode s slot) addr
    (lineData (homeLine s (line * 128)) o n))

/-- A peer's fill: it shares every line of the unit. An owner's fill leaves it the owner: O = 1 and a
SHR bit never hold together (R322; notes/assumptions/132.md). -/
def State.servePeer (s : State) (slot addr : Nat) : State :=
  let s := if unitOwner s (addr / 65536) == some slot then s
    else s.setUnitDir (addr / 65536) (fun e => { e with shr := e.shr ||| slotBit slot })
  s.answerLine slot addr 0 128

/-- The slot under which the host waits for a copy that it may change. -/
def hostExcl : Nat := 48

/-- A fill waits at the home, with the access that asks for it. -/
def State.holdFill (s : State) (slot addr : Nat) : State :=
  { s with heldFills := s.heldFills ++ [(slot, addr)] }

/-- A read by the host: a covering read of a half line, which may have to wait (R215, R321). -/
def serveHost (s : State) (addr : Nat) (excl : Bool) : State :=
  match pullRecords s (addr / 128) with
  | .ok _ s =>
    (s.setHalf (addr / 128) (addr / 64 % 2) (if excl then 2 else 1)).answerLine 0 addr
      (addr / 64 % 2 * 64) 64
  | .hold s => s.holdFill (if excl then hostExcl else 0) addr
  | .fault _ => s

/-- Who owns what a fill asks for: a half line of the host's its line, a peer's its whole unit (R322). -/
def ownerFor (s : State) (slot addr : Nat) : Option Nat :=
  if slot = 0 || slot = hostExcl then
    let e := s.dirEnt (addr / 128)
    if e.o then some e.owner else none
  else unitOwner s (addr / 65536)

/-- A fill reaches the home: it is held while the unit is upgrading, while another agent owns it, which is
asked to write it back, and while the line's entry is being rebuilt; else it is served (R320, R322, R324,
R334). -/
def State.serveFill (s : State) (slot addr : Nat) : State :=
  let unit := addr / 65536
  if s.upgrades.any (fun u => u.unit == unit) then s.holdFill slot addr
  else if rebuilt s (addr / 128) then
    { s with eccWaits := s.eccWaits.map (fun (w : EccWait) =>
      if w.line == addr / 128 then { w with fills := w.fills ++ [(slot, addr)] } else w) }
  else match (ownerFor s slot addr).filter (· != slot) with
  | some owner => (s.sendSnoop snpData owner (unit * 65536)).holdFill slot addr
  | none =>
  if slot = 0 || slot = hostExcl then serveHost s addr (slot == hostExcl)
  else s.servePeer slot addr

/-- A half line written at the home, the host's copy of that half collected first. A write waits while the
line's directory entry is being rebuilt (R328, R334). -/
def State.halfWrite (s : State) (addr : Nat) (data : BitVec 512) (host : Bool) : State :=
  let line := addr / 128
  let h := addr / 64 % 2
  let mask := byteMask (64 * h) 64
  match (if host then (if rebuilt s line then some s else none) else writeHold s line mask) with
  | some s' => s'
  | none =>
    (s.homeWrite (line * 128) mask (data.setWidth 1024 <<< (512 * h))).send (.answer ansDone [])

/-- A CXL.mem request from an agent. One that comes over fenced ports, or from a host whose link is
down, does not arrive; one from a host that has trained as PCIe needs an absent feature; the store of a
region here has no follower (R319, R320, R332, R354, R368). A write that must wait is presented again. -/
def execCxlMemRequest (node addr : Nat) (host : Bool) (write : Option (BitVec 512)) (excl : Bool)
    (s : State) : Result :=
  if (if host then s.heath.hostDown else !heard s node) then .next s
  else if host && s.heath.hostPcie then .next (s.refuseRequest node)
  else match slotOf s node host with
  | none => .next (s.refuseRequest node)
  | some slot =>
    if dregion addr != .hbm || (s.frame (frameOf addr)).role != .direct || inContentStore s addr then
      .next (s.refuseRequest node)
    else match write with
      | some data =>
        let who := if host then hostExcl * (addr / 64 % 2) else slot
        if s.eccWaits.any (fun w => w.line == addr / 128 && w.owed.contains who) then
          .next ({ s with eccWaits := s.eccWaits.map (fun (w : EccWait) =>
            if w.line == addr / 128 then { w with dirty := w.dirty ++ [(slot, addr / 64 % 2, data)] } else w)
              }.send (.answer ansDone []))
        else
          let s := s.halfWrite addr data host
          .next (if host && !excl && !rebuilt s (addr / 128) then s.setHalf (addr / 128) (addr / 64 % 2) 0 else s)
      | none => .next (s.serveFill (if host && excl then hostExcl else slot) addr)

/-- Serve the held fills of a unit; one that must still wait is held again. -/
def State.releaseFills (s : State) (unit : Nat) : State :=
  let mine := s.heldFills.filter (fun (_, a) => a / 65536 == unit)
  let s := { s with heldFills := s.heldFills.filter (fun (_, a) => a / 65536 != unit) }
  mine.foldl (fun s (slot, a) => s.serveFill slot a) s

/-- The owner has written back and shares: O falls, and SHR names it and the fillers (R324). -/
def State.downgrade (s : State) (unit : Nat) : State :=
  (s.setUnitDir unit (fun e =>
    if e.o then { e with o := false, shr := slotBit e.owner, owner := 0 } else e)).releaseFills unit

/-! ### Upgrades at the home (R323, R325) -/

/-- The 256 BISnpInvBlk of a unit, to one sharer. -/
def State.snoopUnit (s : State) (slot unit : Nat) : State :=
  (List.range 256).foldl (fun s i =>
    s.emit (s.slotPort slot) (.snoop · 3 slot (unit * 65536 + 256 * i))) s

/-- Start an upgrade of a unit for an owner that shares it; none has the other sharers to ask. -/
def State.startUpgrade (s : State) (slot unit : Nat) (queued : List Nat) : State :=
  let others := (unitSharers s unit).filter (· != slot)
  let s := others.foldl (fun s n => s.snoopUnit n unit) s
  { s with upgrades := s.upgrades ++
      [{ unit := unit, owner := slot, owed := others.map (fun n => (n, 256)), fenced := false,
         queued := queued }] }

/-- UPG_CMP to the agent that asked. -/
def State.upgradeAnswer (s : State) (node unit status : Nat) : State :=
  s.vendor node [(0, 0x32), (1, status), (8, unit * 65536)]

/-- Judge the UPGs of a unit in the order of their arrival, by the agents that sent them; the first from
a sharer starts. One from an agent that is none, with a slot or without, is answered with status 2. -/
def State.judgeUpgrades (s : State) (unit : Nat) : List Nat → State
  | [] => s
  | node :: r =>
    match (slotOf s node false).filter ((unitSharers s unit).contains ·) with
    | some slot => s.startUpgrade slot unit r
    | none => State.judgeUpgrades (s.upgradeAnswer node unit 2) unit r

/-- Step 5 of an upgrade whose answers are all in; the next UPG of the unit is then judged. An owner
that has died meanwhile (slot 0) takes nothing: no agent holds the unit (R323, R324, R333). -/
def State.finishUpgrade (s : State) (u : Upgrade) : State :=
  let s := { s with upgrades := s.upgrades.filter (fun v => v.unit != u.unit) }
  let s := s.setUnitDir u.unit (fun e => { e with o := u.owner != 0, owner := u.owner, shr := 0 })
  let s := if u.owner = 0 then s else s.upgradeAnswer (slotNode s u.owner) u.unit (if u.fenced then 1 else 0)
  (s.judgeUpgrades u.unit u.queued).releaseFills u.unit

/-- Finish every upgrade that owes no answer. -/
def State.finishUpgrades (s : State) : State :=
  (s.upgrades.filter (fun u => u.owed.isEmpty)).foldl (fun s u => s.finishUpgrade u) s

/-- UPG of an agent reaches the home (R323, step 3). -/
def execUpg (node addr : Nat) (s : State) : Result :=
  let unit := addr / 65536
  if !heard s node then .next s
  else if s.upgrades.any (fun u => u.unit == unit) then
    .next { s with upgrades := s.upgrades.map (fun (u : Upgrade) =>
      if u.unit == unit then { u with queued := u.queued ++ [node] } else u) }
  else .next (s.judgeUpgrades unit [node]).finishUpgrades

/-! ### The rebuilding of an uncorrectable entry (R334) -/

/-- The snoop kind of a BISnpData with invalidation, of a line or of a half. -/
def snpRebuild : Nat := 5

/-- Every answer is in: what exactly one agent returned is written at the home, the line is poisoned when
several did, the entry is zero, and the accesses that waited go on. -/
def State.rebuildDone (s : State) (w : EccWait) : State :=
  let s := { s with eccWaits := s.eccWaits.filter (fun v => v.line != w.line) }
  let s := match (w.dirty.map (·.1)).eraseDups with
    | [] => s
    | [_] => w.dirty.foldl (fun (s : State) (x : Nat × Nat × BitVec 512) =>
        s.homeWrite (w.line * 128) (byteMask (64 * x.2.1) 64) (x.2.2.setWidth 1024 <<< (512 * x.2.1))) s
    | _ => s.poison w.line
  w.fills.foldl (fun s (slot, a) => s.serveFill slot a) (s.setDir w.line .zero)

/-- Answers of slots for a line have come, or count as come. -/
def State.rebuildAnswered (s : State) (line : Nat) (slots : List Nat) : State :=
  match s.eccWaits.find? (fun w => w.line == line) with
  | none => s
  | some w =>
    let v := { w with owed := w.owed.filter (fun n => !slots.contains n) }
    if v.owed.isEmpty then s.rebuildDone v
    else { s with eccWaits := s.eccWaits.map (fun (x : EccWait) => if x.line == line then v else x) }

/-- One answer of a sharer to the snoops of an upgrade, the owner's answer to a BISnpData, or a peer's
to the rebuilding of an entry. -/
def execBirspiblk (slot addr : Nat) (s : State) : Result :=
  let unit := addr / 65536
  if !heardSlot s slot then .next s
  else if s.eccWaits.any (fun w => w.line == addr / 128 && w.owed.contains slot) then
    .next ((s.endSnoop snpRebuild slot (addr / 128 * 128)).rebuildAnswered (addr / 128) [slot])
  else if s.upgrades.any (fun u => u.unit == unit) then
    let s := { s with upgrades := s.upgrades.map (fun (u : Upgrade) =>
      if u.unit == unit then
        { u with owed := u.owed.filterMap (fun (n, k) =>
            if n == slot then (if k ≤ 1 then none else some (n, k - 1)) else some (n, k)) }
      else u) }
    .next s.finishUpgrades
  else if unitOwner s unit == some slot && s.snooping snpData slot (unit * 65536) then
    .next ((s.endSnoop snpData slot (unit * 65536)).downgrade unit)
  else .next s

/-! ### The device as holder and owner (R323, R324) -/

/-- The frame whose unit is backed at a pool address of a node. -/
def frameBacked (s : State) (node : Option Nat) (pa : Nat) : Option Nat :=
  (s.frames.find? (fun (_, e) => e.role == .cache && e.st != .free &&
    (match backing s (e.unit * 65536) with
     | some (_, l, a) => a / 65536 == pa / 65536 && node.all (· == l.node)
     | none => false))).map (·.1)

/-- A BISnpInvBlk reaches this holder (R323, step 4). -/
def execBisnpinvblk (node addr : Nat) (s : State) : Result :=
  if !heard s node then .next s
  else
  let s := match frameBacked s (some node) addr with
    | none => s
    | some f =>
      let unit := (s.frame f).unit
      if (s.frame f).st == FrState.filling then
        { s with fills := s.fills.map (fun (x : Fill) =>
            if x.unit == unit then { x with snooped := true } else x) }
      else (s.freeFrame f).dropUnit unit
  .next (s.emit (s.portTo node) (.snoopAnswer · 3 node addr))

/-- The write-back that a BISnpData asks for goes over a fenced port, or for a lease that takes none: the
snoop is presented again (R305; notes/assumptions/127.md). -/
def backWaits (s : State) (node addr : Nat) : Bool :=
  match frameBacked s (some node) addr with
  | some f => (s.frame f).st == .dirty && poolShut s (s.frame f).unit
  | none => false

/-- A BISnpData reaches this owner: it writes back and shares (R324). -/
def execBisnpdata (node addr : Nat) (s : State) : Result :=
  if !heard s node || backWaits s node addr then .next s
  else
  let s := match frameBacked s (some node) addr with
    | none => s
    | some f =>
      match (s.frame f).st with
      | .clean => s.setFrame f { s.frame f with st := .shared }
      | .dirty => let s := s.writeBackFrame f; s.setFrame f { s.frame f with st := .shared }
      | _ => s
  .next (s.emit (s.portTo node) (.snoopAnswer · 2 node addr))

/-- Messages of the home of a unit reach this device (R332). -/
def homeHeard (s : State) (unit : Nat) : Bool :=
  (backing s (unit * 65536)).all (fun (_, l, _) => heard s l.node)

/-- The waits of `PGUPG` on a unit that is backed at a pool address, whose home is heard. -/
def waitsPgupg (s : State) (addr : Nat) : SWait → Option Nat
  | .pgupg r u =>
    match backing s (u * 65536) with
    | some (_, _, a) => if a / 65536 = addr / 65536 && homeHeard s u then some r else none
    | none => none
  | _ => none

/-- The frame of an upgrade that is complete is CLEAN, or FREE when its lease has gone (R305, R323). -/
def State.upgraded (s : State) (f status : Nat) : State :=
  if status = 2 then (s.freeFrame f).dropUnit (s.frame f).unit
  else if leaseGone s f then s.shedFrame f
  else s.setFrame f { s.frame f with st := .clean }

/-- What `PGUPG` returns for a status of UPG_CMP: 0, 6 HOLDER_DEAD or 1 NOT_SHARED. -/
def upgStatus (status : Nat) : W64 := if status = 0 then 0 else if status = 1 then 6 else 1

/-- UPG_CMP reaches this owner (R323, step 6). The frame may be gone: a snoop of the upgrade that came
before has freed it, and `PGUPG` returns all the same (R324). -/
def execUpgCmp (addr status : Nat) (s : State) : Result :=
  if 2 < status then .next s
  else
    let t := match (frameBacked s none addr).filter (fun f =>
        (s.frame f).st == .upgrading && homeHeard s (s.frame f).unit) with
      | some f => s.upgraded f status
      | none => s
    .next (t.endPagerWaits (waitsPgupg s addr) (upgStatus status) true)

/-! ### The host's halves (R328, R333) -/

/-- The host's answer to the rebuilding of an entry: of its low half as slot 0, of its high half as slot
48 (R334). -/
def State.hostRebuild (s : State) (line : Nat) (hi : Bool) (dirty : Option (BitVec 512)) : State :=
  let s := s.endSnoop snpRebuild 0 (line * 128 + 64 * b2n hi)
  let got := match dirty with
    | some d => [(0, b2n hi, d)]
    | none => []
  { s with eccWaits := s.eccWaits.map (fun (w : EccWait) =>
      if w.line == line then { w with dirty := w.dirty ++ got } else w) }.rebuildAnswered line
    [hostExcl * b2n hi]

/-- The host answers a snoop of a half line: its dirty data is written at the home. Fills that waited for
the half go on (R328). -/
def execHostSnoopResponse (line : Nat) (hi inv : Bool) (dirty : Option (BitVec 512)) (s : State) :
    Result :=
  let addr := line * 128 + 64 * b2n hi
  let kind := if inv then snpInv else snpData
  if inv && s.snooping snpRebuild 0 addr then .next (s.hostRebuild line hi dirty)
  else if !s.snooping kind 0 addr then .next s
  else
    let s := s.endSnoop kind 0 addr
    let s := match dirty with
      | some d => s.homeWrite (line * 128) (byteMask (64 * b2n hi) 64)
          (d.setWidth 1024 <<< (512 * b2n hi))
      | none => s
    .next ((s.setHalf line (b2n hi) (if inv then 0 else 1)).releaseFills (line / 512))

/-- The entries as they stand once the host's halves are gone (R333). -/
def State.dropHostHalves (s : State) : State :=
  let s := (s.dir.filter (fun (_, e) => e.hlo == 2 || e.hhi == 2)).foldl (fun s (l, _) => s.poison l) s
  let clear (p : Nat × DirEnt) : Nat × DirEnt := (p.1, { p.2 with hlo := 0, hhi := 0 })
  { s with dir := (s.dir.map clear).filter (fun p => p.2 != DirEnt.zero) }

/-- The answers that an agent owes to the rebuilding of entries count as come (R332, R334). -/
def State.rebuildsWithout (s : State) (slots : List Nat) : State :=
  (s.eccWaits.map (·.line)).foldl (fun s l => s.rebuildAnswered l slots) s

/-- The host's link is down: its halves change by R333, its snoops count as answered, its own fills go, and
what waited for it goes on. -/
def State.hostGone (s : State) : State :=
  let s := { s with heath := { s.heath with hostDown := true } }.dropHostHalves
  let s := { s with
    outbox := s.outbox.filter (fun o => match o with
      | .snoop _ _ slot _ => slot != 0
      | _ => true),
    heldFills := s.heldFills.filter (fun (k, _) => k != 0 && k != hostExcl),
    eccWaits := s.eccWaits.map (fun (w : EccWait) =>
      { w with fills := w.fills.filter (fun (k, _) => k != 0 && k != hostExcl) }) }
  s.rebuildsWithout [0, hostExcl]

/-- The host link goes down (R333). -/
def execHostLinkDown (s : State) : Result := .next s.hostGone

/-! ### Dead agents (R325, R332, R333) -/

/-- Every entry that names a slot is rewritten; a line it owned is poisoned (R333). -/
def State.purgeSlot (s : State) (slot : Nat) : State :=
  let s := (s.dir.filter (fun (_, e) => e.o && e.owner == slot)).foldl (fun s (l, _) => s.poison l) s
  let cut (p : Nat × DirEnt) : Nat × DirEnt :=
    (p.1, { p.2 with shr := p.2.shr &&& ~~~slotBit slot, o := p.2.o && p.2.owner != slot,
                     owner := if p.2.owner = slot then 0 else p.2.owner })
  { s with dir := (s.dir.map cut).filter (fun p => p.2 != DirEnt.zero) }

/-- No port carries this device's messages to an agent (R212, R320). Node 4,095 is this device. -/
def State.unreachable (s : State) (node : Nat) : Bool :=
  node != 4095 && !(s.portTo node).any s.carries

/-- Transfers to agents that no port reaches, or to a given agent, end with `WINDOW_LOST`: those that
cannot complete (R212). -/
def State.loseTransfers (s : State) (node : Nat) : State :=
  let cut (x : Xfer) : Bool :=
    (x.node == node || s.unreachable x.node) && (x.phase == .unsent || x.phase == .sent)
  s.fields.foldl (fun s (fid, f) =>
    f.sws.foldl (fun s (sw, w) =>
      match w.eng.xfers.find? cut with
      | some x =>
        (s.updSwathAt fid sw (fun w => w.dropXfer x.uid)).endEngine fid sw 0xFFFFFFFF (raise .windowLost)
      | none => s) s) s

/-- What a home does for a slot whose agent is dead: the entries that name it change before any access
uses them, its snoops count as answered, an upgrade that it asked for ends without an owner, and what
waited for it goes on (R332, R333). -/
def State.slotDead (s : State) (slot : Nat) : State :=
  let s := s.purgeSlot slot
  let s := { s with
    outbox := s.outbox.filter (fun o => match o with
      | .snoop _ _ k _ => k != slot
      | _ => true),
    heldFills := s.heldFills.filter (fun (k, _) => k != slot),
    eccWaits := s.eccWaits.map (fun (w : EccWait) =>
      { w with fills := w.fills.filter (fun (k, _) => k != slot) }),
    upgrades := s.upgrades.map (fun (u : Upgrade) =>
      let u := if u.owner == slot then { u with owner := 0 } else u
      if u.owed.any (fun (n, _) => n == slot) then
        { u with owed := u.owed.filter (fun (n, _) => n != slot), fenced := true }
      else u) }
  let s := s.finishUpgrades.rebuildsWithout [slot]
  ((s.heldFills.map (fun (_, a) => a / 65536)).eraseDups).foldl (fun s u => s.releaseFills u) s

/-- An agent is dead: its ports are fenced, the event is logged, and the home, the leases and the
transfers follow (R212, R311, R332). -/
def State.agentDead (s : State) (node : Nat) : State :=
  let s := s.fencePorts (s.node node).route
  let s := s.heathLog 6 0 0 0 (w64 node)
  let s := s.setNode node { s.node node with missed := 0, dead := true }
  let s := match slotOf s node false with
    | none => s
    | some slot => s.slotDead slot
  s.loseTransfers node

/-- Three consecutive heartbeats have been missed (R332). -/
def execAgentDead (node : Nat) (s : State) : Result :=
  if 3 ≤ (s.node node).missed then .next (s.agentDead node) else .next s

/-- An agent has not answered every snoop in time: it is dead (R325). A host that is silent while an entry
is rebuilt, as slot 0 for its low half and slot 48 for its high one, is treated as one whose link is down,
and Heath logs it (R334; notes/assumptions/132.md). -/
def execSnoopTimeout (slot addr : Nat) (s : State) : Result :=
  if s.upgrades.any (fun u => u.unit == addr / 65536 && u.owed.any (fun (n, _) => n == slot)) then
    .next (s.agentDead (slotNode s slot))
  else if s.eccWaits.any (fun w => w.line == addr / 128 && w.owed.contains slot) then
    .next (if slot = 0 || slot = hostExcl then
        s.hostGone.heathLog 6 0 0 0 (w64 4095)
      else s.agentDead (slotNode s slot))
  else .next s

/-- Teasel's walk for a slot whose agent is dead; an access that came first found the same (R333). -/
def execTeaselDirectoryWalk (slot : Nat) (s : State) : Result :=
  match mget s.sharers slot with
  | some n => if (s.node n).dead then .next (s.purgeSlot slot) else .next s
  | none => .next s

/-- Heath sends a heartbeat, with the device's own node number and TIME, to every agent whose ROUTE is
nonzero, and counts it as missed until one comes from that agent (R332, R431). -/
def execHeartbeat (s : State) : Result :=
  let live := s.nodes.filter (fun (_, v) => v.route != 0)
  .next (live.foldl (fun s (n, v) =>
    (s.setNode n { v with missed := v.missed + 1 }).emit (s.portTo n)
      (.heartbeat · n (Config.ownNode % 4095) s.time)) s)

def execHeartbeatReceive (node : Nat) (s : State) : Result :=
  if (s.node node).route = 0 || !heard s node then .next s
  else .next (s.setNode node { s.node node with missed := 0 })

/-- Heath retrains a fenced port on command: the agents that it reaches are dead no longer, and their
heartbeats are counted anew (R332, R311). -/
def execPortRetrain (port : Nat) (s : State) : Result :=
  let bit := (1 : BitVec 16) <<< port
  if s.heath.fenced &&& bit = 0 then .next s
  else
    .next ({ s with
      heath := { s.heath with fenced := s.heath.fenced &&& ~~~bit },
      nodes := mmap s.nodes (fun _ (v : Node) =>
        if v.route &&& bit != 0 then { v with missed := 0, dead := false } else v) }.relive)

/-! ### Uncorrectable directory entries (R334) -/

/-- The slots of a list, as bits. -/
def maskOfSlots (l : List Nat) : BitVec 48 := l.foldl (fun m n => m ||| slotBit n) 0

/-- Ask an eligible agent for its copy of a line: the host for both halves (R334). -/
def State.askRebuild (s : State) (line slot : Nat) : State :=
  if slot = 0 then (s.sendSnoop snpRebuild 0 (line * 128)).sendSnoop snpRebuild 0 (line * 128 + 64)
  else s.sendSnoop snpRebuild slot (line * 128)

/-- A home reads an uncorrectable entry: it is rebuilt from the eligible agents, or, in a range of
writable class, once each of them has answered. -/
def execDirectoryEccError (line : Nat) (s : State) : Result :=
  let s := s.heathLog 2 0 line 0 (w64 line)
  let el := (Config.eligibleSlots line).filter (fun n => n < 48)
  let el := if s.heath.hostPcie || s.heath.hostDown then el.filter (· != 0) else el
  if rebuilt s line then .next s
  else if Config.readOnlyClass line then
    let host := if el.contains 0 then 1 else 0
    .next (s.setDir line
      { hhi := host, hlo := host, owner := 0, o := false,
        shr := maskOfSlots (el.filter (fun n => decide (0 < n))) })
  else
    let s := el.foldl (fun s n => s.askRebuild line n) s
    let w : EccWait := { line := line, owed := el ++ (if el.contains 0 then [hostExcl] else []),
                         dirty := [], fills := [] }
    .next (if w.owed.isEmpty then s.setDir line .zero else { s with eccWaits := s.eccWaits ++ [w] })

end Sys2Proof.Machine
end

