-- ==== Sys2Proof/Machine/Windows.lean ====
section
/-! DEFINITION. Windows between contexts of different devices: the window table, `WPOST`, `WGET` and
`WCNTW`, registration, and transfers as importer and as exporter (R210-R213, R329-R331). -/

namespace Sys2Proof.Machine
open Sys2Proof

/-! ### The window table (R329) -/

/-- Where entry `num` of a context's table lies. -/
def winEntryVa (x : Context) (num : Nat) : Nat := x.winTab.toNat + 32 * num

/-- A dword of a context's table, read at its home slice. -/
def winDword (s : State) (die ctx va : Nat) : Except XErr W64 :=
  match forContext s die ctx va false with
  | .error e => .error e
  | .ok xl => .ok (if xl.zero then 0 else w64 (homeRd s xl.dpa 8))

/-- The four dwords of an entry as the table stands. -/
def winWords (s : State) (die ctx num : Nat) : Except XErr (List W64) :=
  match s.ctx? ctx with
  | none => .error (.of .notMapped)
  | some x => (List.range 4).mapM (fun i => winDword s die ctx (winEntryVa x num + 8 * i))

def winKind (ws : List W64) : Nat := fld (ws.getD 0 0) 1 0

/-- Every reserved field of an entry is 0, and its KIND is not reserved. -/
def winWellFormed (ws : List W64) : Bool :=
  let w (i : Nat) : W64 := ws.getD i 0
  let clear (v : W64) (m : Nat) : Bool := v &&& ~~~(w64 m) == 0
  clear (w 0) (2 ^ 64 - 1 - 0xFFFFFFF0) &&
    (match winKind ws with
     | 0 => true
     | 1 => clear (w 1) (2 ^ 56 - 2 ^ 7) && clear (w 2) (2 ^ 40 - 1)
     | 2 => clear (w 1) (2 ^ 34 - 1) && w 2 == 0 && w 3 == 0
     | _ => false)

/-- An export in order: its length lies in 1 to 2^40 - 8. -/
def winExport (ws : List W64) : Bool :=
  winKind ws == 1 && winWellFormed ws && decide (0 < (ws.getD 2 0).toNat)
    && decide ((ws.getD 2 0).toNat ≤ 2 ^ 40 - 8)

/-- An import that wants a permission: write, or read. -/
def winImport (ws : List W64) (wr : Bool) : Bool :=
  winKind ws == 2 && winWellFormed ws && bitAt (ws.getD 0 0) (if wr then 3 else 2)

/-- What the device keeps of an entry: COUNTER is never taken from a cached copy. -/
def winKept (ws : List W64) : List W64 := if winKind ws = 1 then ws.take 3 else ws

/-- Keep an entry in the place of the one of its number. One whose WREG is not answered stays beside it,
for the instructions that wait for the answer. -/
def Context.putWin (x : Context) (e : WinEnt) : Context :=
  let rest := x.wins.filterMap (fun (v : WinEnt) =>
    if v.num != e.num || v.stale then some v
    else if v.asked && v.words != e.words then some { v with stale := true }
    else none)
  { x with wins := e :: rest }

/-- The entry of a number that instructions use. -/
def Context.win (x : Context) (num : Nat) : Option WinEnt :=
  x.wins.find? (fun v => v.num == num && !v.stale)

/-- The entry that a window instruction reads: the cached one, or the table as it stands. When the two
differ, which of them is free until a `TLBI.ctx` (R329; notes/assumptions/7.md). -/
def winEntry (s : State) (die ctx num : Nat) : Except XErr (WinEnt × State) :=
  let fresh (ws : List W64) : WinEnt × State :=
    let e : WinEnt := { num := num, words := winKept ws, reg := none, asked := false }
    (e, s.updCtx ctx (·.putWin e))
  match (s.ctx? ctx).bind (·.win num), winWords s die ctx num with
  | none, .error e => .error e
  | none, .ok ws => .ok (fresh ws)
  | some c, .error e => if Config.freeBool s.freeCtr then .ok (c, s) else .error e
  | some c, .ok ws =>
    if c.words == winKept ws then .ok (c, s)
    else if Config.freeBool s.freeCtr then .ok (c, s.tick)
    else .ok ((fresh ws).1, (fresh ws).2.tick)

/-! ### `WPOST` and `WGET` (R210-R212) -/

/-- The exporter's aperture address of an offset (R331). -/
def apertureAddr (pctx expno off : Nat) : Nat := 2 ^ 63 + pctx * 2 ^ 50 + expno * 2 ^ 40 + off

/-- Where the arrival write goes. -/
def arrivalOff : Nat := 2 ^ 40 - 8

/-- A transfer of a swath of a field that has not ended its launch's run of it. -/
def State.setXfer (s : State) (fid sw : Nat) (x : Xfer) : State :=
  s.updSwathAt fid sw (fun w => { w with eng := { w.eng with
    xfers := w.eng.xfers.map (fun d => if d.uid = x.uid then x else d) } })

/-- A fault on a local address: served while the transfer alone waits, or the transfer's end (R212). -/
def State.xferFault (s : State) (fid sw : Nat) (x : Xfer) (r : Raise) : State :=
  match s.field? fid, s.swathAt fid sw with
  | some f, some w =>
    if r.cause.parks then
      let s := (s.setXfer fid sw { x with waiting := true, faultVa := r.va }).logFault f sw r.cause.code r.va 0
      let ltag := ((mget s.launches f.launch).map (·.ltag)).getD 0
      s.toServicer (f.core / 48) f.ctx (f.coords sw 0) 2 (.xfer fid sw x.uid) r
        { faultRec f sw w.ctl.level false 0 r with ltag := ltag, spc := w.regs.pc }
    else (s.updSwathAt fid sw (fun w => w.dropXfer x.uid)).endEngine fid sw 0xFFFFFFFF r
  | _, _ => s

/-! ### Registration, as importer (R330) -/

/-- The exporter that an import names. -/
def WinEnt.node (e : WinEnt) : Nat := fld (e.words.getD 1 0) 11 0

/-- This device, as a node (R320). -/
def thisNode : Nat := 4095

/-- The swaths that wait for an import of a context. -/
def State.wregWaiters (s : State) (ctx imp : Nat) : List (Nat × Nat) :=
  s.fields.flatMap (fun (fid, f) =>
    if f.ctx = ctx then
      (f.sws.filter (fun (_, w) => w.ctl.wait == .wreg imp)).map (fun (sw, _) => (fid, sw))
    else [])

/-- An answer has come for an entry that a `TLBI.ctx` or a change of the table has dropped: nothing keeps
it. -/
def Context.dropStale (x : Context) (e : WinEnt) : Context :=
  { x with wins := x.wins.filter (fun v => v != e) }

/-- The import is registered; the instructions that waited for it go on from their checks. -/
def State.registerImport (s : State) (c : Nat) (e : WinEnt) (len : Nat) : State :=
  let s := s.updCtx c (fun x => if e.stale then x.dropStale e
    else x.putWin { e with reg := some len, asked := false })
  (s.wregWaiters c e.num).foldl (fun s (f, w) =>
    s.updSwathAt f w (fun x => { x with ctl := { x.ctl with wait := SWait.none } })) s

/-- The registration has failed: the entry is no longer cached, and every instruction that waited for
it raises a cause with no effect. -/
def State.endImport (s : State) (c : Nat) (e : WinEnt) (r : Raise) : State :=
  let ws := s.wregWaiters c e.num
  let s := s.updCtx c (·.dropStale e)
  ws.foldl (fun s (f, w) =>
    match s.residentAt f w with
    | some (F, _) => s.failWait F r
    | none => s) s

/-! ### As exporter (R330, R331) -/

/-- The export entry of a context as it stands; none when it is no export in order. -/
def exportEntry (s : State) (pctx expno : Nat) : Except XErr (Option (List W64)) :=
  if (s.ctx? pctx).isNone || 1024 ≤ expno then .ok none
  else match winWords s 0 pctx expno with
    | .error e => if e.cause.parks || e.gate.isSome then .error e else .ok none
    | .ok ws => .ok (if winExport ws then some ws else none)

/-- What an exporter answers. -/
inductive Reply
  | ack (len : Nat)
  | nak (reason : Nat)
  | refused
  | data (bytes : List Byte)
  | done
  deriving DecidableEq, Repr

/-- What a request to an exporter comes to: an answer, the service of a fault, or a wait. -/
inductive ExportOut
  | reply (s : State) (r : Reply)
  | service (va : Nat) (e : XErr)
  | hold (s : State)

/-- A fault at the export: serviced here, waited for, or answered with a refusal (R212). -/
def exportFault (s : State) (va : Nat) (e : XErr) (no : Reply) : ExportOut :=
  if e.gate.isSome then .hold s else if e.cause.parks then .service va e else .reply s no

/-- WREG: judged against the export as it stands. -/
def judgeWreg (s : State) (pctx expno : Nat) (rd wr : Bool) (key : W32) : ExportOut :=
  match exportEntry s pctx expno with
  | .error e => exportFault s (((s.ctx? pctx).map (winEntryVa · expno)).getD 0) e (.nak 1)
  | .ok none => .reply s (.nak 1)
  | .ok (some ws) =>
    let w0 := ws.getD 0 0
    .reply s (if fld w0 63 32 ≠ key.toNat then .nak 2
      else if (rd && !bitAt w0 2) || (wr && !bitAt w0 3) then .nak 3
      else .ack (ws.getD 2 0).toNat)

/-- The DPAs behind `n` bytes of an export; none for a byte of an empty part of a content tree. A fault
comes with its VA. -/
def exportBytes (s : State) (ctx va : Nat) (wr : Bool) (n : Nat) :
    Except (Nat × XErr) (List (Option Nat)) :=
  (List.range n).mapM (fun i =>
    match forContext s 0 ctx (va + i) wr with
    | .error e => .error (va + i, e)
    | .ok xl => .ok (if xl.zero then none else some xl.dpa))

/-- Write bytes at their homes; the host's halves must be free first (R328). -/
def exportWrite : List (Option Nat × Byte) → State → MRes Unit
  | [], s => .ok () s
  | (none, _) :: r, s => exportWrite r s
  | (some d, b) :: r, s => (homePutHold s d b.toNat 1).bind fun _ s => exportWrite r s

/-- An access within an export, checked against the entry as it stands. -/
def exportAccess (s : State) (pctx expno off : Nat) (write : Option (List Byte)) (len : Nat) :
    ExportOut :=
  let n := match write with
    | some b => b.length
    | none => len
  match exportEntry s pctx expno with
  | .error e => exportFault s (((s.ctx? pctx).map (winEntryVa · expno)).getD 0) e .refused
  | .ok none => .reply s .refused
  | .ok (some ws) =>
    if (ws.getD 2 0).toNat < off + n || !bitAt (ws.getD 0 0) (if write.isSome then 3 else 2) then
      .reply s .refused
    else
      match exportBytes s pctx ((ws.getD 1 0).toNat + off) write.isSome n with
      | .error (va, e) => exportFault s va e .refused
      | .ok ds =>
        match write with
        | none =>
          .reply s (.data (ds.map (fun d =>
            match d with
            | some d => BitVec.ofNat 8 (homeRd s d 1)
            | none => 0)))
        | some b =>
          match exportWrite (ds.zip b) s with
          | .ok _ s => .reply s .done
          | .hold s => .hold s
          | .fault _ => .reply s .refused

/-- Every field of a context is asked to stop: an arrival belongs to no field (R425;
notes/assumptions/150.md). -/
def State.stopContext (s : State) (c : Nat) : State :=
  { s with fields := mmap s.fields (fun _ (f : Field) => if f.ctx == c then f.cmdStop else f) }

/-- The arrival counter of an export rises by 1 at its home slice. Under REPLAY it is an event of its place
in the log (R425). -/
def exportArrival (s : State) (pctx expno : Nat) : ExportOut :=
  let va := ((s.ctx? pctx).map (winEntryVa · expno)).getD 0 + 24
  match exportEntry s pctx expno with
  | .error e => exportFault s (va - 24) e .refused
  | .ok none => .reply s .refused
  | .ok (some ws) =>
    if !bitAt (ws.getD 0 0) 3 then .reply s .refused
    else match forContext s 0 pctx va true with
      | .error e => exportFault s va e .refused
      | .ok xl =>
        let v := w64 (homeRd s xl.dpa 8 + 1)
        match replayGate s 0 pctx 18 noSwath (w64 expno) with
        | .hold => .hold s
        | .stop => .hold (s.stopContext pctx)
        | .go want =>
          match homePutHold s xl.dpa v.toNat 8 with
          | .ok _ s =>
            let s := s.logEvent 0 pctx 18 noSwath (w64 expno) v
            .reply (if want.any (· != v) then s.stopContext pctx else s) .done
          | .hold s => .hold s
          | .fault _ => .reply s .refused

/-- What a request comes to; one that a servicer has given up is refused. -/
def runExport (s : State) (x : ExportWait) : ExportOut :=
  match x.req with
  | .wreg rd wr key => if x.refused then .reply s (.nak 1) else judgeWreg s x.pctx x.expno rd wr key
  | .access off write len =>
    if x.refused then .reply s .refused else exportAccess s x.pctx x.expno off write len
  | .arrival => if x.refused then .reply s .refused else exportArrival s x.pctx x.expno

/-- The transfer of a number, with its field and swath. -/
def State.xferOf (s : State) (uid : Nat) : Option (Nat × Nat × Xfer) :=
  s.fields.findSome? (fun (fid, f) => f.sws.findSome? (fun (sw, w) =>
    (w.eng.xfers.find? (fun x => x.uid == uid)).map (fun x => (fid, sw, x))))

/-- The imports of this device that wait for an answer about one of its own exports. -/
def State.ownImports (s : State) (pctx expno : Nat) : List (Nat × WinEnt) :=
  s.ctxs.flatMap (fun (c, x) => (x.wins.filter (fun e => e.asked && e.node == thisNode
    && fld (e.words.getD 1 0) 23 12 == pctx && fld (e.words.getD 1 0) 33 24 == expno)).map (fun e => (c, e)))

/-- An answer reaches its asker: another agent, or a context of this device (R320). -/
def State.answerExport (s : State) (x : ExportWait) (r : Reply) : State :=
  if x.node = thisNode then
    match r, s.xferOf x.uid with
    | .ack len, _ => (s.ownImports x.pctx x.expno).foldl (fun s (c, e) => s.registerImport c e len) s
    | .nak _, _ =>
      (s.ownImports x.pctx x.expno).foldl (fun s (c, e) => s.endImport c e (raise .windowInvalid)) s
    | .data b, some (fid, sw, v) => s.setXfer fid sw { v with phase := .answered, data := b }
    | .done, some (fid, sw, v) => s.setXfer fid sw { v with phase := .answered }
    | .refused, some (fid, sw, v) => s.xferFault fid sw v (raise .windowLost)
    | _, none => s
  else
    match r with
    | .ack len => s.vendor x.node [(0, 0x22), (8, len)]
    | .nak reason => s.vendor x.node [(0, 0x23), (1, reason)]
    | .refused => s.send (.answer ansUR [])
    | .data b => s.send (.answer ansData b)
    | .done => s.send (.answer ansDone [])

/-- A request reaches this exporter. While a fault at the export is serviced, or the host is asked, it
waits (R212, R328). -/
def State.serveExport (s : State) (x : ExportWait) : State :=
  let s := { s with exportWaits := s.exportWaits.filter (fun v => v.uid != x.uid) }
  match runExport s x with
  | .reply s r => s.answerExport x r
  | .hold s => { s with exportWaits := s.exportWaits ++ [{ x with service := false }] }
  | .service va e =>
    { s with exportWaits := s.exportWaits ++ [{ x with service := true }] }.toServicer 0 x.pctx noSwath 2
      (.exporting x.uid) (e.raise va)
      { cause := e.cause.code, terminal := false, ctx := x.pctx, va := w64 va, coords := noSwath }

/-- A waiting request is tried again. -/
def State.retryExport (s : State) (uid : Nat) : State :=
  match s.exportWaits.find? (fun x => x.uid == uid) with
  | some x => if x.service then s else s.serveExport x
  | none => s

/-- The waiting requests that wait no longer are tried again, each as a step of its own. -/
def State.wakeExports (s : State) : State :=
  let due := s.exportWaits.filter (fun x => !x.service && match runExport s x with
    | .hold _ => false
    | _ => true)
  { s with agenda := s.agenda ++ due.map (fun x => .exportRetry x.uid) }

/-- A request with a number of its own. -/
def State.askExport (s : State) (node pctx expno : Nat) (req : ExportReq) : State :=
  { s with nextUid := s.nextUid + 1 }.serveExport
    { uid := s.nextUid, node := node, pctx := pctx, expno := expno, req := req, service := false }

/-- WREG reaches this exporter. -/
def execWreg (node pctx expno : Nat) (rd wr : Bool) (key : W32) (s : State) : Result :=
  if !heard s node then .next s else .next (s.askExport node pctx expno (.wreg rd wr key))

/-- An Unordered I/O access to an aperture address. -/
def execApertureAccess (node addr : Nat) (write : Option (List Byte)) (len : Nat) (s : State) : Result :=
  let a := addr % 2 ^ 63
  let off := a % 2 ^ 40
  if !heard s node then .next s
  else if addr / 2 ^ 63 ≠ 1 then .next (s.send (.answer ansUR []))
  else .next (s.askExport node (a / 2 ^ 50) (a / 2 ^ 40 % 2 ^ 10)
    (if off = arrivalOff && write.isSome then .arrival else .access off write len))

def execWindowArrivalWrite (node pctx expno : Nat) (s : State) : Result :=
  if !heard s node then .next s else .next (s.askExport node pctx expno .arrival)

/-! ### Transfers (R211, R212) -/

/-- The local bytes of a `WPOST`, read through the swath's caches. -/
def xferRead (A : Agent) (fid a : Nat) : Nat → Nat → State → ERes (List Byte)
  | _, 0, s => .ok [] s
  | i, n + 1, s =>
    (engGet s A fid false ((a + i) % 2 ^ 64)).bind fun v s =>
      (xferRead A fid a (i + 1) n s).bind fun l s => .ok (BitVec.ofNat 8 v :: l) s

/-- The bytes of a `WGET`, written through the swath's core L1 (R211, R222). -/
def xferWrite (A : Agent) (fid a : Nat) : Nat → List Byte → State → ERes Unit
  | _, [], s => .ok () s
  | i, b :: r, s =>
    (engPut s A fid false ((a + i) % 2 ^ 64) b.toNat).bind fun _ s => xferWrite A fid a (i + 1) r s

/-- A copy of a line of the local range of a transfer, in the swath's core L1; in its cluster's L2. -/
def xferL1 (A : Agent) (a n : Nat) (c : Copy) : Bool :=
  inL1 A.core A.ctx c && decide ((c.va * 128 + 128 - a) % 2 ^ 64 < n + 128)
def xferL2 (A : Agent) (a n : Nat) (c : Copy) : Bool :=
  inL2 A.core A.ctx c && decide ((c.va * 128 + 128 - a) % 2 ^ 64 < n + 128)

/-- Send the requests of a transfer; those to this device reach it at once. -/
def State.sendXfer (s : State) (fid sw : Nat) (f : Field) (w : Swath) (x : Xfer) : State :=
  let A := engineAgent f w
  let addr := apertureAddr x.pctx x.expno x.off
  let go (s : State) (x : Xfer) (write : Option (List Byte)) : State :=
    let s := s.setXfer fid sw { x with phase := .sent }
    if x.node = thisNode then
      s.serveExport { uid := x.uid, node := thisNode, pctx := x.pctx, expno := x.expno,
                      req := .access x.off write x.len, service := false }
    else match write with
      | some bytes => s.emit (s.portTo x.node) (.dataOut · x.node addr bytes)
      | none => s.emit (s.portTo x.node) (.readOut · x.node addr x.len)
  if x.revoked then s.xferFault fid sw x (raise .revoked)
  else if s.unreachable x.node then s.xferFault fid sw x (raise .windowLost)
  else if x.post then
    match xferRead A fid x.src.toNat 0 x.len s with
    | .hold s => s
    | .fault e va s => s.xferFault fid sw x (e.raise va)
    | .ok bytes s => go s { x with units := reached s A x.src.toNat x.len x.units } (some bytes)
  else go s x none

/-- A transfer that has just been issued. -/
def newXfer (uid : Nat) (post : Bool) (src : W64) (off imp len : Nat) (ws : List W64) : Xfer :=
  { uid := uid, post := post, src := src, off := off, imp := imp, len := len,
    node := fld (ws.getD 1 0) 11 0, pctx := fld (ws.getD 1 0) 23 12, expno := fld (ws.getD 1 0) 33 24,
    phase := .unsent, waiting := false, data := [], units := [], revoked := false }

/-- Issue a transfer: the window counter rises. -/
def State.issueXfer (s : State) (F : Focus) (x : Xfer) : State :=
  let s := { s.updSwath F.party (fun w => { w with eng := { w.eng with
    xfers := w.eng.xfers ++ [x], windows := w.eng.windows + 1 } }) with nextUid := s.nextUid + 1 }
  match s.field? F.fid, s.swathAt F.fid F.sw with
  | some f, some w => s.sendXfer F.fid F.sw f w x
  | _, _ => s

/-- Ask the exporter to register an import, unless it has been asked (R330). -/
def State.askImport (s : State) (ctx : Nat) (e : WinEnt) : State :=
  if e.asked then s
  else
    let w (i : Nat) : W64 := e.words.getD i 0
    let pctx := fld (w 1) 23 12
    let expno := fld (w 1) 33 24
    let s := s.updCtx ctx (·.putWin { e with asked := true })
    if e.node = thisNode then
      s.askExport thisNode pctx expno
        (.wreg (bitAt (w 0) 2) (bitAt (w 0) 3) (BitVec.ofNat 32 (fld (w 0) 63 32)))
    else s.vendor e.node [(0, 0x21), (2, pctx), (4, expno), (6, fld (w 0) 3 2), (8, fld (w 0) 63 32)]

/-- An instruction whose import is not registered: it waits for the answer, unless this device has given
it already. -/
def State.awaitImport (s : State) (ctx num : Nat) (e : WinEnt) : SOut :=
  let t := s.askImport ctx e
  match (t.ctx? ctx).bind (·.win num) with
  | some v => if v.reg.isSome then .hold t else .wait t (.wreg num)
  | none => .trap (raise .windowInvalid)

/-- `WPOST` and `WGET`. -/
def windowForm (post : Bool) (a : BitVec 6) (b : BitVec 5) (st : BitVec 2) (s : State) : Result :=
  scalarIssue { SForm.var st [] [a, b ++ 0#1, b ++ 1#1] with onPager := false, ends := true, cls := some 3 }
    (fun F w s =>
      let (off, v) := w.xpair b
      let num := fld v 15 0
      let len := fld v 47 16
      if fld v 63 48 ≠ 0 || len = 0 then .trap (raise .engineArg)
      else if 1024 ≤ num then .trap (raise .range)
      else match winEntry s F.die F.ctx num with
        | .error e =>
          if e.gate.isSome then .hold s
          else .trap (e.raise (((s.ctx? F.ctx).map (winEntryVa · num)).getD 0))
        | .ok (e, s) =>
          if !winImport e.words post then .trap (raise .windowInvalid)
          else match e.reg with
            | none => s.awaitImport F.ctx num e
            | some n =>
              if n < off.toNat + len then .trap (raise .range)
              else
                .done (s.issueXfer F (newXfer s.nextUid post (w.xr a) off.toNat num len e.words)) [] none)
    s

def execWpost (a : BitVec 6) (b : BitVec 5) (st : BitVec 2) (s : State) : Result := windowForm true a b st s
def execWget (a : BitVec 6) (b : BitVec 5) (st : BitVec 2) (s : State) : Result := windowForm false a b st s

/-- Count the leading transfers that are complete (R141). -/
def Swath.countXfers (w : Swath) : Swath :=
  let rec go : List Xfer → List Xfer
    | [] => []
    | x :: r => if x.phase == .done then go r else x :: r
  let xs := go w.eng.xfers
  { w with eng := { w.eng with
      windows := w.eng.windows - (w.eng.xfers.length - xs.length), xfers := xs } }

/-- The oldest unfinished transfer of a kind, on a field that has not ended in a fault. -/
def State.oldestXfer (s : State) (fid sw : Nat) (p : Xfer → Bool) : Option (Field × Swath × Xfer) :=
  match s.field? fid, s.swathAt fid sw with
  | some f, some w =>
    if f.status == .faulted then none
    else (w.eng.xfers.find? (fun x => p x && x.phase != .done)).map (fun x => (f, w, x))
  | _, _ => none

/-- A transfer is complete: the completed ones are counted, in the image too while the field is out
(R141, R297). -/
def State.xferDone (s : State) (fid sw : Nat) (x : Xfer) : State :=
  ((s.setXfer fid sw { x with phase := .done }).updSwathAt fid sw (·.countXfers)).putCounters fid sw

/-- Every data write of a `WPOST` has completed: the arrival write goes out, or is performed here, and the
`WPOST` counts. A transfer whose fault has been served sends its requests. -/
def execWpostComplete (fid sw : Nat) (s : State) : Result :=
  match s.oldestXfer fid sw (·.post) with
  | none => .next s
  | some (f, w, x) =>
    if x.waiting then .next s
    else match x.phase with
      | .unsent => .next (s.sendXfer fid sw f w x)
      | .answered =>
        if x.node = thisNode then
          match exportArrival s x.pctx x.expno with
          | .hold s => .next s
          | _ => .next ((s.askExport thisNode x.pctx x.expno .arrival).xferDone fid sw x)
        else
          .next ((s.emit (s.portTo x.node) (.dataOut · x.node (apertureAddr x.pctx x.expno arrivalOff)
            (List.replicate 8 0))).xferDone fid sw x)
      | _ => .next s

/-- The bytes of a `WGET` are written through the swath's core L1, and then performed at the local home
slice, where the swath's copies go (R211). -/
def execWgetComplete (fid sw : Nat) (s : State) : Result :=
  match s.oldestXfer fid sw (fun x => !x.post) with
  | none => .next s
  | some (f, w, x) =>
    let A := engineAgent f w
    if x.waiting then .next s
    else match x.phase with
      | .unsent => .next (s.sendXfer fid sw f w x)
      | .answered =>
        if x.revoked then .next (s.xferFault fid sw x (raise .revoked))
        else match xferWrite A fid x.src.toNat 0 x.data s with
          | .hold s => .next s
          | .fault e va s => .next (s.xferFault fid sw x (e.raise va))
          | .ok _ s => .next (s.setXfer fid sw { x with phase := .written })
      | .written =>
        match linesHold s (dirtyLines s (xferL1 A x.src.toNat x.len) (xferL2 A x.src.toNat x.len)) with
        | some s => .next s
        | none =>
          .next ((s.flush (xferL1 A x.src.toNat x.len) (xferL2 A x.src.toNat x.len)).xferDone fid sw x)
      | _ => .next s

/-- The completion of a transfer's accesses at the exporter (R331): an Unsupported Request ends it with
`WINDOW_LOST`. -/
def execApertureResponse (fid sw : Nat) (ok : Bool) (data : List Byte) (s : State) : Result :=
  match s.oldestXfer fid sw (fun x => x.phase == .sent && x.node != thisNode) with
  | none => .next s
  | some (_, _, x) =>
    if !heard s x.node then .next s
    else if !ok then .next (s.xferFault fid sw x (raise .windowLost))
    else if x.post || data.length == x.len then
      .next (s.setXfer fid sw { x with phase := .answered, data := data })
    else .next s

/-! ### The answers to WREG (R330) -/

/-- The import that an answer of another agent to a swath's context concerns: the one the swath waits for,
or one that has been asked for; the one asked for first. -/
def State.askedImport (s : State) (fid sw : Nat) : Option (Nat × WinEnt) :=
  match s.field? fid, s.swathAt fid sw with
  | some f, some w =>
    let wins := (((s.ctx? f.ctx).map (·.wins)).getD []).filter (fun (v : WinEnt) =>
      v.asked && v.node != thisNode && match w.ctl.wait with
        | .wreg imp => v.num == imp
        | _ => true)
    ((wins.find? (·.stale)).or wins.head?).map (fun e => (f.ctx, e))
  | _, _ => none

def execWregAck (fid sw : Nat) (len : Nat) (s : State) : Result :=
  match s.askedImport fid sw with
  | none => .next s
  | some (c, e) => if !heard s e.node then .next s else .next (s.registerImport c e len)

def execWregNak (fid sw : Nat) (_reason : Nat) (s : State) : Result :=
  match s.askedImport fid sw with
  | none => .next s
  | some (c, e) =>
    if !heard s e.node then .next s else .next (s.endImport c e (raise .windowInvalid))

/-- No answer within 4 ms: the exporter is a dead agent, and the instruction finds its window lost. -/
def execWregTimeout (fid sw : Nat) (s : State) : Result :=
  match s.askedImport fid sw with
  | none => .next s
  | some (c, e) => .next ((s.agentDead e.node).endImport c e (raise .windowLost))

/-- A message of another type is dropped and logged (R330). -/
def execVendorMessageInvalid (kind : Nat) (s : State) : Result :=
  if [0x21, 0x22, 0x23, 0x31, 0x32].contains kind then .next s
  else .next (s.heathLog 7 0 0 0 (w64 kind))

/-! ### `WCNTW` (R213) -/

/-- The arrival counter of an export, read at its home slice; the swath's own copies of it are written
back first (R213, R223, R329). -/
def arrivals (s : State) (F : Focus) (num : Nat) : MRes W64 :=
  match s.ctx? F.ctx with
  | none => .fault (.of .notMapped)
  | some x =>
    (loadAt .home false s { F.agent with ignoreS := true } (winEntryVa x num + 24) 8).bind fun v s =>
      .ok (w64 v) s

/-- `WCNTW`. An entry of KIND 1 whose LEN is out of its limits is no export here either
(notes/assumptions/104.md). -/
def execWcntw (d a b : BitVec 6) (st : BitVec 2) (s : State) : Result :=
  scalarIssue { SForm.var st [d] [a, b] with onPager := false }
    (fun F w s =>
      let num := (w.xr a).toNat
      if 1024 ≤ num then .trap (raise .range)
      else if acquireClamped s F 5 then .trap (raise .scopeClamp)
      else
        let va := ((s.ctx? F.ctx).map (winEntryVa · num)).getD 0
        match winEntry s F.die F.ctx num with
        | .error e => if e.gate.isSome then .hold s else .trap (e.raise va)
        | .ok (e, s) =>
          if !winExport e.words then .trap (raise .windowInvalid)
          else (arrivals s F num).out (va + 24) (fun v s =>
            if (w.xr b).toNat ≤ v.toNat then .done (partyAcquire F s 5) [(d.toNat, v)] none
            else .wait s (.wcntw d.toNat num (w.xr b)))) s

/-- A waiting `WCNTW` reads the counter again. -/
def execWcntwResume (fid sw : Nat) (s : State) : Result :=
  match s.residentAt fid sw with
  | some (F, w) =>
    match w.ctl.wait with
    | .wcntw d num threshold =>
      match arrivals s F num with
      | .fault e => .next (s.failWait F (e.raise (((s.ctx? F.ctx).map (winEntryVa · num)).getD 0 + 24)))
      | .hold s => .next s
      | .ok v s =>
        if threshold.toNat ≤ v.toNat then .next ((partyAcquire F s 5).endWait F [(d, v)] false)
        else .next s
    | _ => .next s
  | none => .next s

end Sys2Proof.Machine
end

