-- ==== Sys2Proof/Machine/Traps.lean ====
section
/-! DEFINITION. The system and trap instructions: `TRAP` and the handler forms, `PARK`, `MAPFT`, the
invalidations and `BRKPT`, with the waiting ring records that they try again (R236-R247, R288, R393). -/

namespace Sys2Proof.Machine
open Sys2Proof

/-! ### Ring records that wait in the device (R288, R393) -/

/-- Both rings of a context. -/
def State.retryRings (s : State) (c : Nat) : State :=
  let n := s.ringWaits.length
  State.retryRing c false n (State.retryRing c true n s)

/-- The rings that lie in the space of a context are tried again (R393). -/
def State.retryIn (s : State) (space : Nat) : State :=
  (s.ctxs.filter (fun (_, x) => x.parent == space)).foldl (fun s (c, _) => s.retryRings c) s

/-- A waiting record of a context's ring is tried again. -/
def execRingWriteRetry (ctx : Nat) (s : State) : Result := .next (s.retryRings ctx)

/-! ### `TRAP`, `TRUN`, `TRET` (R239-R242) -/

/-- A form of this chapter: it acts on a swath, never on a pager core (R301). -/
def SForm.sys (st : BitVec 2) (ds srcs : List (BitVec 6)) : SForm :=
  { SForm.var st ds srcs with onPager := false }

def execTrap (c : BitVec 11) (st : BitVec 2) (s : State) : Result :=
  scalarIssue (.sys st [] []) (fun _ _ _ => .trap { raise .software with code := c.toNat }) s

/-- The handler fragment and the position of its TRAP entry, the newest (R240). -/
def LaneStream.handlerFrag (l : LaneStream) : Option (Bool × Nat × StackEnt × Frag) :=
  match newest StackEnt.isTrap l.stack 0 with
  | none => none
  | some i =>
    match l.stack[i]? with
    | none => none
    | some e =>
      let second := l.dual.isSome && e.arm
      match l.get second with
      | none => none
      | some g => if l.innermost second = some i then some (second, i, e, g) else none

/-- The newest TRAP entry is that of an arm which a converted entry holds (R130, R139). -/
def LaneStream.handlerHeld (l : LaneStream) : Bool :=
  l.dual.isNone && (newest StackEnt.isTrap l.stack 0).any l.passesOver

/-- The handler fragment, trap-held. -/
def LaneStream.heldHandler (l : LaneStream) : Option (Bool × Nat × StackEnt × Frag) :=
  l.handlerFrag.filter (fun x => x.2.2.2.held)

def execTrun (a b : BitVec 6) (st : BitVec 2) (s : State) : Result :=
  scalarIssue (.sys st [] [a, b])
    (fun F w s =>
      let n := s.llen F.launch
      if w.ctl.level = 0 then .trap (raise .privileged)
      else if n ≤ (w.xr a).toNat || n ≤ (w.xr b).toNat then .trap (raise .range)
      else match (w.ctl.frame w.ctl.level).src, w.lanes.heldHandler with
        | true, none =>
          -- the handler fragment stands in a converted entry: it is waited for (log 120)
          if w.lanes.handlerHeld then .hold s else .trap (raise .streamState)
        | true, some (second, _, _, _) =>
          .done (s.updSwath F.party (fun w =>
            w.meetNow.updFrag second (fun g =>
              { g with pc := w32 (w.xr a).toNat, endPc := some (w32 (w.xr b).toNat), held := false,
                       fmt := w.regs.fmt, wait := .ready }))) [] none
        | false, _ => .trap (raise .streamState)) s

/-- The lane side of `TRET`: the TRAP entry is popped, and its fragment executes the faulting
instruction again. -/
def Swath.popTrap (w : Swath) (second : Bool) (i : Nat) (e : StackEnt) : Swath :=
  let w := w.updFrag second (fun g =>
    { g with mask := e.mask, pc := e.jpc, fmt := e.jfmt, held := false, endPc := e.endPc,
             wait := .ready })
  { w with lanes := { w.lanes with stack := w.lanes.stack.eraseIdx i } }

/-- The scalar side: LEVEL falls, and its frame is gone. A `BARS` that the trap interrupted after its
arrival resumes in its wait alone (R66, R242). -/
def Swath.leaveHandler (w : Swath) : Swath :=
  let fr := w.ctl.frame w.ctl.level
  { w with meet := { w.meet with barsDone := fr.bars == some fr.tpc, barsPc := fr.tpc },
           ctl := if w.ctl.level = 1 then { w.ctl with level := 0, f1 := .zero }
                  else { w.ctl with level := w.ctl.level - 1, f2 := .zero } }

def execTret (st : BitVec 2) (s : State) : Result :=
  scalarIssue (.sys st [] [])
    (fun F w s =>
      let fr := w.ctl.frame w.ctl.level
      if w.ctl.level = 0 then .trap (raise .privileged)
      else if fr.src then
        match w.lanes.heldHandler with
        | some (second, i, e, _) =>
          .done (s.updSwath F.party (fun w => (w.popTrap second i e).leaveHandler)) [] (some fr.tpc)
        | none => .hold s
      else .done (s.updSwath F.party (·.leaveHandler)) [] (some fr.tpc)) s

/-- The entry of a handler as a step of its own: the event of a party whose access to an untouched unit
fails at a VA. The machine takes it within the instruction that fails. -/
def execHandlerEntry (p : PartyId) (va : W64) (s : State) : Result :=
  let s' := { s with chosen := some p }
  let r : Raise := { raise .firstTouch with va := va }
  let enters (F : Focus) : Bool := s.handler F.ctx != 0 && decide (F.level < 2)
  match p with
  | .scalar _ _ =>
    match s'.scalarFocus with
    | some (F, w) =>
      if enters F && !w.ctl.exited then .next (s.scalarFault F r) else .next s
    | none => .next s
  | .lane _ _ _ =>
    match s'.laneFocus with
    | some (F, _, g, second) =>
      if enters F && !g.held && !g.pend then .next (s.laneFault F g second { r with lanes := g.mask })
      else .next s
    | none => .next s
  | .pager _ => .next s

/-- The fault of an arm comes before that of the other in the order in which they were raised; the
other's is over once its instruction has been executed again (R240). -/
def LaneStream.pendsFirst (l : LaneStream) (arm : Bool) : Bool :=
  match l.get arm, l.get (!arm) with
  | some g, some o => o.pendAt == 0 || decide (g.pendAt < o.pendAt)
  | _, _ => true

/-- A pending fault is taken, in the order in which they were raised: at LEVEL 0 the fragment executes
its instruction, whose checks are made again (R240). -/
def execPendingFaultTaken (fid sw : Nat) (arm : Bool) (s : State) : Result :=
  match s.swathAt fid sw with
  | some w =>
    if w.ctl.level = 0 && w.lanes.pendsFirst arm then
      .next (s.updSwathAt fid sw (fun w => w.updFrag arm (fun g => { g with pend := false })))
    else .next s
  | none => .next s

/-! ### `RGN`, `PARK` (R243, R244) -/

def execRgn (st : BitVec 2) (s : State) : Result :=
  scalarIssue (.var st [] [])
    (fun F _ s => .done (s.updSwath F.party (·.scalarRegion)) [] none) s

/-- The lowest lane of the mask over which the handler of frame 1 was entered: its fragment, with what
was split from it. -/
def LaneStream.trapLane (l : LaneStream) : Nat :=
  match l.stack.findIdx? StackEnt.isTrap with
  | none => 0
  | some i =>
    match l.stack[i]? with
    | none => 0
    | some e =>
      let owner (j : Nat) : Option StackEnt := ((ownersFrom none l.stack)[j]?).bind (·.2)
      -- the entries that the same arm has pushed since (R130)
      let same (x : StackEnt) (j : Nat) : Bool :=
        if l.dual.isSome then x.nest == e.nest && x.arm == e.arm
        else if l.passesOver i then l.passesOver j && owner j == owner i
        else !l.passesOver j
      let above := (l.stack.zipIdx).filter (fun (x, j) => decide (i < j) && same x j)
      -- the arm's own mask: a live fragment's, or that of the converted entry that holds it
      let arm := if l.passesOver i then
          ((newest (·.conv) (l.stack.take i) 0).bind (fun c => l.stack[c]?)).map (·.mask)
        else (l.get (l.dual.isSome && e.arm)).map (·.mask)
      let m := above.foldl (fun m (x, _) => m ||| x.mask) (arm.getD 0)
      (lanesOf m).headD 0

/-- The fault of frame 1. Its DPA, which names the servicer, is found by the context's tables. -/
def frameFault (s : State) (F : Focus) (w : Swath) : Raise :=
  let fr := w.ctl.f1
  { cause := if fr.cause == Cause.software.code then .software else .firstTouch
    va := fr.tva, code := fr.code.toNat, lane := if fr.src then w.lanes.trapLane else 0
    dpa := match entryFor s F.agent.cluster F.ctx fr.tva.toNat with
      | .ok e => e.dpa + fr.tva.toNat % 65536
      | .error _ => 0 }

/-- The handler is given up: every TRAP entry removed, LEVEL 0; the scalar stream stands where the trap
of frame 1 took it (notes/assumptions/102.md). -/
def Swath.giveUp (w : Swath) : Swath :=
  let b := w.ctl.f1.bars
  { w with lanes := w.lanes.dropTraps,
           regs := { w.regs with pc := w.ctl.f1.tpc },
           meet := { w.meet with barsDone := b == some w.ctl.f1.tpc, barsPc := w.ctl.f1.tpc },
           ctl := { w.ctl with level := 0, f1 := .zero, f2 := .zero } }

def execPark (st : BitVec 2) (s : State) : Result :=
  scalarIssue (.sys st [] [])
    (fun F w s =>
      if w.ctl.level = 0 then .trap (raise .privileged)
      else
        let r := frameFault s F w
        match (s.field? F.fid).map (fun f => parkGate s f F.sw w.giveUp) with
        | some .hold => .hold s
        | some .stop => .hold (s.updField F.fid Field.cmdStop)
        | _ =>
          let s := s.updSwath F.party (·.giveUp)
          .done (s.park F.fid F.sw w.ctl.f1.src w.ctl.f1.tlpc r) [] (some w.regs.rgnEntry)) s

def execParkTerm (st : BitVec 2) (s : State) : Result :=
  scalarIssue (.sys st [] [])
    (fun F w s =>
      if w.ctl.level = 0 then .trap (raise .privileged)
      else
        let r := frameFault s F w
        let s := s.updSwath F.party (·.giveUp)
        match s.field? F.fid with
        | none => .hold s
        | some f =>
          .done (s.terminal F.fid F.sw (faultRec f F.sw 0 w.ctl.f1.src w.ctl.f1.tlpc r)) []
            (some w.ctl.f1.tpc)) s

/-! ### `MAPFT` (R245) -/

def execMapft (d a : BitVec 6) (st : BitVec 2) (s : State) : Result :=
  scalarIssue (.sys st [d] [a])
    (fun F w s =>
      if w.ctl.level = 0 then .trap (raise .privileged)
      else match bindAt s F.agent.cluster F.ctx (w.xr a).toNat with
        | .error e => if e.gate.isSome then .hold s else .trap (e.raise (w.xr a).toNat)
        | .ok (k, s) => .done s [(d.toNat, w64 k)] none) s

/-! ### `TLBI` (R246, R329, R393) -/

/-- The page of a size code that holds a VA overlaps `[a, a + n)`. -/
def pageIn (size va a n : Nat) : Bool :=
  let p := 65536 * 1024 ^ size
  let lo := va / p * p
  decide (lo < a + n) && decide (a < lo + p)

/-- A translation of context `c` whose page overlaps `[a, a + n)`. -/
def tlbIn (c a n : Nat) (e : TlbEnt) : Bool := e.ctx == c && pageIn e.size (e.va * 65536) a n

/-- A line of context `c` in a page that overlaps `[a, a + n)`. -/
def lineIn (c a n : Nat) (l : Copy) : Bool := l.ctx == c && pageIn l.size (l.va * 128) a n

/-- A walker-cache entry of context `c` over VAs of `[a, a + n)`: an entry of level `k` covers
`2^(16 + 10k)` bytes (R258, R267). -/
def walkIn (c a n : Nat) (e : WalkEnt) : Bool :=
  e.ctx == c && pageIn e.level (e.index * 2 ^ (16 + 10 * e.level)) a n

/-- A content node of context `c` in a 64 KiB page that overlaps `[a, a + n)`. -/
def nodeIn (c a n : Nat) (e : NodeEnt) : Bool :=
  let lo := e.va / 65536 * 65536
  e.ctx == c && decide (lo < a + n) && decide (a < e.va + e.span + 65535)

/-- Step 1 of an invalidation over `[a, a + n)`: every TLB, the walker caches and the content nodes
(R246). -/
def State.forget (s : State) (c a n : Nat) : State :=
  { s with tlb := s.tlb.filter (!tlbIn c a n ·), walkCache := s.walkCache.filter (!walkIn c a n ·),
           nodeTlb := s.nodeTlb.filter (!nodeIn c a n ·) }

/-- An invalidation over `[a, a + n)`: the translations go, and the lines are written back and made
absent. -/
def invalidate (s : State) (c a n : Nat) : MRes Unit :=
  match linesHold s (dirtyLines s (lineIn c a n) (lineIn c a n)) with
  | some s' => .hold s'
  | none =>
    .ok () ((s.forget c a n).flush (lineIn c a n) (lineIn c a n))

/-- The issuing context may invalidate for `c`. -/
def mayTlbi (s : State) (own c : Nat) : Bool :=
  ((s.ctx? own).map (·.policy.tlbi)).getD false && (s.ctx? c).isSome && s.descends own c

/-- Steps that `TLBI.ctx` takes with the window table: no entry of these contexts stays cached; one whose
WREG is not answered stays for the instructions that wait for the answer (R329, R330). -/
def State.dropWins (s : State) (cs : List Nat) : State :=
  { s with ctxs := mmap s.ctxs (fun i (x : Context) =>
      if cs.contains i then
        { x with wins := (x.wins.filter (·.asked)).map (fun (v : WinEnt) => { v with stale := true }) }
      else x) }

def execTlbiR (d a b : BitVec 6) (st : BitVec 2) (s : State) : Result :=
  scalarIssue (.sys st [] [d, a, b])
    (fun F w s =>
      let c := (w.xr d).toNat
      let n := (w.xr b).toNat
      if !mayTlbi s F.ctx c then .trap (raise .denied)
      else if 2 ^ 56 < n then .trap (raise .range)
      else if n = 0 then .done s [] none
      else (invalidate s c (w.xr a).toNat n).out 0 (fun _ s => .done (s.retryIn c) [] none)) s

def execTlbiCtx (d : BitVec 6) (st : BitVec 2) (s : State) : Result :=
  scalarIssue (.sys st [] [d])
    (fun F w s =>
      let c := (w.xr d).toNat
      if !mayTlbi s F.ctx c then .trap (raise .denied)
      else (invalidate s c 0 (2 ^ 64)).out 0 (fun _ s =>
        .done ((s.dropWins [c]).retryIn c) [] none)) s

/-! ### `BRKPT` (R247, R415) -/

/-- A swath of a field breaks: the field is to stop, and every swath of it halts at this boundary (R247).
The stop record carries the code of the lowest-numbered breaking swath. -/
def Field.breakAt (f : Field) (sw code : Nat) : Field :=
  let bit : W32 := (1 : W32) <<< sw
  match f.stop with
  | none => { f with stop := some { brk := true, cmd := false, code := code, mask := bit, halted := false } }
  | some t =>
    if t.halted then f
    else
      let lower := t.mask &&& (bit - 1) != 0
      { f with stop := some { t with brk := true, mask := t.mask ||| bit,
                                     code := if lower then t.code else code } }

def execBrkpt (c : BitVec 11) (st : BitVec 2) (s : State) : Result :=
  scalarIssue (.sys st [] [])
    (fun F _ s =>
      if ((s.ctx? F.ctx).map (·.policy.debug)).getD false then
        .done (s.updField F.fid (fun f => f.breakAt F.sw c.toNat)) [] none
      else .done s [] none) s

end Sys2Proof.Machine
end

