-- ==== Sys2Proof/Machine/Content.lean ====
section
/-! DEFINITION. The content forms, and the making, walking and end of content regions (R335-R348,
R351-R355, R365, R368). -/

namespace Sys2Proof.Machine
open Sys2Proof

/-! ### Operands (R337, R338) -/

/-- A content form: variable latency, a result quad. -/
def SForm.content (st : BitVec 2) (d : BitVec 4) (srcs : List (BitVec 6)) (ends : Bool) : SForm :=
  { stall := st.toNat, reads := srcs.map (fun r => .x r.toNat),
    writes := (List.range 4).map (fun i => .x (4 * d.toNat + i)), ends := ends, onPager := false }

/-- The result quad. -/
def CRes.quad (r : CRes) (d : BitVec 4) : List (Nat × W64) :=
  [(4 * d.toNat, r.name.setWidth 64), (4 * d.toNat + 1, (r.name >>> 64).setWidth 64),
   (4 * d.toNat + 2, w64 r.status), (4 * d.toNat + 3, w64 r.count)]

/-- A name pair. -/
def Swath.namePair (w : Swath) (a : BitVec 5) : BitVec 128 :=
  let (lo, hi) := w.xpair a
  hi ++ lo

/-- The two registers of a pair, as read. -/
def pairRegs (a : BitVec 5) : List (BitVec 6) := [a ++ 0#1, a ++ 1#1]

/-- The four registers of a quad, as read. -/
def quadRegs (a : BitVec 4) : List (BitVec 6) := [a ++ 0#2, a ++ 1#2, a ++ 2#2, a ++ 3#2]

/-- A region that the context may use; only the forms of R368 may use a follower. -/
def usableRegion (s : State) (ctx id : Nat) (follower : Bool) : Option Region :=
  (mget s.regions id).filter (fun g =>
    g.st == .live && s.descends g.owner ctx && (follower || !g.follow))

/-- The trap of a region operand, if any. -/
def regionTrap (s : State) (F : Focus) (v : W64) (bits : Nat) (bad follower : Bool) : Option Raise :=
  if v.toNat / 2 ^ bits ≠ 0 || bad then some (raise .engineArg)
  else if (usableRegion s F.ctx (fld v 15 0) follower).isNone then some (raise .denied)
  else none

/-- A form that completes with a result. -/
def contentDone (d : BitVec 4) (x : State × CRes) : SOut := .done x.1 (x.2.quad d) none

/-! ### `CINS`, `CNODE` (R341, R342) -/

/-- Read the line at a VA as sixteen `LDD` would. -/
def readLine (F : Focus) (va : Nat) : Nat → Nat → State → MRes Nat
  | _, 0, s => .ok 0 s
  | i, n + 1, s =>
    (gLoad F .l1 false s (va + 8 * i) 8).bind fun v s =>
      (readLine F va (i + 1) n s).bind fun r s => .ok (v + 2 ^ 64 * r) s

/-- A form that reads a line at `xa` and acts on region `xb`. -/
def lineForm (d : BitVec 4) (a b : BitVec 6) (st : BitVec 2)
    (act : State → Nat → BitVec 1024 → Except Cause (MRes CRes)) (s : State) : Result :=
  scalarIssue (.content st d [a, b] true)
    (fun F w s =>
      let va := (w.xr a).toNat
      match regionTrap s F (w.xr b) 16 false false with
      | some r => .trap r
      | none =>
        if va % 128 ≠ 0 then .trap { raise .misaligned with va := w64 va }
        else (readLine F va 0 16 s).out va (fun v s =>
          match act s (w.xr b).toNat (BitVec.ofNat 1024 v) with
          | .error c => .trap { raise c with va := w64 va }
          | .ok x => x.out va (fun r s => contentDone d (s, r)))) s

/-- The empty result. -/
def emptyRes (status : Nat) : CRes := { name := 0, status := status, count := 0 }

def insertLeaf (s : State) (id : Nat) (line : BitVec 1024) : Except Cause (MRes CRes) :=
  .ok (if line = 0 then .ok (emptyRes 2) s else insertLine s id 1 line)

/-- Drop one reference on each of a list of names. -/
def State.dropAll (s : State) (id : Nat) (ns : List (BitVec 128)) : State :=
  ns.foldl (fun s n => s.dropRef id n) s

def insertNode (s : State) (id : Nat) (line : BitVec 1024) : Except Cause (MRes CRes) :=
  let kids := children8 line
  if kids.any (fun n => !wellFormedName n) then .error .contentMalformed
  else
    let ns := kids.filter (· != 0)
    match mget s.regions id with
    | none => .ok (.ok (emptyRes 5) s)
    | some g =>
      if ns.isEmpty then .ok (.ok (emptyRes 2) s)
      else if ns.any (fun n => (lookupFault s g.owner g n).isSome) then .error .poisoned
      else
        let held := ns.filter (present s g)
        let t := held.foldl (fun s n => s.gainRef id n) s
        if held.length < ns.length then .ok (.ok (emptyRes 5) (t.dropAll id held))
        else .ok (match insertLine t id 2 line with
          | .ok r t => .ok r (if r.status = 1 then t else t.dropAll id ns)
          | .hold t => .hold (t.dropAll id ns)
          | .fault e => .fault e)

def execCins (d : BitVec 4) (a b : BitVec 6) (st : BitVec 2) (s : State) : Result :=
  lineForm d a b st insertLeaf s

def execCnode (d : BitVec 4) (a b : BitVec 6) (st : BitVec 2) (s : State) : Result :=
  lineForm d a b st insertNode s

/-! ### `CREF`, `CUNREF`, `CSTAT` (R343) -/

/-- Go on once a name has been looked up: the lookup in a follower's image may fault or wait, and one of a
lost bucket faults (R368, R434). -/
def lookedUp (s : State) (F : Focus) (id : Nat) (n : BitVec 128) (k : SOut) : SOut :=
  match (mget s.regions id).bind (fun g => lookupFault s F.ctx g n) with
  | some e => if e.gate.isSome then .hold s else .trap (e.raise 0)
  | none => k

/-- A form on one name. -/
def nameForm (d : BitVec 4) (a : BitVec 5) (b : BitVec 6) (st : BitVec 2) (ends follower : Bool)
    (act : State → Nat → BitVec 128 → State × CRes) (s : State) : Result :=
  scalarIssue (.content st d (b :: pairRegs a) ends)
    (fun F w s =>
      let n := w.namePair a
      match regionTrap s F (w.xr b) 16 (!wellFormedName n) follower with
      | some r => .trap r
      | none => lookedUp s F (w.xr b).toNat n (contentDone d (act s (w.xr b).toNat n))) s

/-- The statuses that the three forms share: EMPTY, NO_NAME; else the form's own act. -/
def onPresent (s : State) (id : Nat) (n : BitVec 128) (act : State × CRes) : State × CRes :=
  match mget s.regions id with
  | none => (s, { name := n, status := 5, count := 0 })
  | some g =>
    if n = 0 then (s, { name := n, status := 2, count := 0 })
    else if !present s g n then (s, { name := n, status := 5, count := 0 })
    else act

def refName (s : State) (id : Nat) (n : BitVec 128) : State × CRes :=
  let t := s.gainRef id n
  onPresent s id n (t, { name := n, status := foundStatus (countOf t id n), count := countOf t id n })

def unrefName (s : State) (id : Nat) (n : BitVec 128) : State × CRes :=
  let t := s.dropRef id n
  onPresent s id n
    (if countOf s id n = 0 then (s, { name := n, status := 6, count := 0 })
     else (t, { name := n, status := foundStatus (countOf t id n), count := countOf t id n }))

def statName (s : State) (id : Nat) (n : BitVec 128) : State × CRes :=
  onPresent s id n (s, { name := n, status := foundStatus (countOf s id n), count := countOf s id n })

def execCref (d : BitVec 4) (a : BitVec 5) (b : BitVec 6) (st : BitVec 2) (s : State) : Result :=
  nameForm d a b st true false refName s

def execCunref (d : BitVec 4) (a : BitVec 5) (b : BitVec 6) (st : BitVec 2) (s : State) : Result :=
  nameForm d a b st true false unrefName s

def execCstat (d : BitVec 4) (a : BitVec 5) (b : BitVec 6) (st : BitVec 2) (s : State) : Result :=
  nameForm d a b st false true statName s

/-! ### `CSWAP` (R344, R345) -/

/-- The swap of a root cell, the cell already found to be accessible. -/
def swapRoot (F : Focus) (s : State) (id va : Nat) (expected new : BitVec 128) : MRes CRes :=
  if (mget s.regions id).any (fun g =>
      [new, expected].any (fun n => (lookupFault s F.ctx g n).isSome)) then .fault (.of .poisoned)
  else
  (partyRelease F s 5).bind fun _ s =>
    match mget s.regions id with
    | none => .ok (emptyRes 5) (partyAcquire F s 5)
    | some g =>
      if (new != 0 && !present s g new) || (expected != 0 && !present s g expected) then
        let s := if new != 0 && present s g new then (s.gainRef id new).dropRef id new else s
        .ok (emptyRes 5) (partyAcquire F s 5)
      else
        (gAtomic F .home false s va 16 (fun old => if old = expected.toNat then some new.toNat else none)).bind
          fun old s =>
            let s := s.gainRef id new
            let o := BitVec.ofNat 128 old
            if o = expected then
              let s := s.dropRef id o
              let k := countOf s id new
              .ok { name := o, status := foundStatus k, count := k } (partyAcquire F s 5)
            else .ok { name := o, status := 7, count := 0 } (partyAcquire F (s.dropRef id new) 5)

def execCswap (d : BitVec 4) (a : BitVec 5) (b : BitVec 4) (st : BitVec 2) (s : State) : Result :=
  scalarIssue (.content st d (pairRegs a ++ quadRegs b) true)
    (fun F w s =>
      let (cell, reg) := w.xpair a
      let va := cell.toNat
      let expected := w.namePair (b ++ 0#1)
      let new := w.namePair (b ++ 1#1)
      match regionTrap s F reg 16 (!wellFormedName expected || !wellFormedName new) false with
      | some r => .trap r
      | none =>
        if va % 16 ≠ 0 then .trap { raise .misaligned with va := cell }
        else if acquireClamped s F 5 then .trap (raise .scopeClamp)
        else match translate s F.agent.cluster F.ctx va (F.agent.access true true false) with
          | .error e => if e.gate.isSome then .hold s else .trap (e.raise va)
          | .ok _ =>
            (swapRoot F s reg.toNat va expected new).out va (fun r s => contentDone d (s, r))) s

/-! ### `CBIND`, `CUNBIND` (R346, R347) -/

/-- The bytes that a tree of a depth covers, and the length of its window. -/
def treeSpan (depth : Nat) : Nat := 128 * 8 ^ depth
def windowLen (depth : Nat) : Nat := Nat.max 65536 (treeSpan depth)

/-- A root whose kind disagrees with the depth, or that is not well formed. -/
def badRoot (n : BitVec 128) (depth : Nat) : Bool :=
  !wellFormedName n || (nameKind n == 1 && decide (1 ≤ depth)) || (nameKind n == 2 && depth == 0)

/-- Every 64 KiB unit of a window has a valid leaf of class CONTENT with R. -/
def windowMapped (s : State) (gw ctx va : Nat) : Nat → Bool
  | 0 => true
  | n + 1 =>
    (match entryFor s gw ctx va with
     | .ok e =>
       e.cls == 3 && e.r && (dpaCheck s (e.dpa + va % 65536)).isNone && homeCheck e (e.dpa + va % 65536)
         && !inContentStore s (e.dpa + va % 65536)
     | .error _ => false)
    && windowMapped s gw ctx (va + 65536) n

/-- A shape operand that is in order for a root. -/
def badShape (shape : W64) (root : BitVec 128) : Bool := badRoot root (fld shape 19 16)

def execCbind (d : BitVec 4) (a b : BitVec 5) (st : BitVec 2) (s : State) : Result :=
  scalarIssue (.content st d (pairRegs a ++ pairRegs b) true)
    (fun F w s =>
      let (win, shape) := w.xpair a
      let root := w.namePair b
      let id := fld shape 15 0
      let depth := fld shape 19 16
      let len := windowLen depth
      let bad := badShape shape root || (win.toNat % 65536 == 0 && win.toNat % len != 0)
      match regionTrap s F shape 20 bad true with
      | some r => .trap r
      | none =>
        if win.toNat % 65536 ≠ 0 then .trap { raise .misaligned with va := win }
        else match s.ctx? F.ctx, mget s.regions id with
          | some x, some g =>
            let res (s : State) (status : Nat) : SOut :=
              contentDone d (s, { name := root, status := status, count := countOf s id root })
            lookedUp s F id root <|
            if !windowMapped s F.agent.cluster F.ctx win.toNat (len / 65536) then res s 12
            else if x.bindings.any (fun v =>
                overlaps win.toNat len v.win.toNat v.len) then res s 9
            else if root != 0 && !present s g root then res s 5
            else if 64 ≤ x.bindings.length then res s 11
            else
              let v : Binding := { id := s.nextUid, region := id, name := root, depth := depth,
                                   win := win, len := len }
              let s := { s.updCtx F.ctx (fun x => { x with bindings := x.bindings ++ [v] }) with
                           nextUid := s.nextUid + 1 }
              let s := s.gainRef id root
              res s (if root = 0 then 2 else foundStatus (countOf s id root))
          | _, _ => .trap (raise .denied)) s

/-- Remove a binding of a context: its window is invalidated and its reference dropped. -/
def State.unbind (s : State) (ctx : Nat) (b : Binding) : MRes Unit :=
  (invalidate s ctx b.win.toNat b.len).bind fun _ s =>
    .ok () ((s.updCtx ctx (fun x => { x with bindings := x.bindings.filter (fun v => v.id != b.id) })).dropRef
      b.region b.name)

/-- What `CUNBIND` returns beside NOT_BOUND: the specification gives it no name, and the count is that
of the name returned, in a region that it does not give either (R338; notes/assumptions/2.md). -/
def unboundRes (s : State) : CRes :=
  let n := BitVec.ofNat 128 (Config.freeNat s.freeCtr)
  { name := n, status := 10, count := countOf s (Config.freeNat (s.freeCtr + 1)) n }

def execCunbind (d : BitVec 4) (a : BitVec 6) (st : BitVec 2) (s : State) : Result :=
  scalarIssue (.content st d [a] true)
    (fun F w s =>
      match (s.ctx? F.ctx).bind (fun x => x.bindings.find? (fun b => b.win == w.xr a)) with
      | none => contentDone d ({ s with freeCtr := s.freeCtr + 2 }, unboundRes s)
      | some b =>
        lookedUp s F b.region b.name <|
        (s.unbind F.ctx b).out (w.xr a).toNat (fun _ s =>
          let k := countOf s b.region b.name
          contentDone d (s, { name := b.name, count := k,
                              status := if b.name = 0 then 2 else foundStatus k }))) s

/-! ### `CCOPY` (R348) -/

/-- Start a copy: it counts with the swath's chains. -/
def State.startCopy (s : State) (F : Focus) (t : CopyTree) : State :=
  s.startChain F { newChain s.nextUid 0 with ccopy := some t }

def execCcopy (d : BitVec 4) (a b : BitVec 5) (st : BitVec 2) (s : State) : Result :=
  scalarIssue { SForm.content st d (pairRegs a ++ pairRegs b) true with cls := some 0 }
    (fun F w s =>
      let (dst, shape) := w.xpair a
      let root := w.namePair b
      let id := fld shape 15 0
      let depth := fld shape 19 16
      match regionTrap s F shape 20 (badShape shape root || decide (11 < depth)) true with
      | some r => .trap r
      | none =>
        if dst.toNat % 128 ≠ 0 then .trap { raise .misaligned with va := dst }
        else match mget s.regions id with
          | none => .trap (raise .denied)
          | some g =>
            lookedUp s F id root <|
            if root != 0 && !present s g root then
              contentDone d (s, { name := root, status := 5, count := 0 })
            else
              let s := s.gainRef id root
              let k := countOf s id root
              contentDone d
                (s.startCopy F { region := id, name := root, depth := depth, dst := dst,
                                 len := treeSpan depth, pos := 0 },
                 { name := root, status := if root = 0 then 2 else foundStatus k, count := k })) s

/-- A gateway that no TLB serves: the nodes of a copied tree are not those of a window (R348, R362). -/
def noTlb : Nat := 1024

/-- The line at an offset of a tree, or the fault of its reading. -/
def treeLine (s : State) (A : Agent) (t : CopyTree) : Except XErr (BitVec 1024) :=
  match mget s.regions t.region with
  | none => .error (.of .contentMalformed)
  | some g =>
    match (treeFrom s g noTlb A.ctx t.depth t.name t.dst.toNat t.pos).1 with
    | .zero => .ok 0
    | .malformed => .error (.of .contentMalformed)
    | .fault e => .error e
    | .slot d =>
      match lastChecks s A.ctx (A.access true false false) 3 d with
      | some e => .error e
      | none => .ok (homeLine s (d / 128 * 128))

/-- Write a line's bytes as a COPY entry writes them. -/
def putLine (A : Agent) (fid va : Nat) (line : BitVec 1024) : Nat → Nat → State → ERes Unit
  | _, 0, s => .ok () s
  | i, n + 1, s =>
    (engPut s A fid false ((va + i) % 2 ^ 64) (line.toNat / 2 ^ (8 * i) % 256)).bind fun _ s =>
      putLine A fid va line (i + 1) n s

/-- A step of a `CCOPY`: the next line; the last one completes the copy, which drops its reference. -/
def execCcopyComplete (fid sw chain : Nat) (s : State) : Result :=
  match s.chainAt fid sw chain with
  | none => .next s
  | some (f, w, c) =>
    match c.ccopy with
    | none => .next s
    | some t =>
      let A := engineAgent f w
      if c.revoked then .next (s.chainFault fid sw c (raise .revoked))
      else match treeLine s A t with
        | .error e => if e.gate.isSome then .next s else .next (s.chainFault fid sw c (e.raise 0))
        | .ok line =>
          let va := (t.dst.toNat + t.pos) % 2 ^ 64
          let r := (putLine A fid va line 0 128 s).bind fun _ s =>
            let last := decide (t.len ≤ t.pos + 128)
            let s := if last then s.dropRef t.region t.name else s
            .ok { c with ccopy := some { t with pos := t.pos + 128 }, done := last,
                         units := reached s A va 128 c.units } s
          .next (State.chainEnd fid sw c r)

/-! ### Regions (R351-R355, R365, R368) -/

def execContentReclaim (region : Nat) (s : State) : Result :=
  match mget s.regions region with
  | some g =>
    if g.st == .live && !s.scrubFirst && reclaimsNext s region then
      .next ((reclaimHold s region).getD (s.reclaimOne region))
    else .next s
  | none => .next s

/-- Bytes of a die's carved LLC part that directories occupy. -/
def directoryBytes (s : State) (die : Nat) : Nat :=
  (s.regions.filter (fun (_, g) => g.home == die && !g.follow)).foldl (fun n (_, g) => n + 512 * g.capk * 128) 0

/-- The bytes of a region's store and of its image. -/
def storeBytes (capk store : Nat) : Nat :=
  128 * (1024 * capk) + (if (dregion store).tag = 3 then 128 * (512 * capk) else 0)

/-- Zero a range of DPA space, unit by unit. -/
def State.zeroRange (s : State) (dpa n : Nat) : State :=
  (unitsOf dpa n).foldl (fun s u =>
    let (a, k) := clipUnit u dpa n
    s.clearAt a k) s

/-- What the zeroing of a range waits for: the writes of the directory's own that it is made of. -/
def zeroHold (s : State) (dpa n : Nat) : Option State := storesHold s none ((unitsOf dpa n).map (· * 65536))

/-- Heath answers with a region's descriptor. -/
def State.answerRegion (s : State) (id : Nat) : State := s.reply 30 (s.regionDescriptor id)

/-- Creation by the host driver: it fails, and the region stays FREE, in the cases of R353. The image is
written first, and creation waits for the writes that are held (R366). The command is answered with the
region's descriptor, as Heath returns it on request (R352; notes/assumptions/158.md). -/
def execRegionCreate (via : Via) (id capk owner store home : Nat) (follow : Option Nat) (s : State) : Result :=
  s.managed via <|
  let tag := (dregion store).tag
  if id = 0 || 255 < id || (mget s.regions id).isSome || capk = 0 || 2048 < capk || 4 ≤ home
      || store % 65536 ≠ 0 || (tag ≠ 0 && tag ≠ 3) || !inOneRegion store (storeBytes capk store)
      || (follow.isNone && decide (s.llcCarved home < directoryBytes s home + 512 * capk * 128))
      || (follow.isSome && tag != 3) then .next (s.answerRegion id)
  else
    let make (s : State) : Result := .next ((s.setRegion id
      { st := .live, follow := follow.isSome, home := home, capk := capk, owner := owner,
        agent := follow.getD 0, store := store, dir := [], reclaims := [] }).answerRegion id)
    let image := store + 128 * (1024 * capk)
    if tag = 3 && follow.isNone then
      match zeroHold s image (128 * (512 * capk)) with
      | some t => .next t
      | none => make (s.zeroRange image (128 * (512 * capk)))
    else make s

/-- The copies of a region that are in progress end with `CONTENT_MALFORMED`. -/
def State.endCopies (s : State) (id : Nat) : State :=
  s.fields.foldl (fun s (fid, f) =>
    f.sws.foldl (fun s (sw, w) =>
      match w.eng.chains.find? (fun c => !c.done && c.ccopy.any (fun t => t.region == id)) with
      | some c =>
        if f.status == .faulted then s
        else (s.updSwathAt fid sw (fun w => w.dropChain c.uid)).endEngine fid sw (w32 c.cur)
          (raise .contentMalformed)
      | none => s) s) s

/-- A binding is removed without a wait: a line with dirty bytes that a write-back would keep waiting is
of an earlier mapping of the window's pages, and stays (R355). -/
def State.unbindNow (s : State) (ctx : Nat) (b : Binding) : State :=
  let s := match invalidate s ctx b.win.toNat b.len with
    | .ok _ s => s
    | _ =>
      let gone (c : Copy) : Bool := lineIn ctx b.win.toNat b.len c && c.dirty == 0
      let s := s.forget ctx b.win.toNat b.len
      { s with l1 := s.l1.filter (!gone ·), l2 := s.l2.filter (!gone ·) }
  (s.updCtx ctx (fun x => { x with bindings := x.bindings.filter (fun v => v.id != b.id) })).dropRef
    b.region b.name

/-- Every binding to a region is removed, in every context. -/
def State.unbindRegion (s : State) (id : Nat) : State :=
  s.ctxs.foldl (fun s (c, x) =>
    (x.bindings.filter (fun b => b.region == id)).foldl (fun s b => s.unbindNow c b) s) s

def execRegionDestroy (via : Via) (id : Nat) (s : State) : Result :=
  s.managed via <|
  match mget s.regions id with
  | some g =>
    if g.st == .live then
      .next ((((s.setRegion id { g with st := .destroying }).unbindRegion id).endCopies id).answerRegion id)
    else .next (s.answerRegion id)
  | none => .next (s.answerRegion id)

/-- Teasel has invalidated the directory and zeroed the store and the image: the region is FREE. The
slots of a follower are those of the region that it follows, and it writes none of them (R355, R368;
notes/assumptions/130.md). -/
def execRegionScrubComplete (region : Nat) (s : State) : Result :=
  match mget s.regions region with
  | some g =>
    if g.st == .destroying then
      let n := storeBytes g.capk g.store
      let free (s : State) : Result := .next { s with regions := mdel s.regions region }
      if g.follow then free s
      else match zeroHold s g.store n with
        | some t => .next t
        | none => free (s.zeroRange g.store n)
    else .next s
  | none => .next s

end Sys2Proof.Machine
end

