-- ==== Sys2Proof/Machine/Context.lean ====
section
/-! DEFINITION. The context forms, revocation, the end of a subtree and its scrub (R261, R269, R370-R382,
R389-R407). -/

namespace Sys2Proof.Machine
open Sys2Proof

/-! ### Who executes a form (R371, R411) -/

/-- The caller of a form: its context, and how it reads and writes a dword of memory. -/
structure Caller where
  ctx : Nat
  rd : Nat → State → MRes W64
  wr : Nat → W64 → State → MRes Unit

/-- A swath: by scalar loads and stores. -/
def swathCaller (F : Focus) : Caller :=
  { ctx := F.ctx
    rd := fun va s => (gLoad F .l1 false s va 8).bind fun v s => .ok (w64 v) s
    wr := fun va v s => plainStore F s va v.toNat 8 }

/-- Context 0 through a firmware agent: by DPA (R392, R411). -/
def dpaCaller : Caller :=
  { ctx := 0
    rd := fun va s =>
      match forContext s 0 0 va false with
      | .ok xl => .ok (w64 (homeRd s xl.dpa 8)) s
      | .error e => if e.gate.isSome then .hold s else .fault e
    wr := fun va v s =>
      match forContext s 0 0 va true with
      | .ok xl => homePutHold s xl.dpa v.toNat 8
      | .error e => if e.gate.isSome then .hold s else .fault e }

/-- What a form comes to. -/
inductive CtxOut
  | trap (r : Raise)
  | hold (s : State)
  | done (s : State) (status : Nat) (value : W64)

/-- Go on with the result of a memory operation. -/
def MRes.ctx {α : Type} (r : MRes α) (va : Nat) (k : α → State → CtxOut) : CtxOut :=
  match r with
  | .ok a s => k a s
  | .fault e => .trap (e.raise va)
  | .hold s => .hold s

/-- Read `n` dwords from `va`. -/
def Caller.rds (c : Caller) (va : Nat) : Nat → State → MRes (List W64)
  | 0, s => .ok [] s
  | n + 1, s => (c.rd va s).bind fun v s => (c.rds (va + 8) n s).bind fun l s => .ok (v :: l) s

/-- Write dwords from `va`. -/
def Caller.wrs (c : Caller) (va : Nat) : List W64 → State → MRes Unit
  | [], s => .ok () s
  | v :: r, s => (c.wr va v s).bind fun _ s => c.wrs (va + 8) r s

/-- A status with no value. -/
def CtxOut.status (s : State) (k : Nat) : CtxOut := .done s k 0

def stDone : Nat := 0
def stDepth : Nat := 1
def stNoId : Nat := 2
def stNotChild : Nat := 3
def stNotOwned : Nat := 4
def stFragmented : Nat := 5
def stOverlap : Nat := 6
def stPolicy : Nat := 7
def stOversub : Nat := 8
def stBadQuantum : Nat := 9
def stShortQuantum : Nat := 10
def stNoGrant : Nat := 11
def stNoMatch : Nat := 12
def stNoParent : Nat := 13
def stInUse : Nat := 14
def stNoKey : Nat := 15

/-- No bit outside a mask is set. -/
def onlyBits (v : W64) (m : Nat) : Bool := v &&& ~~~(w64 m) == 0

/-- The mask of bits `[hi:lo]`. -/
def bitsOf (hi lo : Nat) : Nat := 2 ^ (hi + 1) - 2 ^ lo

/-- A context ID operand. -/
def badId (v : W64) : Bool := v.toNat / 4096 != 0

/-- The caller's context holds the CREATE capability. -/
def mayCreate (s : State) (c : Nat) : Bool := ((s.ctx? c).map (·.policy.create)).getD false

/-- A live direct child of the caller (R372). -/
def isChild (s : State) (caller c : Nat) : Bool :=
  c != 0 && (s.ctx? c).any (fun x => x.parent == caller && x.state == .live)

/-- The contexts of a subtree, its root among them. -/
def State.subtree (s : State) (c : Nat) : List Nat :=
  (s.ctxs.filter (fun (i, _) => s.descends c i)).map (·.1)

/-- A descriptor form: capability, alignment, reading, reserved fields, then its act. -/
def withDescriptor (c : Caller) (va n : Nat) (ok : List W64 → Bool) (s : State)
    (k : List W64 → State → CtxOut) : CtxOut :=
  if !mayCreate s c.ctx then .trap (raise .denied)
  else if va % (8 * n) ≠ 0 then .trap { raise .misaligned with va := w64 va }
  else (c.rds va n s).ctx va (fun d s => if ok d then k d s else .trap (raise .engineArg))

/-! ### `CTXNEW` (R374, R392, R404) -/

/-- The reserved fields of a creation descriptor are 0, and no field holds a reserved code. -/
def newOk (d : List W64) : Bool :=
  let w (i : Nat) : W64 := d.getD i 0
  onlyBits (w 0) (bitsOf 51 13) && onlyBits (w 2) (bitsOf 55 6) && onlyBits (w 3) (bitsOf 55 6)
    && onlyBits (w 4) 0xFF && fld (w 4) 3 0 != 0 && decide (fld (w 4) 3 0 ≤ 12)
    && decide (fld (w 4) 7 4 ≤ 12) && onlyBits (w 5) (bitsOf 31 16 + 0x3FF) && decide (fld (w 5) 2 0 ≤ 6)
    && onlyBits (w 6) (bitsOf 55 7) && w 7 == 0

/-- The policy dword (R374). -/
def readPolicy (v : W64) : Policy :=
  { widest := fld v 2 0, clampTrap := bitAt v 3, debug := bitAt v 4, tlbi := bitAt v 5,
    create := bitAt v 6, maxClass := fld v 8 7, prot := bitAt v 9, rwait := fld v 31 16 }

def policyWord (p : Policy) : W64 :=
  w64 (p.widest + b2n p.clampTrap * 8 + b2n p.debug * 16 + b2n p.tlbi * 32 + b2n p.create * 64
    + p.maxClass * 128 + b2n p.prot * 512 + p.rwait * 65536)

/-- A child's policy exceeds its parent's. -/
def exceeds (p q : Policy) : Bool :=
  decide (q.widest < p.widest) || (p.debug && !q.debug) || (p.tlbi && !q.tlbi) || (p.create && !q.create)
    || decide (p.maxClass < q.maxClass)

/-- The lowest of `n` numbers that no listed one is. -/
def lowestNot (used : List Nat) (n : Nat) : Option Nat := (List.range n).find? (fun i => !used.contains i)

/-- The lowest free key slot; one whose scrub is unfinished counts as used. -/
def freeKeySlot (s : State) : Option Nat := lowestNot (s.ctxs.filterMap (fun (_, x) => x.key)) 64

/-- The partition number of a new child. -/
def childPart (s : State) (caller : Nat) : Option Nat :=
  if caller = 0 then lowestNot ((s.children 0).map (fun (_, x) => x.part)) 24
  else (s.ctx? caller).map (·.part)

/-- The context that a descriptor makes. -/
def newContext (caller : Nat) (x : Context) (d : List W64) (part : Nat) (key : Option Nat) : Context :=
  let w (i : Nat) : W64 := d.getD i 0
  { parent := caller, depth := x.depth + 1, state := .live, part := part, policy := readPolicy (w 5),
    root := (w 0).toNat, handler := w 1, ranges := [], grants := [], budgets := .zero, pending := none,
    usedW := [], retry := { base := w 2, size := fld (w 4) 3 0, prod := 0, lost := 0 },
    terminal := { base := w 3, size := fld (w 4) 7 4, prod := 0, lost := 0 }, winTab := w 6, wins := [],
    bindings := [], vf := none, key := key, poolUsed := false, scrubLeft := [], scrubAll := 0 }

def ctxNew (c : Caller) (va : Nat) (s : State) : CtxOut :=
  withDescriptor c va 8 newOk s (fun d s =>
    match s.ctx? c.ctx with
    | none => .status s stNoId
    | some x =>
      let p := readPolicy (d.getD 5 0)
      if 7 ≤ x.depth then .status s stDepth
      else if exceeds p x.policy then .status s stPolicy
      else if p.prot && (freeKeySlot s).isNone then .status s stNoKey
      else match lowestNot (s.ctxs.map (·.1)) 4096, childPart s c.ctx with
        | some id, some part =>
          let key := if p.prot then freeKeySlot s else x.key
          let s := if p.prot then
              { s with keys := mput s.keys ((freeKeySlot s).getD 0) (Config.freeKey s.freeCtr),
                       freeCtr := s.freeCtr + 1 }
            else s
          .done { s.setCtx id (newContext c.ctx x d part key) with used := mdel s.used id } stDone (w64 id)
        | _, _ => .status s stNoId)

/-! ### `CTXGRANT` (R375, R376, R400, R405) -/

/-- The reserved fields of a grant descriptor are 0 and its values are in range. -/
def grantOk (d : List W64) : Bool :=
  let w (i : Nat) : W64 := d.getD i 0
  let core := bitsOf 31 24
  match fld (w 0) 3 0 with
  | 1 => onlyBits (w 0) (0x1F + core + bitsOf 35 32) && decide (fld (w 0) 31 24 < 192)
           && fld (w 0) 35 32 != 0 && w 1 == 0 && w 2 == 0 && w 3 == 0
  | 2 => onlyBits (w 0) (0xF + core) && decide (fld (w 0) 31 24 < 192) && w 1 != 0 && w 2 == 0 && w 3 == 0
  | 3 => onlyBits (w 0) 0xEF && onlyBits (w 1) (bitsOf 51 16) && onlyBits (w 2) (bitsOf 51 16)
           && decide (0 < (w 3).toNat) && decide ((w 3).toNat ≤ 2 ^ 36)
  | 4 => onlyBits (w 0) 0xF && onlyBits (w 1) 0x3FF && w 2 == 0 && w 3 == 0
  | _ => false

/-- Quadrants and banks that a context was given; context 0 holds all that is not pinned. -/
def heldQuads (s : State) (c core : Nat) : Nat :=
  if c = 0 then 15 else quadMask (((s.ctx? c).map (·.grants)).getD []) core false

def heldBanks (s : State) (c core : Nat) : W64 :=
  (if c = 0 then BitVec.allOnes 64 else bankMask (((s.ctx? c).map (·.grants)).getD []) core)
    &&& ~~~(s.carvedMask core)

/-- Numbers of a unit class on a core that may not be granted: a scrub holds them, or they are out of
use (R406, R432). -/
def unitBarred (s : State) (cls idx : Nat) : Bool := s.scrubbing cls idx || s.unitOut cls idx

/-- A QUAD grant is the caller's to make. -/
def quadsOwned (s : State) (caller child core mask : Nat) (excl : Bool) : Bool :=
  let others := (s.children caller).filter (fun (i, _) => i != child)
  (List.range 4).all (fun q =>
    !Nat.testBit mask q ||
      (Nat.testBit (heldQuads s caller core) q && !unitBarred s 1 (4 * core + q) &&
        others.all (fun (_, x) =>
          !Nat.testBit (quadMask x.grants core true) q
            && !(excl && Nat.testBit (quadMask x.grants core false) q))))

/-- A BANKS grant is the caller's to make. -/
def banksOwned (s : State) (caller child core : Nat) (mask : W64) : Bool :=
  let others := (s.children caller).filter (fun (i, _) => i != child)
  (List.range 64).all (fun b =>
    !mask.getLsbD b ||
      ((heldBanks s caller core).getLsbD b && !unitBarred s 2 (64 * core + b)
        && !s.heath.released.contains (core, b)
        && others.all (fun (_, x) => !(bankMask x.grants core).getLsbD b)))

/-- A context holds a queue. -/
def holdsQueue (s : State) (c q : Nat) : Bool :=
  c == 0 || (s.ctx? c).any (fun x => x.grants.any (fun g => g.kind == .queue q))

/-- The child to which a context has granted a queue. -/
def queueGrantee (s : State) (c q : Nat) : Option Nat :=
  ((s.children c).find? (fun (_, x) => x.grants.any (fun g => g.kind == .queue q))).map (·.1)

/-- The caller's entries over a range, ascending; those of context 0 are the identity (R376). -/
def callerEntries (s : State) (c pcpa bytes : Nat) : List RangeEnt :=
  if c = 0 then
    if inOneRegion pcpa bytes then
      [{ cbase := pcpa, dbase := pcpa, len := bytes / 65536, r := true, w := true, x := true, lineage := [] }]
    else []
  else sortBy (fun a b => decide (a.cbase ≤ b.cbase)) (((s.ctx? c).map (·.ranges)).getD [])

/-- The overlap of an entry with a range, moved into the child's space. No check bounds CCPA + LEN: a
piece may stand above the 52 bits of a CPA, where no table entry reaches it (notes/assumptions/133.md). -/
def pieceOf (e : RangeEnt) (pcpa bytes ccpa : Nat) (r w x : Bool) : Option RangeEnt :=
  let lo := Nat.max e.cbase pcpa
  let hi := Nat.min (e.cbase + e.len * 65536) (pcpa + bytes)
  if lo < hi then
    some { cbase := lo - pcpa + ccpa, dbase := e.dbase + (lo - e.cbase), len := (hi - lo) / 65536,
           r := r, w := w, x := x, lineage := e.lineage }
  else none

/-- An entry lacks a wanted permission. -/
def RangeEnt.lacks (e : RangeEnt) (r w x : Bool) : Bool := (r && !e.r) || (w && !e.w) || (x && !e.x)

/-- The pool units of a piece. -/
def RangeEnt.poolUnits (e : RangeEnt) : List Nat :=
  if (dregion e.dbase).tag = 3 then (List.range e.len).map (· + e.dbase / 65536) else []

/-- The entry reaches a unit. -/
def RangeEnt.reaches (e : RangeEnt) (unit : Nat) : Bool :=
  decide (e.dbase / 65536 ≤ unit) && decide (unit < e.dbase / 65536 + e.len)

/-- Marking a unit for a key domain is barred (R405). -/
def markBarred (s : State) (slot unit : Nat) : Bool :=
  (mget s.keyMap unit).any (· != slot)
    || s.ctxs.any (fun (_, x) => x.key != some slot && x.ranges.any (fun e => e.w && e.reaches unit))

/-- The pieces of a RANGE grant, or the status that refuses it (R376, R405). -/
def rangePieces (s : State) (caller : Nat) (child : Context) (d : List W64) : Except Nat (List RangeEnt) :=
  let w0 := d.getD 0 0
  let (r, w, x) := (bitAt w0 5, bitAt w0 6, bitAt w0 7)
  let pcpa := (d.getD 1 0).toNat
  let ccpa := (d.getD 2 0).toNat
  let bytes := (d.getD 3 0).toNat * 65536
  let es := (callerEntries s caller pcpa bytes).filter (fun e => (pieceOf e pcpa bytes ccpa r w x).isSome)
  let ps := es.filterMap (fun e => pieceOf e pcpa bytes ccpa r w x)
  let covered := ps.foldl (fun n p => n + p.len) 0
  if es.any (fun e => e.lacks r w x) || covered * 65536 != bytes then .error stNotOwned
  else if child.ranges.any (fun e => overlaps ccpa bytes e.cbase (e.len * 65536)) then .error stOverlap
  else if 48 < child.ranges.length + ps.length then .error stFragmented
  else match child.key with
    | some slot => if ps.any (fun p => p.poolUnits.any (markBarred s slot)) then .error stPolicy else .ok ps
    | none => .ok ps

/-- Mark the pool units of pieces for a key domain. -/
def State.markUnits (s : State) (key : Option Nat) (ps : List RangeEnt) : State :=
  match key with
  | none => s
  | some slot =>
    { s with keyMap := (ps.flatMap (·.poolUnits)).foldl (fun m u => mput m u slot) s.keyMap }

/-- Add a grant to a child. -/
def State.addGrant (s : State) (child : Nat) (g : Grant) (ps : List RangeEnt) : State :=
  let tag (e : RangeEnt) : RangeEnt := { e with lineage := (child, g.id) :: e.lineage }
  s.updCtx child (fun x => { x with grants := x.grants ++ [g], ranges := x.ranges ++ ps.map tag })

def ctxGrant (c : Caller) (idv : W64) (va : Nat) (s : State) : CtxOut :=
  if badId idv then .trap (raise .engineArg)
  else withDescriptor c va 4 grantOk s (fun d s =>
    let id := idv.toNat
    let w0 := d.getD 0 0
    let core := fld w0 31 24
    match (if isChild s c.ctx id then s.ctx? id else none) with
    | none => .status s stNotChild
    | some x =>
      let give (kind : GrantKind) (ps : List RangeEnt) : CtxOut :=
        match lowestNot (0 :: x.grants.map (·.id)) 4096 with
        | none => .status s stNoId
        | some g =>
          .done (((s.addGrant id { id := g, kind := kind } ps).markUnits x.key ps).retryIn id) stDone (w64 g)
      match fld w0 3 0 with
      | 1 =>
        let mask := fld w0 35 32
        let excl := bitAt w0 4 || c.ctx == 0
        if quadsOwned s c.ctx id core mask excl then give (.quad core mask excl) [] else .status s stNotOwned
      | 2 =>
        if banksOwned s c.ctx id core (d.getD 1 0) then give (.banks core (d.getD 1 0)) []
        else .status s stNotOwned
      | 3 =>
        match rangePieces s c.ctx x d with
        | .error k => .status s k
        | .ok ps => give .range ps
      | _ =>
        let q := (d.getD 1 0).toNat
        if holdsQueue s c.ctx q && (queueGrantee s c.ctx q).isNone then give (.queue q) []
        else .status s stNotOwned)

/-! ### Fields on what their context no longer holds (R299, R375, R377) -/

/-- A resident field stands on a quadrant or bank that its context does not hold for its own use. -/
def displaced (s : State) (f : Field) : Bool :=
  let qs := ownedQuads s f.ctx f.core
  let bs := ownedBanks s f.ctx f.core
  f.status == .resident &&
    (f.sws.any (fun (_, w) => !w.ctl.exited && !qs.contains w.quad)
      || (f.tiles != 0 && !qs.contains f.mquad) || f.banks.any (fun b => !bs.contains b))

/-- Every displaced field is swapped out. -/
def State.evictDisplaced (s : State) : State :=
  (s.fields.filter (fun (_, f) => displaced s f)).foldl (fun s (i, _) => s.swapGroup i) s

/-! ### `CTXREVOKE` (R377, R399) -/

/-- The host's halves that the write-backs of a list of contexts have to wait for (R328). -/
def revokeHold (s : State) (cs : List Nat) : Option State :=
  let p (l : Copy) : Bool := cs.contains l.ctx
  linesHold s (dirtyLines s p p)

/-- Contexts in descending depth, the order in which a revocation walk takes them (R399). -/
def deepestFirst (s : State) (cs : List Nat) : List Nat :=
  sortBy (fun a b => decide (((s.ctx? b).map (·.depth)).getD 0 ≤ ((s.ctx? a).map (·.depth)).getD 0)) cs

/-- A removed entry reaches a unit that an engine's accesses have used. -/
def usesUnits (gone : List RangeEnt) (units : List Nat) : Bool :=
  units.any (fun u => gone.any (fun e => e.reaches u))

/-- Chains and transfers of a context that used a removed entry end at their next access (R399). -/
def State.revokeEngines (s : State) (ctx : Nat) (gone : List RangeEnt) : State :=
  let cut (w : Swath) : Swath :=
    { w with eng := { w.eng with
        chains := w.eng.chains.map (fun (c : Chain) => { c with revoked := c.revoked || usesUnits gone c.units }),
        xfers := w.eng.xfers.map (fun (c : Xfer) => { c with revoked := c.revoked || usesUnits gone c.units }) } }
  { s with fields := mmap s.fields (fun _ (f : Field) => if f.ctx = ctx then f.mapSw cut else f) }

/-- LOCAL frames whose unit lies in no range table are scrubbed (R276, R399). -/
def State.releaseLocal (s : State) : State :=
  (s.frames.filter (fun (_, e) => e.role == .local_ && e.st != .free
      && !s.ctxs.any (fun (_, x) => x.ranges.any (fun r => r.reaches e.unit)))).foldl
    (fun s (f, _) => s.scrubLocal f) s

/-- One context of a revocation walk: its whole space is invalidated, as `TLBI.ctx` does, under the old
translations; what its engines used is noted; its entries that satisfy `p` go (R246, R377, R399). -/
def State.loseRanges (s : State) (p : RangeEnt → Bool) (c : Nat) : State :=
  let mine (l : Copy) : Bool := l.ctx == c
  let s := ((s.forget c 0 (2 ^ 64)).dropWins [c]).flush mine mine
  (s.revokeEngines c ((((s.ctx? c).map (·.ranges)).getD []).filter p)).updCtx c
    (fun x => { x with ranges := x.ranges.filter (fun e => !p e) })

/-- Remove the range entries that satisfy `p` from the contexts of a list, context by context in
descending depth (R399). -/
def removeFrom (s : State) (cs : List Nat) (p : RangeEnt → Bool) : MRes Unit :=
  match revokeHold s cs with
  | some s' => .hold s'
  | none => .ok () ((deepestFirst s cs).foldl (fun s c => s.loseRanges p c) s)

/-- Remove the range entries that satisfy `p`, in every context, with their invalidations. -/
def removeRanges (s : State) (p : RangeEnt → Bool) : MRes Unit :=
  (removeFrom s ((s.ctxs.filter (fun (_, x) => x.ranges.any p)).map (·.1)) p).bind fun _ s =>
    .ok () s.releaseLocal

/-- A grant was made from these quadrants, banks or queue. -/
def madeFrom (k g : GrantKind) : Bool :=
  match k, g with
  | .quad c m _, .quad c' m' _ => c == c' && Nat.land m m' != 0
  | .banks c m, .banks c' m' => c == c' && m &&& m' != 0
  | .queue q, .queue q' => q == q'
  | _, _ => false

/-- Remove the grants of a subtree below its root that satisfy `p`. -/
def State.dropGrants (s : State) (root : Nat) (p : GrantKind → Bool) : State :=
  let below := (s.subtree root).filter (· != root)
  { s with ctxs := mmap s.ctxs (fun i (x : Context) =>
      if below.contains i then { x with grants := x.grants.filter (fun g => !p g.kind) } else x) }

/-- Unbind the queues that satisfy `p` and are bound in a subtree. -/
def State.unbindQueues (s : State) (root : Nat) (p : Nat → Bool) : State :=
  { s with queues := mmap s.queues (fun q (v : Queue) =>
      if p q && v.binding.any (fun b => s.descends root b.ctx) then { v with binding := none } else v) }

/-- Take a grant back from a child, through its subtree. -/
def revokeGrant (s : State) (child : Nat) (g : Grant) : MRes Unit :=
  let s := s.updCtx child (fun x => { x with grants := x.grants.filter (fun h => h.id != g.id) })
  match g.kind with
  | .range => removeRanges s (fun e => e.lineage.contains (child, g.id))
  | .queue q => .ok () ((s.dropGrants child (madeFrom g.kind)).unbindQueues child (· == q))
  | _ => .ok () (s.dropGrants child (madeFrom g.kind))

def ctxRevoke (c : Caller) (idv gid : W64) (s : State) : CtxOut :=
  if badId idv then .trap (raise .engineArg)
  else if !mayCreate s c.ctx then .trap (raise .denied)
  else
    let id := idv.toNat
    match (if isChild s c.ctx id then s.ctx? id else none) with
    | none => .status s stNotChild
    | some x =>
      match x.grants.find? (fun g => g.id == gid.toNat) with
      | none => .status s stNoGrant
      | some g =>
        match revokeGrant s id g with
        | .ok _ s' => .status (s'.retryIn id) stDone
        | .hold _ => .hold ((revokeHold s (s.subtree id)).getD s)
        | .fault e => .trap (e.raise 0)

/-! ### `CTXBUDG`, `CTXQ` (R378, R379, R396) -/

def budgetOk (d : List W64) : Bool :=
  onlyBits (d.getD 0 0) (bitsOf 63 32 + 0x1FFFF) && onlyBits (d.getD 1 0) (bitsOf 31 0)
    && onlyBits (d.getD 3 0) 0xFF

def readBudgets (d : List W64) : Budgets :=
  let w (i : Nat) : W64 := d.getD i 0
  { weight := fld (w 0) 15 0, overrun := bitAt (w 0) 16, quantum := fld (w 0) 63 32, frames := (w 1).toNat,
    poolbw := fld (w 2) 31 0, gwbw := fld (w 2) 63 32, faultsh := (w 3).toNat }

def budgetWords (b : Budgets) : List W64 :=
  [w64 (b.weight + b2n b.overrun * 2 ^ 16 + b.quantum * 2 ^ 32), w64 b.frames,
   w64 (b.poolbw + b.gwbw * 2 ^ 32), w64 b.faultsh]

/-- The budgets in force; FRAMES of context 0 follows the frame roles (R392). -/
def inForce (s : State) (c : Nat) (x : Context) : Budgets :=
  if c = 0 then { x.budgets with frames := s.frameBudget 0 } else x.budgets

/-- The budgets that will govern from the next boundary (R378). -/
def governing (s : State) (c : Nat) (x : Context) : Budgets := x.pending.getD (inForce s c x)

/-- Every budget of a list of children fits the caller's. -/
def budgetsFit (own : Budgets) (kids : List Budgets) : Bool :=
  let sum (f : Budgets → Nat) : Nat := kids.foldl (fun n b => n + f b) 0
  decide (sum (·.weight) ≤ own.weight) && decide (sum (·.frames) ≤ own.frames)
    && decide (sum (·.poolbw) ≤ own.poolbw) && decide (sum (·.gwbw) ≤ own.gwbw)
    && decide (sum (·.faultsh) ≤ own.faultsh)

def ctxBudg (c : Caller) (idv : W64) (va : Nat) (s : State) : CtxOut :=
  if badId idv then .trap (raise .engineArg)
  else withDescriptor c va 4 budgetOk s (fun d s =>
    let id := idv.toNat
    let b := readBudgets d
    match (if isChild s c.ctx id then s.ctx? c.ctx else none) with
    | none => .status s stNotChild
    | some x =>
      let own := governing s c.ctx x
      let kids := b :: ((s.liveChildren c.ctx).filter (fun (i, _) => i != id)).map
        (fun (i, y) => governing s i y)
      if b.quantum = 0 then .status s stBadQuantum
      else if !b.overrun && decide (b.quantum < Config.savemax.toNat) then .status s stShortQuantum
      -- the child's own remainder stays at zero or above too (R396)
      else if own.quantum < b.quantum || !budgetsFit own kids
          || !budgetsFit b ((s.liveChildren id).map (fun (i, y) => governing s i y)) then .status s stOversub
      else .status (s.updCtx id (fun y => { y with pending := some b })) stDone)

def Queue.zero : Queue := { binding := none, head := 0, tail := 0, accepted := 0, recs := [] }

def State.queue (s : State) (q : Nat) : Queue := mgetD s.queues q .zero

/-- The caller, or a live descendant. -/
def reachesCtx (s : State) (caller id : Nat) : Bool :=
  (s.ctx? id).any (fun x => x.state == .live) && s.descends caller id

/-- Who may bind or unbind a queue to a target (R379). -/
def mayBind (s : State) (caller q target : Nat) : Bool :=
  holdsQueue s caller q &&
    (match queueGrantee s caller q with
     | none => true
     | some g => s.descends g target)

def ctxQ (c : Caller) (idv qw : W64) (s : State) : CtxOut :=
  if badId idv || !onlyBits qw (bitsOf 32 0) then .trap (raise .engineArg)
  else
    let id := idv.toNat
    let q := fld qw 9 0
    let pasid := fld qw 29 10
    let cls := fld qw 31 30
    match (if reachesCtx s c.ctx id then s.ctx? id else none) with
    | none => .trap (raise .denied)
    | some x =>
      if !mayBind s c.ctx q id then .status s stNotOwned
      else if bitAt qw 32 then
        .status { s with queues := mput s.queues q { s.queue q with binding := none } } stDone
      else if s.queues.any (fun (n, v) => n != q && v.binding.any (fun b => b.pasid == pasid)) then
        .status s stInUse
      else if cls < x.policy.maxClass then .status s stPolicy
      else
        let b : QBind := { ctx := id, pasid := pasid, cls := cls }
        .status { s with queues := mput s.queues q { s.queue q with binding := some b } } stDone

/-! ### `CTXINFO` (R261, R380) -/

/-- A range entry as it is read. -/
def rangeWords (e : RangeEnt) : List W64 :=
  [w64 (e.cbase + b2n e.x * 8 + b2n e.w * 4 + b2n e.r * 2 + 1), w64 e.dbase, w64 e.len, 0]

def CtxState.code : CtxState → Nat
  | .live => 1 | .dying => 2 | .scrubbing => 3

/-- The use of the current period (R380, R397): of WEIGHT, the issue decisions and lane passes on every
quadrant together; a count that its field cannot hold reads as the largest value; the cycles of QUANTUM
are time, and free (notes/assumptions/14.md, 151.md). -/
def usedWords (s : State) (c : Nat) : List W64 :=
  let weight := ((s.ctx? c).map (fun x => x.usedW.foldl (fun n (_, k) => n + k) 0)).getD 0
  budgetWords
    { weight := Nat.min weight (2 ^ 16 - 1), overrun := false,
      quantum := Config.freeNat (s.freeCtr + 1) % 2 ^ 32, frames := heldFrames s c,
      poolbw := Nat.min (s.useOf c).pool (2 ^ 32 - 1), gwbw := Nat.min (s.useOf c).gw (2 ^ 32 - 1),
      faultsh := 0 }

/-- The four dwords of an item; none for an item that does not exist. -/
def infoWords (s : State) (id : Nat) (x : Context) (item : Nat) : Option (List W64) :=
  match item with
  | 0 =>
    some [w64 (x.parent + x.depth * 2 ^ 12 + x.state.code * 2 ^ 16 + (s.liveChildren id).length * 2 ^ 18),
          policyWord x.policy, w64 x.root, w64 x.ranges.length]
  | 1 => some (budgetWords (inForce s id x))
  | 2 => some (usedWords s id)
  | 3 => some [w64 (x.scrubAll - x.scrubLeft.length), w64 x.scrubAll, 0, 0]
  | 4 => some (budgetWords (governing s id x))
  | n =>
    if 0x100 ≤ n && n < 0x130 then
      some ((x.ranges[n - 0x100]?.map rangeWords).getD [0, 0, 0, 0])
    else none

/-- An item that exists. -/
def infoItem (item : Nat) : Bool := decide (item ≤ 4) || (decide (0x100 ≤ item) && decide (item < 0x130))

def ctxInfo (c : Caller) (idv item : W64) (va : Nat) (s : State) : CtxOut :=
  if badId idv || !infoItem item.toNat then .trap (raise .engineArg)
  else
    let id := idv.toNat
    match (if s.descends c.ctx id then s.ctx? id else none) with
    | none => .trap (raise .denied)
    | some x =>
      if va % 32 ≠ 0 then .trap { raise .misaligned with va := w64 va }
      else
        let ws := (infoWords s id x item.toNat).getD []
        (c.wrs va ws s).ctx va (fun _ s =>
          .done { s with freeCtr := s.freeCtr + 4 } stDone (ws.headD 0))

/-! ### `CTXKILL` (R381, R406, R407) -/

/-- Stop the fields of a list of contexts; their slots take the state, and nothing of their launches
goes on. -/
def State.stopFields (s : State) (cs : List Nat) : State :=
  let s := (s.fields.filter (fun (_, f) => cs.contains f.ctx)).foldl (fun s (i, f) =>
    let g := f.leave .faulted
    let s := match mget s.launches f.launch with
      | none => s
      | some l =>
        if f.status == FStatus.faulted then s
        else match s.storeSlot (f.core / 48) f.ctx (slotVa l.lrec g) l.lrec g with
          | .ok s => s
          | .error _ => s
    { s with fields := mdel s.fields i }) s
  let idle := (s.claims.filter (fun (_, v) => cs.contains v.ctx)).map (fun (core, _) => Requester.agent core)
  { s with
    launches := s.launches.filter (fun (_, l) => !cs.contains l.ctx),
    claims := s.claims.filter (fun (_, v) => !cs.contains v.ctx),
    queues := mmap s.queues (fun _ (q : Queue) =>
      let left := q.recs.filter (fun r => !cs.contains r.ctx)
      { q with recs := left, head := q.head + w32 (q.recs.length - left.length) }),
    pagers := mmap s.pagers (fun _ (p : Pager) => { p with recs := p.recs.map (fun r =>
      { r with reqs := r.reqs.filter (fun q => !idle.contains q) }) }),
    exportWaits := s.exportWaits.map (fun (x : ExportWait) =>
      if cs.contains x.pctx then { x with service := false, refused := true } else x),
    agenda := s.agenda ++ (s.exportWaits.filter (fun x => cs.contains x.pctx)).map (fun x => .exportRetry x.uid),
    s2waits := s.s2waits.filter (fun v => !cs.contains v.ctx && !cs.contains v.owner),
    ringWaits := s.ringWaits.filter (fun v => !cs.contains v.ctx),
    slotWaits := s.slotWaits.filter (fun v => !cs.contains v.ctx) }

/-- The quadrants and banks that a context held exclusively, as scrub units (R406). -/
def scrubUnits (gs : List Grant) : List (Nat × Nat) :=
  gs.flatMap (fun g =>
    match g.kind with
    | .quad core m excl =>
      if excl then ((List.range 4).filter (fun q => Nat.testBit m q)).map (fun q => (1, 4 * core + q)) else []
    | .banks core m => ((List.range 64).filter (fun b => m.getLsbD b)).map (fun b => (2, 64 * core + b))
    | _ => [])

/-- The units marked for a list of key slots. -/
def markedUnits (s : State) (slots : List Nat) : List Nat :=
  (s.keyMap.filter (fun (_, k) => slots.contains k)).map (·.1)

/-- Steps 1 and 2 of the scrub of a key domain: the lines and the frames of its units go without
write-back (R406). -/
def State.scrubMarked (s : State) (units : List Nat) : State :=
  units.foldl (fun s u =>
    let s := s.dropUnit u
    match cacheFrame s u with
    | some f => ({ s with mem := s.mem.zero (frameDpa f) 65536 }).freeFrame f
    | none => s) s

/-- Every binding of a context is removed. -/
def State.dropBindings (s : State) (c : Nat) : State :=
  (((s.ctx? c).map (·.bindings)).getD []).foldl (fun s b => s.dropRef b.region b.name)
    (s.updCtx c (fun x => { x with bindings := [] }))

/-- The copies in progress of a list of contexts drop their references. -/
def State.dropCopies (s : State) (cs : List Nat) : State :=
  (s.fields.filter (fun (_, f) => cs.contains f.ctx)).foldl (fun s (i, f) =>
    f.sws.foldl (fun s (sw, w) =>
      (w.eng.chains.filter (fun c => !c.done)).foldl (fun s c => s.dropCopyRef i sw c.uid) s) s) s

/-- The subtree of `child` has been stopped and has lost its grants: what is left to scrub. -/
def State.beginScrub (s : State) (child : Nat) (cs : List Nat) : State :=
  let xs := s.ctxs.filter (fun (i, _) => cs.contains i)
  let slots := (xs.filter (fun (_, x) => x.policy.prot)).filterMap (fun (_, x) => x.key)
  let marked := markedUnits s slots
  let done := (marked.filter (fun u => (cacheFrame s u).isSome)).length
  let locals := (s.frames.filter (fun (_, e) => e.role == .local_ && e.st != .free && cs.contains e.charge)).map
    (fun (f, _) => (5, f))
  let units := locals ++ (xs.flatMap (fun (_, x) => scrubUnits x.grants)).eraseDups
  let s := s.scrubMarked marked
  let s := { s with
    keys := s.keys.filter (fun (k, _) => !slots.contains k),
    heath := { s.heath with scrubMark := true },
    ctxs := mmap s.ctxs (fun i (x : Context) =>
      if cs.contains i then { x with state := .scrubbing, grants := [], wins := [], vf := none } else x),
    masked := (s.masked ++ xs.filterMap (fun (i : Nat × Context) => i.2.vf)).eraseDups }
  s.updCtx child (fun x => { x with scrubLeft := units, scrubAll := done + units.length, scrubHeld := units })

/-- Destroy a subtree: its fields stop, its grants are revoked, its queues are unbound and its bindings
removed, its vectors are masked, its key slots zeroised, and the scrub begins (R381, R402, R406). -/
def killSubtree (s : State) (child : Nat) : MRes Unit :=
  let cs := s.subtree child
  if let some s' := revokeHold s cs then .hold s'
  else
    let s := (s.dropCopies cs).stopFields cs
    (removeFrom s cs (fun _ => true)).bind fun _ s =>
      let s := s.unbindQueues child (fun _ => true)
      let s := cs.foldl (fun s c => s.dropBindings c) s
      .ok () (s.beginScrub child cs)

def ctxKill (c : Caller) (idv : W64) (s : State) : CtxOut :=
  if badId idv then .trap (raise .engineArg)
  else if !mayCreate s c.ctx then .trap (raise .denied)
  else if !isChild s c.ctx idv.toNat then .status s stNotChild
  else (killSubtree s idv.toNat).ctx 0 (fun _ s => .status s stDone)

/-- The root of a killed subtree: its scrub runs while its parent does not scrub. -/
def scrubRoot (s : State) (c : Nat) : Bool :=
  (s.ctx? c).any (fun x => x.state == .scrubbing && (s.ctx? x.parent).any (fun p => p.state != .scrubbing))

/-- Teasel scrubs the next unit of a killed subtree: a LOCAL frame, a bank or a quadrant. -/
def execContextScrubUnit (ctx : Nat) (s : State) : Result :=
  match s.ctx? ctx with
  | some x =>
    match x.scrubLeft with
    | [] => .next s
    | (cls, i) :: rest =>
      let s := if cls = 5 then s.scrubLocal i else s
      .next (s.updCtx ctx (fun x => { x with scrubLeft := rest }))
  | none => .next s

/-- The last unit is scrubbed: IDs and key slots are free, and the marks go. -/
def execContextScrubComplete (ctx : Nat) (s : State) : Result :=
  match s.ctx? ctx with
  | some x =>
    if scrubRoot s ctx && x.scrubLeft.isEmpty then
      let cs := s.subtree ctx
      let slots := (s.ctxs.filter (fun (i, y) => cs.contains i && y.policy.prot)).filterMap (fun (_, y) => y.key)
      let ctxs := s.ctxs.filter (fun (i, _) => !cs.contains i)
      .next { s with
        ctxs := ctxs,
        keyMap := s.keyMap.filter (fun (_, k) => !slots.contains k),
        heath := { s.heath with scrubMark := ctxs.any (fun (_, y) => y.state == .scrubbing) } }
    else .next s
  | none => .next s

/-! ### `RFLT` (R269, R293, R382, R387) -/

/-- End the wait of a requester with the terminal fault of the record, reflected (R387). -/
def State.deliver (s : State) (w : S2Wait) (words : List W64) : State :=
  let push (s : State) (fid : Nat) : State :=
    match s.field? fid with
    | none => s
    | some f =>
      if f.status == FStatus.faulted then s
      else State.ringPush (f.core / 48) false none 8 (s.faultField fid) w.ctx (reflectWords words)
  match w.req with
  | .swath fid sw =>
    push (s.updSwathAt fid sw (fun w => { w with ctl := { w.ctl with parked := none } })) fid
  | .chain fid sw uid =>
    push ((s.dropCopyRef fid sw uid).updSwathAt fid sw (fun w => w.dropChain uid)) fid
  | .xfer fid sw uid => push (s.updSwathAt fid sw (fun w => w.dropXfer uid)) fid
  | q => s.endRequester Cause.walkStage2.code q

/-- The FAULTED slot of a field becomes ENDED, and the field counts as finished (R293). -/
def State.releaseSlot (s : State) (fid : Nat) : State :=
  match s.field? fid with
  | none => s
  | some f =>
    (s.slotPut f 0 FStatus.ended.code).endField fid

/-- The reserved bits of a ring record are 0 (R287, R371). -/
def recordOk (d : List W64) : Bool :=
  onlyBits (d.getD 0 0) (bitsOf 30 0 + bitsOf 51 32) && onlyBits (d.getD 3 0) (bitsOf 48 0)
    && onlyBits (d.getD 5 0) (bitsOf 31 0)

/-- `RFLT`: what a record says of its park or wait is matched by CTX and SEQ (R269, R382). -/
def rflt (c : Caller) (va : Nat) (action : W64) (s : State) : CtxOut :=
  if 3 < action.toNat then .trap (raise .engineArg)
  else if va % 64 ≠ 0 then .trap { raise .misaligned with va := w64 va }
  else (c.rds va 8 s).ctx va (fun ws s =>
    let w0 := ws.getD 0 0
    let ctx := fld w0 43 32
    let seq := w32 (fld (ws.getD 7 0) 31 0)
    if !recordOk ws then .trap (raise .engineArg)
    else if (s.ctx? ctx).isNone || !s.descends c.ctx ctx then .trap (raise .denied)
    else
      let hit (w : S2Wait) : Bool :=
        w.owner == c.ctx && w.ctx == ctx && w.seq == seq
      match action.toNat with
      | 0 =>
        if c.ctx = 0 then .status s stNoParent
        else
          let up := ((s.ctx? c.ctx).map (·.parent)).getD 0
          .status (State.ringPush 0 false none 8 s up (reflectWords ws)) stDone
      | 3 =>
        let w3 := ws.getD 3 0
        match s.fields.find? (fun (_, f) =>
            f.status == .faulted && f.ctx == ctx && f.num == fld w3 23 0 && f.mx == fld w3 28 24
              && f.my == fld w3 33 29
              && (mget s.launches f.launch).any (fun l => l.ltag.toNat == fld (ws.getD 4 0) 31 0)) with
        | none => .status s stNoMatch
        | some (fid, _) => .status (s.releaseSlot fid) stDone
      | k =>
        match s.s2waits.find? hit with
        | none => .status s stNoMatch
        | some w =>
          let s := { s with s2waits := s.s2waits.filter (fun v => !hit v) }
          .status (if k = 1 then s.wake w.req else s.deliver w ws) stDone)

/-! ### The instructions -/

/-- A context form: a result pair. -/
def SForm.ctx (st : BitVec 2) (d : BitVec 5) (srcs : List (BitVec 6)) (ends : Bool) : SForm :=
  { SForm.var st [d ++ 0#1, d ++ 1#1] srcs with ends := ends, onPager := false }

/-- Execute a form in a swath; fields that it has displaced leave once it has completed. -/
def contextForm (st : BitVec 2) (d : BitVec 5) (srcs : List (BitVec 6)) (ends : Bool)
    (act : Caller → Swath → State → CtxOut) (s : State) : Result :=
  match scalarIssue (SForm.ctx st d srcs ends)
    (fun F w s =>
      match act (swathCaller F) w s with
      | .trap r => .trap r
      | .hold s => .hold s
      | .done s k v => .done s [(2 * d.toNat, w64 k), (2 * d.toNat + 1, v)] none) s with
  | .next s => .next s.evictDisplaced
  | .fault f => .fault f
  | .refused r => .refused r

def execCtxnew (d : BitVec 5) (a : BitVec 6) (st : BitVec 2) (s : State) : Result :=
  contextForm st d [a] true (fun c w s => ctxNew c (w.xr a).toNat s) s

def execCtxgrant (d : BitVec 5) (a b : BitVec 6) (st : BitVec 2) (s : State) : Result :=
  contextForm st d [a, b] true (fun c w s => ctxGrant c (w.xr a) (w.xr b).toNat s) s

def execCtxrevoke (d : BitVec 5) (a b : BitVec 6) (st : BitVec 2) (s : State) : Result :=
  contextForm st d [a, b] true (fun c w s => ctxRevoke c (w.xr a) (w.xr b) s) s

def execCtxbudg (d : BitVec 5) (a b : BitVec 6) (st : BitVec 2) (s : State) : Result :=
  contextForm st d [a, b] true (fun c w s => ctxBudg c (w.xr a) (w.xr b).toNat s) s

def execCtxq (d : BitVec 5) (a b : BitVec 6) (st : BitVec 2) (s : State) : Result :=
  contextForm st d [a, b] true (fun c w s => ctxQ c (w.xr a) (w.xr b) s) s

def execCtxinfo (d a : BitVec 5) (b : BitVec 6) (st : BitVec 2) (s : State) : Result :=
  contextForm st d (b :: pairRegs a) false
    (fun c w s => ctxInfo c (w.xpair a).1 (w.xpair a).2 (w.xr b).toNat s) s

def execCtxkill (d : BitVec 5) (a : BitVec 6) (st : BitVec 2) (s : State) : Result :=
  contextForm st d [a] true (fun c w s => ctxKill c (w.xr a) s) s

def execRflt (d : BitVec 5) (a b : BitVec 6) (st : BitVec 2) (s : State) : Result :=
  contextForm st d [a, b] true (fun c w s => rflt c (w.xr a).toNat (w.xr b) s) s

end Sys2Proof.Machine
end

