-- ==== Sys2Proof/WellFormed.lean ====
section
/-! DEFINITION. Well-formed instructions: the conditions of R38 that are decided at decode, whatever
the state. A condition that needs the state (a register at or beyond the declared count, a tile, a
barrier number, a value written to `sr.fmt`) is judged by the instruction's meaning. -/

namespace Sys2Proof

/-- Why a word is not an instruction (R38). Every one raises `ILLEGAL`. -/
inductive DecodeError
  /-- A cell of the opcode map marked ILLEGAL (R35, R37). -/
  | illegalCell
  /-- An fn value that is not assigned (R18, R36). -/
  | reservedFn
  /-- A nonzero field that the instruction does not use (R18, R38). -/
  | unusedField
  /-- A scope that is reserved or not accepted (R34). -/
  | reservedScope
  /-- A width code that is reserved or not accepted (R24, R98). -/
  | reservedWidth
  /-- An operand kind that is reserved or not accepted, or two immediates (R23, R24). -/
  | reservedKind
  /-- A sub value that is reserved (R23). -/
  | reservedSub
  /-- A type code that is reserved or not accepted (R22). -/
  | reservedType
  /-- An odd first register of a pair, or a group not starting at a multiple of 4 (R38). -/
  | unalignedRegister
  /-- A system register that the access does not reach (R31). -/
  | systemRegister
  /-- A guard on a form that ignores it (R73). -/
  | guarded
  /-- A format code, slot, count or table value outside what the form accepts (R83, R96). -/
  | reservedValue
  deriving DecidableEq, Repr

/-- The first check that fails names the error. -/
def firstError : List (Bool × DecodeError) → Option DecodeError
  | [] => none
  | (ok, e) :: rest => if ok then firstError rest else some e

/-- A 64-bit type makes every register operand a pair (R76). -/
def LTy.wide : LTy → Bool
  | .n64 | .s64 => true
  | _ => false

/-- Signed integer types (R22). -/
def LTy.signed : LTy → Bool
  | .s32 | .s64 | .s16x2 | .s8x4 => true
  | _ => false

/-- Packed floating-point types (R81). -/
def LTy.packedFp : LTy → Bool
  | .bf16x2 | .f16x2 => true
  | _ => false

/-- A lane register number is a multiple of `n` (R38). -/
def regAligned (n : Nat) (r : BitVec 8) : Bool := r.toNat % n == 0

/-- The first register of a value of type `ty` is even when the value is a pair (R38). -/
def LTy.regOk (ty : LTy) (r : BitVec 8) : Bool := !ty.wide || regAligned 2 r

/-- A register operand of a 64-bit type names a pair (R38). -/
def Opnd.regOk (ty : LTy) : Opnd → Bool
  | .reg r => ty.regOk r
  | _ => true

/-- The operand is the immediate. -/
def Opnd.isImm : Opnd → Bool
  | .imm _ => true
  | _ => false

/-- The operand is a lane register. -/
def Opnd.isReg : Opnd → Bool
  | .reg _ => true
  | _ => false

/-- At most one of two operands is the immediate (R23). -/
def oneImm (b c : Opnd) : Bool := !(b.isImm && c.isImm)

/-- A base pair starts at an even register (R24). -/
def LBase.ok : LBase → Bool
  | .pair r => regAligned 2 r
  | .uni _ => true

def tyInt4 : List LTy := [.n32, .s32, .n64, .s64]
def tyInt2 : List LTy := [.n32, .s32]
def tyBits : List LTy := [.n32, .n64]
def tyS2 : List LTy := [.s32, .s64]
def tyPacked : List LTy := [.f16x2, .bf16x2, .n16x2, .s16x2, .n8x4, .s8x4]
def tyPackedFp : List LTy := [.f16x2, .bf16x2]
def tyHalf : List LTy := [.f16x2, .bf16x2, .n16x2, .s16x2]
def tyByte : List LTy := [.n8x4, .s8x4]
def tyConv : List LTy := [.n32, .s32, .n64, .s64, .f32]

/-- sub is 0. -/
def subZero (_ : LTy) (s : BitVec 4) : Bool := s == 0
/-- sub is 0 (wrap) or 1 (saturate) (R76). -/
def subSat (_ : LTy) (s : BitVec 4) : Bool := s.toNat ≤ 1
/-- sub is a rounding override, 0 to 5 (R23). -/
def subRound (_ : LTy) (s : BitVec 4) : Bool := s.toNat ≤ 5
/-- sub is a rounding override for floating-point types, wrap or saturate for integers (R81). -/
def subPacked (ty : LTy) (s : BitVec 4) : Bool := if ty.packedFp then subRound ty s else subSat ty s
/-- sub is an operation of `LRED`; with f32 only add, min and max (R87). -/
def subReduce (ty : LTy) (s : BitVec 4) : Bool := if ty = .f32 then s.toNat ≤ 2 else s.toNat ≤ 5
/-- sub is an operation of `SCAN`, bit 3 exclusive (R89). -/
def subScan (_ : LTy) (s : BitVec 4) : Bool := (s.extractLsb' 0 3).toNat ≤ 5

def LBin.err (tys : List LTy) (sub : LTy → BitVec 4 → Bool) (o : LBin) : Option DecodeError :=
  firstError [(tys.contains o.ty, .reservedType), (sub o.ty o.sub, .reservedSub),
    (o.ty.regOk o.vd && o.ty.regOk o.va && o.b.regOk o.ty, .unalignedRegister)]

def LTern.err (tys : List LTy) (sub : LTy → BitVec 4 → Bool) (o : LTern) : Option DecodeError :=
  firstError [(tys.contains o.ty, .reservedType), (sub o.ty o.sub, .reservedSub),
    (oneImm o.b o.c, .reservedKind),
    (o.ty.regOk o.vd && o.ty.regOk o.va && o.b.regOk o.ty && o.c.regOk o.ty, .unalignedRegister)]

/-- `single` says that vd is a single register whatever the type (R76). -/
def LUn.err (tys : List LTy) (sub : LTy → BitVec 4 → Bool) (single : Bool) (o : LUn) :
    Option DecodeError :=
  firstError [(tys.contains o.ty, .reservedType), (sub o.ty o.sub, .reservedSub),
    ((single || o.ty.regOk o.vd) && o.ty.regOk o.va, .unalignedRegister)]

def LSetp.err (tys : List LTy) (ncc : Nat) (o : LSetp) : Option DecodeError :=
  firstError [(tys.contains o.ty, .reservedType), (o.cc.toNat < ncc, .reservedSub),
    (o.ty.regOk o.va && o.b.regOk o.ty, .unalignedRegister)]

def LCvt.err (o : LCvt) : Option DecodeError :=
  firstError [(tyConv.contains o.dst && tyConv.contains o.src, .reservedType),
    (subRound o.dst o.sub, .reservedSub),
    (o.dst.regOk o.vd && o.src.regOk o.va, .unalignedRegister)]

/-- The number of slots a narrow format has in a register; 0 for a format that `CVTN` and `CVTW` do
not take (R83). -/
def narrowSlots (fmt : BitVec 4) : Nat :=
  match fmt.toNat with
  | 1 | 2 => 2
  | 3 | 4 | 5 | 6 | 9 => 4
  | 7 | 10 => 8
  | 11 => 16
  | _ => 0

def LNarrow.err (sub : LTy → BitVec 4 → Bool) (o : LNarrow) : Option DecodeError :=
  firstError [(o.ty = .f32 || (o.ty = .s32 && decide (9 ≤ o.fmt.toNat)), .reservedType),
    (sub o.ty o.sub, .reservedSub), (o.slot.toNat < narrowSlots o.fmt, .reservedValue)]

def LMov.err (o : LMov) : Option DecodeError :=
  firstError [(tyBits.contains o.ty, .reservedType),
    (o.ty.regOk o.vd && o.b.regOk o.ty, .unalignedRegister)]

def LSel.err (o : LSel) : Option DecodeError :=
  firstError [(tyBits.contains o.ty, .reservedType), (oneImm o.b o.c, .reservedKind),
    (o.ty.regOk o.vd && o.b.regOk o.ty && o.c.regOk o.ty, .unalignedRegister)]

def LXlane.err (o : LXlane) : Option DecodeError := firstError [(oneImm o.b o.c, .reservedKind)]

def LRedOp.err (o : LRedOp) : Option DecodeError :=
  firstError [(tyConv.contains o.ty, .reservedType), (subReduce o.ty o.op, .reservedSub),
    (o.ty.regOk o.va, .unalignedRegister)]

def LVote.err (o : LVote) : Option DecodeError :=
  firstError [(o.op.toNat ≤ 3, .reservedSub), (o.op == 3 || o.g == 0, .unusedField)]

def LSysRead.err (o : LSysRead) : Option DecodeError :=
  firstError [(tyBits.contains o.ty, .reservedType), (o.ty.regOk o.vd, .unalignedRegister),
    ([0, 1, 6, 7].contains o.sr.toNat, .systemRegister)]

/-- The registers that a datum of width code `sz` occupies (R24). -/
def memRegs (sz : BitVec 3) : Nat :=
  match sz.toNat with
  | 5 => 2
  | 6 => 4
  | _ => 1

def MemOp.err (m : MemOp) : Option DecodeError := firstError [(m.base.ok, .unalignedRegister)]

def LMem.err (store : Bool) (o : LMem) : Option DecodeError :=
  firstError [(o.sz.toNat ≤ 6 && !(store && (o.sz == 1 || o.sz == 3)), .reservedWidth),
    (regAligned (memRegs o.sz) o.reg && o.m.base.ok, .unalignedRegister)]

/-- `vdUsed`, `vaUsed` say which registers the form has; `casForm` that va holds two values (R199). -/
def LAtom.err (tys : List LTy) (vdUsed vaUsed casForm : Bool) (o : LAtom) : Option DecodeError :=
  firstError [(tys.contains o.ty, .reservedType), (o.scope.toNat ≤ 6, .reservedScope),
    ((vdUsed || o.vd == 0) && (vaUsed || o.va == 0), .unusedField),
    (o.ty.regOk o.vd && o.ty.regOk o.va && o.m.base.ok, .unalignedRegister),
    (!casForm || regAligned (if o.ty.wide then 4 else 2) o.va, .unalignedRegister)]

def LAcc.err (sub : LTy → BitVec 4 → Bool) (o : LAcc) : Option DecodeError :=
  firstError [(sub .none o.sub, .reservedSub), (!o.e.isImm, .reservedKind)]

/-- A form that ignores the guard has none (R73). -/
def LHdr.unguarded (h : LHdr) : Option DecodeError :=
  firstError [(h.guard == 0 && !h.neg, .guarded)]

/-- A scope an instruction accepts when it takes any (R34). -/
def scopeErr (p : BitVec 3) : Option DecodeError := firstError [(p.toNat ≤ 6, .reservedScope)]

/-- A scope that must be `device` or `system` (R214, R215). -/
def sigScopeErr (p : BitVec 3) : Option DecodeError :=
  firstError [(p == 5 || p == 6, .reservedScope)]

/-- The system registers a scalar stream reads (R31, R237). -/
def srReadable (r : BitVec 10) : Bool :=
  [0x000, 0x001, 0x002, 0x003, 0x004, 0x005, 0x007, 0x008, 0x010, 0x011, 0x012, 0x013].contains r.toNat

/-- The system registers a scalar stream writes (R31, R237). -/
def srWritable (r : BitVec 10) : Bool := [0x000, 0x001, 0x003, 0x004, 0x011].contains r.toNat

/-- The first decode-time condition of R38 that the instruction meets, if it meets one. -/
def Instr.err : Instr → Option DecodeError
  | .add _ _ _ _ => none
  | .sub _ _ _ _ => none
  | .mul _ _ _ _ => none
  | .mulh _ _ _ _ => none
  | .mulhu _ _ _ _ => none
  | .div _ _ _ _ => none
  | .divu _ _ _ _ => none
  | .rem _ _ _ _ => none
  | .remu _ _ _ _ => none
  | .and _ _ _ _ => none
  | .or _ _ _ _ => none
  | .xor _ _ _ _ => none
  | .shl _ _ _ _ => none
  | .shr _ _ _ _ => none
  | .sar _ _ _ _ => none
  | .min _ _ _ _ => none
  | .minu _ _ _ _ => none
  | .max _ _ _ _ => none
  | .maxu _ _ _ _ => none
  | .cmp _ _ _ c _ => firstError [(c.toNat ≤ 5, .reservedFn)]
  | .sel _ _ _ _ _ => none
  | .clz _ _ _ => none
  | .ctz _ _ _ => none
  | .popc _ _ _ => none
  | .addi _ _ _ _ => none
  | .andi _ _ _ _ => none
  | .ori _ _ _ _ => none
  | .xori _ _ _ _ => none
  | .shli _ _ _ _ => none
  | .shri _ _ _ _ => none
  | .sari _ _ _ _ => none
  | .slti _ _ _ _ => none
  | .sltiu _ _ _ _ => none
  | .muli _ _ _ _ => none
  | .movpc _ _ _ => none
  | .ldb _ _ _ _ => none
  | .ldbu _ _ _ _ => none
  | .ldh _ _ _ _ => none
  | .ldhu _ _ _ _ => none
  | .ldw _ _ _ _ => none
  | .ldwu _ _ _ _ => none
  | .ldd _ _ _ _ => none
  | .stb _ _ _ _ => none
  | .sth _ _ _ _ => none
  | .stw _ _ _ _ => none
  | .std _ _ _ _ => none
  | .lds _ _ _ _ => none
  | .sts _ _ _ _ => none
  | .ldc _ _ _ _ => none
  | .beq _ _ _ _ => none
  | .bne _ _ _ _ => none
  | .blt _ _ _ _ => none
  | .bge _ _ _ _ => none
  | .bltu _ _ _ _ => none
  | .bgeu _ _ _ _ => none
  | .jal _ _ _ => none
  | .jalr _ _ _ _ => none
  | .lrun _ _ _ => none
  | .lgo _ => none
  | .lwait _ _ _ _ => none
  | .movxw _ _ _ => none
  | .movwx _ _ _ => none
  | .setfmt _ _ _ => none
  | .bara _ _ _ => none
  | .barw _ _ => none
  | .bars _ _ _ => none
  | .waitm _ _ _ _ _ _ => none
  | .yield _ => none
  | .exit _ => none
  | .mloadFp _ _ => none
  | .mloadTern _ _ => none
  | .mflipFp _ => none
  | .mflipTern _ => none
  | .mmul _ _ _ => none
  | .mtern t _ _ => firstError [(t.toNat % 2 == 0, .reservedValue)]
  | .mzero _ _ => none
  | .mdrain _ _ _ => none
  | .mfence _ _ => none
  | .mwait _ _ => none
  | .mgrow _ _ _ _ => none
  | .cpgo _ _ => none
  | .waitc _ _ _ => none
  | .pbinit _ _ _ => none
  | .pbarv _ _ _ _ => none
  | .pbwait _ _ _ _ => none
  | .atomAdd _ _ _ _ p _ => scopeErr p
  | .atomXchg _ _ _ _ p _ => scopeErr p
  | .atomMin _ _ _ _ p _ => scopeErr p
  | .atomMax _ _ _ _ p _ => scopeErr p
  | .atomUmin _ _ _ _ p _ => scopeErr p
  | .atomUmax _ _ _ _ p _ => scopeErr p
  | .atomAnd _ _ _ _ p _ => scopeErr p
  | .atomOr _ _ _ _ p _ => scopeErr p
  | .atomXor _ _ _ _ p _ => scopeErr p
  | .atomCas _ _ _ _ p _ => scopeErr p
  | .ldacq _ _ _ p _ => scopeErr p
  | .strel _ _ _ p _ => scopeErr p
  | .fenceFull p _ => scopeErr p
  | .fenceAcq p _ => scopeErr p
  | .fenceRel p _ => scopeErr p
  | .cwb p _ _ _ => scopeErr p
  | .cinv p _ _ _ => scopeErr p
  | .cwbi p _ _ _ => scopeErr p
  | .pfh _ _ _ _ => none
  | .wpost _ _ _ => none
  | .wget _ _ _ => none
  | .wcntw _ _ _ _ => none
  | .sigrel p _ _ _ => sigScopeErr p
  | .sigacq _ _ p _ => sigScopeErr p
  | .mfsr _ r _ => firstError [(srReadable r, .systemRegister)]
  | .mtsr _ r _ => firstError [(srWritable r, .systemRegister)]
  | .trap _ _ => none
  | .tret _ => none
  | .trun _ _ _ => none
  | .rgn _ => none
  | .mapft _ _ _ => none
  | .park _ => none
  | .parkTerm _ => none
  | .tlbiR _ _ _ _ => none
  | .tlbiCtx _ _ => none
  | .brkpt _ _ => none
  | .pgfill _ _ _ => none
  | .pgevict _ _ _ => none
  | .pgmove _ _ _ _ => none
  | .pgupg _ _ _ => none
  | .leaseopRenew _ _ _ _ => none
  | .leaseopQuery _ _ _ _ => none
  | .leaseopRelease _ _ _ _ => none
  | .leaseopAckwarn _ _ _ _ => none
  | .cins _ _ _ _ => none
  | .cnode _ _ _ _ => none
  | .cref _ _ _ _ => none
  | .cunref _ _ _ _ => none
  | .cswap _ _ _ _ => none
  | .cbind _ _ _ _ => none
  | .cunbind _ _ _ => none
  | .ccopy _ _ _ _ => none
  | .cstat _ _ _ _ => none
  | .ctxnew _ _ _ => none
  | .ctxgrant _ _ _ _ => none
  | .ctxrevoke _ _ _ _ => none
  | .ctxbudg _ _ _ _ => none
  | .ctxq _ _ _ _ => none
  | .ctxinfo _ _ _ _ => none
  | .ctxkill _ _ _ => none
  | .rflt _ _ _ _ => none
  | .lit _ => none
  | .iadd o => o.err tyInt4 subSat
  | .isub o => o.err tyInt4 subSat
  | .imul o => o.err tyInt4 subZero
  | .imulh o => o.err tyInt2 subZero
  | .imad o => o.err tyInt2 subZero
  | .idiv o => o.err tyInt2 subZero
  | .irem o => o.err tyInt2 subZero
  | .imin o => o.err tyInt4 subZero
  | .imax o => o.err tyInt4 subZero
  | .laneAnd o => o.err tyBits subZero
  | .laneOr o => o.err tyBits subZero
  | .laneXor o => o.err tyBits subZero
  | .laneShl o => o.err tyBits subZero
  | .laneShr o => o.err tyInt4 subZero
  | .bfe o => o.err tyInt2 subZero
  | .bfi o => o.err [.n32] subZero
  | .lanePopc o => o.err tyBits subZero true
  | .laneClz o => o.err tyBits subZero true
  | .isetp o => o.err tyInt4 6
  | .fadd o => o.err [.f32] subRound
  | .fsub o => o.err [.f32] subRound
  | .fmul o => o.err [.f32] subRound
  | .ffma o => o.err [.f32] subRound
  | .fmin o => o.err [.f32] subZero
  | .fmax o => o.err [.f32] subZero
  | .frcp o => o.err [.f32] subRound false
  | .fsqrt o => o.err [.f32] subRound false
  | .frsq o => o.err [.f32] subRound false
  | .fexp2 o => o.err [.f32] subRound false
  | .flog2 o => o.err [.f32] subRound false
  | .fsetp o => o.err [.f32] 8
  | .padd o => o.err tyPacked subPacked
  | .psub o => o.err tyPacked subPacked
  | .pmul o => o.err tyPackedFp subRound
  | .pfma o => o.err tyPackedFp subRound
  | .pmin o => o.err tyPacked subZero
  | .pmax o => o.err tyPacked subZero
  | .dotb o => o.err tyByte subSat
  | .doth o => o.err tyHalf subPacked
  | .cvt o => o.err
  | .cvtn o => o.err subRound
  | .cvtw o => o.err subZero
  | .laneMov o => o.err
  | .laneSel o => o.err
  | .xlane o => o.err
  | .lred o => o.err
  | .vote o => o.err
  | .kmix _ => none
  | .lmfsr o => o.err
  | .scan o => o.err tyInt2 subScan false
  | .bru _ _ => none
  | .brd _ _ => none
  | .join h => h.unguarded
  | .lfmt h _ => h.unguarded
  | .lstop h => h.unguarded
  | .lhold h => h.unguarded
  | .lsig h n => (h.unguarded).or (firstError [(n != 0, .reservedValue)])
  | .laneBara h _ n => (h.unguarded).or (firstError [(!n.isReg, .reservedKind)])
  | .laneBarw h _ => h.unguarded
  | .laneBars h _ n => (h.unguarded).or (firstError [(!n.isReg, .reservedKind)])
  | .lnop _ => none
  | .laneLds o => o.err false
  | .laneSts o => o.err true
  | .ldg o => o.err false
  | .stg o => o.err true
  | .laneLdc o => o.err false
  | .laneAtomAdd o => o.err tyBits true true false
  | .laneAtomMin o => o.err tyS2 true true false
  | .laneAtomMax o => o.err tyS2 true true false
  | .laneAtomUmin o => o.err tyBits true true false
  | .laneAtomUmax o => o.err tyBits true true false
  | .laneAtomAnd o => o.err tyBits true true false
  | .laneAtomOr o => o.err tyBits true true false
  | .laneAtomXor o => o.err tyBits true true false
  | .laneAtomXchg o => o.err tyBits true true false
  | .laneAtomCas o => o.err tyBits true true true
  | .laneAtomFadd o => o.err [.f32] true true false
  | .laneLdacq o => o.err tyBits true false false
  | .laneStrel o => o.err tyBits false true false
  | .laneFenceFull _ scope => scopeErr scope
  | .laneFenceAcq _ scope => scopeErr scope
  | .laneFenceRel _ scope => scopeErr scope
  | .accrd o => o.err subZero
  | .accwr o => o.err subZero
  | .accadd o => o.err subRound
  | .ldgT o _ => o.err false
  | .scalarIssueDecision _ _ => none
  | .laneIssueDecision _ _ => none
  | .candidateAges _ => none
  | .variableLatencyResult _ _ => none
  | .lwaitResume _ _ => none
  | .barrierWaitResume _ => none
  | .waitmReread _ => none
  | .pbwaitResume _ _ => none
  | .wcntwResume _ _ => none
  | .mwaitResume _ _ => none
  | .waitcResume _ _ => none
  | .exitResume _ _ => none
  | .armExchange _ _ => none
  | .handlerEntry _ _ => none
  | .pendingFaultTaken _ _ _ => none
  | .ringWriteRetry _ => none
  | .fieldPlace _ => none
  | .fieldSwapOut _ => none
  | .urgentClaim _ _ => none
  | .registerLineScanOut _ _ => none
  | .tenantSliceEnd _ _ _ => none
  | .reconvWaitExpire _ => none
  | .budgetPeriodBoundary => none
  | .matrixKstepComplete _ _ => none
  | .matrixOpComplete _ _ => none
  | .matrixOpPause _ _ => none
  | .chainCopy _ _ _ => none
  | .chainGather _ _ _ => none
  | .chainLoop _ _ _ => none
  | .chainSkipif _ _ _ => none
  | .chainArrive _ _ _ => none
  | .chainEnd _ _ _ => none
  | .chainComplete _ _ => none
  | .wpostComplete _ _ => none
  | .wgetComplete _ _ => none
  | .pfhComplete _ _ => none
  | .ccopyComplete _ _ _ => none
  | .walkComplete _ _ _ => none
  | .cacheWriteback _ _ _ _ => none
  | .cacheEvict _ _ _ _ => none
  | .pageFillStart _ => none
  | .pageFillComplete _ => none
  | .serviceRecordAdmit _ => none
  | .deq _ => none
  | .deqTimeout _ => none
  | .pagerCompleteRetry _ _ => none
  | .pagerCompleteBind _ _ => none
  | .pagerCompleteTerminal _ _ => none
  | .pagerCompleteReserved _ _ _ => none
  | .checkpointStart _ _ => none
  | .checkpointComplete => none
  | .leaseDbaseWrite _ _ => none
  | .routeWrite _ _ => none
  | .frameRoleWrite _ _ _ => none
  | .pagerWindowWrite _ _ _ => none
  | .pagerRestart _ => none
  | .leaseWarn _ => none
  | .leaseWarnRepeat _ => none
  | .leaseExpire _ => none
  | .grant _ _ _ _ _ _ => none
  | .renewAck _ _ => none
  | .renewNak _ => none
  | .revoke _ => none
  | .revokeAck _ => none
  | .releaseAck _ => none
  | .nodeDown _ => none
  | .leaseMessageInvalid _ => none
  | .leaseopTimeout _ => none
  | .pgmoveSwitch _ => none
  | .upg _ _ => none
  | .bisnpinvblk _ _ => none
  | .birspiblk _ _ => none
  | .upgCmp _ _ => none
  | .snoopTimeout _ _ => none
  | .bisnpdata _ _ => none
  | .hostSnoopResponse _ _ _ _ => none
  | .cxlMemRequest _ _ _ _ _ => none
  | .unsupportedFeatureRequest _ => none
  | .wreg _ _ _ _ _ _ => none
  | .wregAck _ _ _ => none
  | .wregNak _ _ _ => none
  | .wregTimeout _ _ => none
  | .vendorMessageInvalid _ => none
  | .apertureAccess _ _ _ _ => none
  | .apertureResponse _ _ _ _ => none
  | .windowArrivalWrite _ _ _ => none
  | .heartbeat => none
  | .agentDead _ => none
  | .teaselDirectoryWalk _ => none
  | .directoryEccError _ => none
  | .portRetrain _ => none
  | .contentReclaim _ => none
  | .contextScrubUnit _ => none
  | .contextScrubComplete _ => none
  | .regionScrubComplete _ => none
  | .enqueue _ _ _ _ _ => none
  | .barUnsupportedAccess _ _ _ => none
  | .agentClaim _ => none
  | .launchCheck _ => none
  | .manageExecute _ => none
  | .launchComplete _ => none
  | .agentMismatch _ => none
  | .debugStop _ _ _ _ => none
  | .debugRelease _ _ _ _ => none
  | .counterClear _ => none
  | .logModeWrite _ _ _ => none
  | .counterBankWrite _ _ _ => none
  | .deviceReset => none
  | .bootStepComplete _ => none
  | .mctpControl => none
  | .getVersion => none
  | .getCapabilities => none
  | .negotiateAlgorithms => none
  | .getDigests => none
  | .getCertificate => none
  | .challenge => none
  | .getMeasurements => none
  | .keyExchange => none
  | .finish => none
  | .endSession => none
  | .regionCreate _ _ _ _ _ _ _ => none
  | .regionDestroy _ _ => none
  | .vfBind _ _ _ => none
  | .llcCarve _ _ _ => none
  | .bankCarve _ _ _ _ => none
  | .logRead _ _ => none
  | .updateStage _ _ _ _ => none
  | .sensorRead _ _ => none
  | .keyReplace _ _ _ => none
  | .powerSample _ => none
  | .temperatureSample _ => none
  | .correctedError _ _ => none
  | .uncorrectableError _ _ _ => none
  | .unitTestComplete _ _ _ => none
  | .tagParityError _ _ _ => none
  | .heartbeatReceive _ => none
  | .hostLinkDown => none
  | .powerLoss => none
  | .localFrameScrub _ => none
  | .releasedBankZero _ _ => none
  | .context0RingsSet _ _ _ _ => none

/-- The instruction meets none of the decode-time conditions of R38. -/
abbrev Instr.WellFormed (i : Instr) : Prop := i.err = none

end Sys2Proof
end

