-- ==== Sys2Proof/Decode.lean ====
section
/-! DEFINITION. Decoding of scalar and lane words (R16-R24, R35-R38), total on every word and
rejecting by name; then the encoder, written from the same formats. -/

namespace Sys2Proof

/-! ### Scalar words (R16) -/

/-- The fields of format SR. -/
structure SrFields where
  xd : BitVec 6
  xa : BitVec 6
  xb : BitVec 6
  fn : BitVec 5
  s : BitVec 2

/-- The fields of format SI. -/
structure SiFields where
  xd : BitVec 6
  xa : BitVec 6
  imm : BitVec 11
  s : BitVec 2

/-- The fields of format SL. -/
structure SlFields where
  xd : BitVec 6
  imm : BitVec 17
  s : BitVec 2

/-- The fields of format SB. -/
structure SbFields where
  xa : BitVec 6
  xb : BitVec 6
  imm : BitVec 11
  s : BitVec 2

def SrFields.of (w : ScalarWord) : SrFields :=
  { xd := w.extractLsb' 19 6, xa := w.extractLsb' 13 6, xb := w.extractLsb' 7 6,
    fn := w.extractLsb' 2 5, s := w.extractLsb' 0 2 }

def SiFields.of (w : ScalarWord) : SiFields :=
  { xd := w.extractLsb' 19 6, xa := w.extractLsb' 13 6, imm := w.extractLsb' 2 11,
    s := w.extractLsb' 0 2 }

def SlFields.of (w : ScalarWord) : SlFields :=
  { xd := w.extractLsb' 19 6, imm := w.extractLsb' 2 17, s := w.extractLsb' 0 2 }

def SbFields.of (w : ScalarWord) : SbFields :=
  { xa := w.extractLsb' 19 6, xb := w.extractLsb' 13 6, imm := w.extractLsb' 2 11,
    s := w.extractLsb' 0 2 }

/-- The opcode of a scalar word (R17). -/
def scalarOp (w : ScalarWord) : BitVec 7 := w.extractLsb' 25 7

/-- Accept `i` when the fields it does not use are 0 (R18). -/
def used (zero : Bool) (i : Instr) : Except DecodeError Instr :=
  if zero then .ok i else .error .unusedField

/-- The instruction that a scalar word's opcode and fn name, with its fields (R35, R36). -/
def scalarFields (w : ScalarWord) : Except DecodeError Instr :=
  match (scalarOp w).toNat with
  | 0x00 => let f := SrFields.of w
    if f.fn == 0 then .ok (.add f.xd f.xa f.xb f.s)
    else .error .reservedFn
  | 0x01 => let f := SrFields.of w
    if f.fn == 0 then .ok (.sub f.xd f.xa f.xb f.s)
    else .error .reservedFn
  | 0x02 => let f := SrFields.of w
    if f.fn == 0 then .ok (.mul f.xd f.xa f.xb f.s)
    else if f.fn == 1 then .ok (.mulh f.xd f.xa f.xb f.s)
    else if f.fn == 2 then .ok (.mulhu f.xd f.xa f.xb f.s)
    else .error .reservedFn
  | 0x03 => let f := SrFields.of w
    if f.fn == 0 then .ok (.div f.xd f.xa f.xb f.s)
    else if f.fn == 1 then .ok (.divu f.xd f.xa f.xb f.s)
    else .error .reservedFn
  | 0x04 => let f := SrFields.of w
    if f.fn == 0 then .ok (.rem f.xd f.xa f.xb f.s)
    else if f.fn == 1 then .ok (.remu f.xd f.xa f.xb f.s)
    else .error .reservedFn
  | 0x05 => let f := SrFields.of w
    if f.fn == 0 then .ok (.and f.xd f.xa f.xb f.s)
    else .error .reservedFn
  | 0x06 => let f := SrFields.of w
    if f.fn == 0 then .ok (.or f.xd f.xa f.xb f.s)
    else .error .reservedFn
  | 0x07 => let f := SrFields.of w
    if f.fn == 0 then .ok (.xor f.xd f.xa f.xb f.s)
    else .error .reservedFn
  | 0x08 => let f := SrFields.of w
    if f.fn == 0 then .ok (.shl f.xd f.xa f.xb f.s)
    else .error .reservedFn
  | 0x09 => let f := SrFields.of w
    if f.fn == 0 then .ok (.shr f.xd f.xa f.xb f.s)
    else if f.fn == 1 then .ok (.sar f.xd f.xa f.xb f.s)
    else .error .reservedFn
  | 0x0A => let f := SrFields.of w
    if f.fn == 0 then .ok (.min f.xd f.xa f.xb f.s)
    else if f.fn == 1 then .ok (.minu f.xd f.xa f.xb f.s)
    else .error .reservedFn
  | 0x0B => let f := SrFields.of w
    if f.fn == 0 then .ok (.max f.xd f.xa f.xb f.s)
    else if f.fn == 1 then .ok (.maxu f.xd f.xa f.xb f.s)
    else .error .reservedFn
  | 0x0C => let f := SrFields.of w
    .ok (.cmp f.xd f.xa f.xb f.fn f.s)
  | 0x0D => let f := SrFields.of w
    .ok (.sel f.xd f.xa f.xb f.fn f.s)
  | 0x0E => let f := SrFields.of w
    if f.fn == 0 then used (f.xb == 0) (.clz f.xd f.xa f.s)
    else if f.fn == 1 then used (f.xb == 0) (.ctz f.xd f.xa f.s)
    else if f.fn == 2 then used (f.xb == 0) (.popc f.xd f.xa f.s)
    else .error .reservedFn
  | 0x10 => let f := SiFields.of w; .ok (.addi f.xd f.xa f.imm f.s)
  | 0x11 => let f := SiFields.of w; .ok (.andi f.xd f.xa f.imm f.s)
  | 0x12 => let f := SiFields.of w; .ok (.ori f.xd f.xa f.imm f.s)
  | 0x13 => let f := SiFields.of w; .ok (.xori f.xd f.xa f.imm f.s)
  | 0x14 => let f := SiFields.of w; used (f.imm.extractLsb' 6 5 == 0) (.shli f.xd f.xa (f.imm.extractLsb' 0 6) f.s)
  | 0x15 => let f := SiFields.of w; used (f.imm.extractLsb' 6 5 == 0) (.shri f.xd f.xa (f.imm.extractLsb' 0 6) f.s)
  | 0x16 => let f := SiFields.of w; used (f.imm.extractLsb' 6 5 == 0) (.sari f.xd f.xa (f.imm.extractLsb' 0 6) f.s)
  | 0x17 => let f := SiFields.of w; .ok (.slti f.xd f.xa f.imm f.s)
  | 0x18 => let f := SiFields.of w; .ok (.sltiu f.xd f.xa f.imm f.s)
  | 0x19 => let f := SiFields.of w; .ok (.muli f.xd f.xa f.imm f.s)
  | 0x1A => let f := SlFields.of w; .ok (.movpc f.xd f.imm f.s)
  | 0x20 => let f := SiFields.of w; .ok (.ldb f.xd f.xa f.imm f.s)
  | 0x21 => let f := SiFields.of w; .ok (.ldbu f.xd f.xa f.imm f.s)
  | 0x22 => let f := SiFields.of w; .ok (.ldh f.xd f.xa f.imm f.s)
  | 0x23 => let f := SiFields.of w; .ok (.ldhu f.xd f.xa f.imm f.s)
  | 0x24 => let f := SiFields.of w; .ok (.ldw f.xd f.xa f.imm f.s)
  | 0x25 => let f := SiFields.of w; .ok (.ldwu f.xd f.xa f.imm f.s)
  | 0x26 => let f := SiFields.of w; .ok (.ldd f.xd f.xa f.imm f.s)
  | 0x27 => let f := SiFields.of w; .ok (.stb f.xd f.xa f.imm f.s)
  | 0x28 => let f := SiFields.of w; .ok (.sth f.xd f.xa f.imm f.s)
  | 0x29 => let f := SiFields.of w; .ok (.stw f.xd f.xa f.imm f.s)
  | 0x2A => let f := SiFields.of w; .ok (.std f.xd f.xa f.imm f.s)
  | 0x2B => let f := SiFields.of w; .ok (.lds f.xd f.xa f.imm f.s)
  | 0x2C => let f := SiFields.of w; .ok (.sts f.xd f.xa f.imm f.s)
  | 0x2D => let f := SiFields.of w; .ok (.ldc f.xd f.xa f.imm f.s)
  | 0x30 => let f := SbFields.of w; .ok (.beq f.xa f.xb f.imm f.s)
  | 0x31 => let f := SbFields.of w; .ok (.bne f.xa f.xb f.imm f.s)
  | 0x32 => let f := SbFields.of w; .ok (.blt f.xa f.xb f.imm f.s)
  | 0x33 => let f := SbFields.of w; .ok (.bge f.xa f.xb f.imm f.s)
  | 0x34 => let f := SbFields.of w; .ok (.bltu f.xa f.xb f.imm f.s)
  | 0x35 => let f := SbFields.of w; .ok (.bgeu f.xa f.xb f.imm f.s)
  | 0x36 => let f := SlFields.of w; .ok (.jal f.xd f.imm f.s)
  | 0x37 => let f := SiFields.of w; .ok (.jalr f.xd f.xa f.imm f.s)
  | 0x40 => let f := SiFields.of w; used (f.xd == 0) (.lrun f.xa f.imm f.s)
  | 0x41 => let f := SrFields.of w
    if f.fn == 0 then used (f.xd == 0 && f.xa == 0 && f.xb == 0) (.lgo f.s)
    else .error .reservedFn
  | 0x42 => let f := SiFields.of w; .ok (.lwait f.xd f.xa f.imm f.s)
  | 0x43 => let f := SrFields.of w
    if f.fn == 0 then used (f.xd.extractLsb' 4 2 == 0 && f.xb == 0) (.movxw (f.xd.extractLsb' 0 4) f.xa f.s)
    else if f.fn == 1 then used (f.xa.extractLsb' 4 2 == 0 && f.xb == 0) (.movwx f.xd (f.xa.extractLsb' 0 4) f.s)
    else .error .reservedFn
  | 0x44 => let f := SiFields.of w; used (f.xd == 0 && f.imm.extractLsb' 6 5 == 0) (.setfmt f.xa (f.imm.extractLsb' 0 6) f.s)
  | 0x45 => let f := SrFields.of w
    if f.fn == 0 then used (f.xd.extractLsb' 4 2 == 0 && f.xb == 0) (.bara (f.xd.extractLsb' 0 4) f.xa f.s)
    else if f.fn == 1 then used (f.xd.extractLsb' 4 2 == 0 && f.xa == 0 && f.xb == 0) (.barw (f.xd.extractLsb' 0 4) f.s)
    else if f.fn == 2 then used (f.xd.extractLsb' 4 2 == 0 && f.xb == 0) (.bars (f.xd.extractLsb' 0 4) f.xa f.s)
    else .error .reservedFn
  | 0x46 => let f := SrFields.of w
    if f.fn.extractLsb' 3 2 == 0 then .ok (.waitm f.xd f.xa f.xb (f.fn.extractLsb' 2 1) (f.fn.extractLsb' 0 2) f.s)
    else .error .reservedFn
  | 0x47 => let f := SrFields.of w
    if f.fn == 0 then used (f.xd == 0 && f.xa == 0 && f.xb == 0) (.yield f.s)
    else if f.fn == 1 then used (f.xd == 0 && f.xa == 0 && f.xb == 0) (.exit f.s)
    else .error .reservedFn
  | 0x48 => let f := SrFields.of w
    if f.fn == 0 then used (f.xd == 0 && f.xb == 0) (.mloadFp f.xa f.s)
    else if f.fn == 1 then used (f.xd == 0 && f.xb == 0) (.mloadTern f.xa f.s)
    else .error .reservedFn
  | 0x49 => let f := SrFields.of w
    if f.fn == 0 then used (f.xd == 0 && f.xa == 0 && f.xb == 0) (.mflipFp f.s)
    else if f.fn == 1 then used (f.xd == 0 && f.xa == 0 && f.xb == 0) (.mflipTern f.s)
    else .error .reservedFn
  | 0x4A => let f := SrFields.of w
    if f.fn == 0 then used (f.xd.extractLsb' 4 2 == 0 && f.xb == 0) (.mmul (f.xd.extractLsb' 0 4) f.xa f.s)
    else .error .reservedFn
  | 0x4B => let f := SrFields.of w
    if f.fn == 0 then used (f.xd.extractLsb' 4 2 == 0 && f.xb == 0) (.mtern (f.xd.extractLsb' 0 4) f.xa f.s)
    else .error .reservedFn
  | 0x4C => let f := SrFields.of w
    if f.fn == 0 then used (f.xd.extractLsb' 4 2 == 0 && f.xa == 0 && f.xb == 0) (.mzero (f.xd.extractLsb' 0 4) f.s)
    else if f.fn == 1 then used (f.xd.extractLsb' 4 2 == 0 && f.xb == 0) (.mdrain (f.xd.extractLsb' 0 4) f.xa f.s)
    else .error .reservedFn
  | 0x4D => let f := SrFields.of w
    if f.fn == 0 then used (f.xa == 0 && f.xb == 0) (.mfence f.xd f.s)
    else if f.fn == 1 then used (f.xd == 0 && f.xb == 0) (.mwait f.xa f.s)
    else if f.fn == 2 then .ok (.mgrow f.xd f.xa f.xb f.s)
    else .error .reservedFn
  | 0x4E => let f := SrFields.of w
    if f.fn == 0 then used (f.xd == 0 && f.xb == 0) (.cpgo f.xa f.s)
    else if f.fn == 1 then used (f.xd.extractLsb' 2 4 == 0 && f.xb == 0) (.waitc (f.xd.extractLsb' 0 2) f.xa f.s)
    else .error .reservedFn
  | 0x4F => let f := SrFields.of w
    if f.fn == 0 then used (f.xd == 0) (.pbinit f.xa f.xb f.s)
    else if f.fn == 1 then .ok (.pbarv f.xd f.xa f.xb f.s)
    else if f.fn == 2 then .ok (.pbwait f.xd f.xa f.xb f.s)
    else .error .reservedFn
  | 0x50 => let f := SrFields.of w
    if f.fn.extractLsb' 4 1 == 0 then .ok (.atomAdd f.xd f.xa f.xb (f.fn.extractLsb' 3 1) (f.fn.extractLsb' 0 3) f.s)
    else if f.fn.extractLsb' 4 1 == 1 then .ok (.atomXchg f.xd f.xa f.xb (f.fn.extractLsb' 3 1) (f.fn.extractLsb' 0 3) f.s)
    else .error .reservedFn
  | 0x51 => let f := SrFields.of w
    if f.fn.extractLsb' 4 1 == 0 then .ok (.atomMin f.xd f.xa f.xb (f.fn.extractLsb' 3 1) (f.fn.extractLsb' 0 3) f.s)
    else if f.fn.extractLsb' 4 1 == 1 then .ok (.atomMax f.xd f.xa f.xb (f.fn.extractLsb' 3 1) (f.fn.extractLsb' 0 3) f.s)
    else .error .reservedFn
  | 0x52 => let f := SrFields.of w
    if f.fn.extractLsb' 4 1 == 0 then .ok (.atomUmin f.xd f.xa f.xb (f.fn.extractLsb' 3 1) (f.fn.extractLsb' 0 3) f.s)
    else if f.fn.extractLsb' 4 1 == 1 then .ok (.atomUmax f.xd f.xa f.xb (f.fn.extractLsb' 3 1) (f.fn.extractLsb' 0 3) f.s)
    else .error .reservedFn
  | 0x53 => let f := SrFields.of w
    if f.fn.extractLsb' 4 1 == 0 then .ok (.atomAnd f.xd f.xa f.xb (f.fn.extractLsb' 3 1) (f.fn.extractLsb' 0 3) f.s)
    else if f.fn.extractLsb' 4 1 == 1 then .ok (.atomOr f.xd f.xa f.xb (f.fn.extractLsb' 3 1) (f.fn.extractLsb' 0 3) f.s)
    else .error .reservedFn
  | 0x54 => let f := SrFields.of w
    if f.fn.extractLsb' 4 1 == 0 then .ok (.atomXor f.xd f.xa f.xb (f.fn.extractLsb' 3 1) (f.fn.extractLsb' 0 3) f.s)
    else .error .reservedFn
  | 0x55 => let f := SrFields.of w
    if f.fn.extractLsb' 4 1 == 0 then used (f.xb.extractLsb' 0 1 == 0) (.atomCas f.xd f.xa (f.xb.extractLsb' 1 5) (f.fn.extractLsb' 3 1) (f.fn.extractLsb' 0 3) f.s)
    else .error .reservedFn
  | 0x56 => let f := SrFields.of w
    if f.fn.extractLsb' 4 1 == 0 then used (f.xb == 0) (.ldacq f.xd f.xa (f.fn.extractLsb' 3 1) (f.fn.extractLsb' 0 3) f.s)
    else .error .reservedFn
  | 0x57 => let f := SrFields.of w
    if f.fn.extractLsb' 4 1 == 0 then used (f.xd == 0) (.strel f.xa f.xb (f.fn.extractLsb' 3 1) (f.fn.extractLsb' 0 3) f.s)
    else .error .reservedFn
  | 0x58 => let f := SrFields.of w
    if f.fn.extractLsb' 3 2 == 0 then used (f.xd == 0 && f.xa == 0 && f.xb == 0) (.fenceFull (f.fn.extractLsb' 0 3) f.s)
    else if f.fn.extractLsb' 3 2 == 1 then used (f.xd == 0 && f.xa == 0 && f.xb == 0) (.fenceAcq (f.fn.extractLsb' 0 3) f.s)
    else if f.fn.extractLsb' 3 2 == 2 then used (f.xd == 0 && f.xa == 0 && f.xb == 0) (.fenceRel (f.fn.extractLsb' 0 3) f.s)
    else .error .reservedFn
  | 0x59 => let f := SrFields.of w
    if f.fn == 0 then used (f.xd.extractLsb' 3 3 == 0) (.cwb (f.xd.extractLsb' 0 3) f.xa f.xb f.s)
    else if f.fn == 1 then used (f.xd.extractLsb' 3 3 == 0) (.cinv (f.xd.extractLsb' 0 3) f.xa f.xb f.s)
    else if f.fn == 2 then used (f.xd.extractLsb' 3 3 == 0) (.cwbi (f.xd.extractLsb' 0 3) f.xa f.xb f.s)
    else .error .reservedFn
  | 0x5A => let f := SrFields.of w
    if f.fn == 0 then .ok (.pfh f.xd f.xa f.xb f.s)
    else .error .reservedFn
  | 0x5B => let f := SrFields.of w
    if f.fn == 0 then used (f.xd == 0 && f.xb.extractLsb' 0 1 == 0) (.wpost f.xa (f.xb.extractLsb' 1 5) f.s)
    else .error .reservedFn
  | 0x5C => let f := SrFields.of w
    if f.fn == 0 then used (f.xd == 0 && f.xb.extractLsb' 0 1 == 0) (.wget f.xa (f.xb.extractLsb' 1 5) f.s)
    else .error .reservedFn
  | 0x5D => let f := SrFields.of w
    if f.fn == 0 then .ok (.wcntw f.xd f.xa f.xb f.s)
    else .error .reservedFn
  | 0x5E => let f := SrFields.of w
    if f.fn == 0 then used (f.xd.extractLsb' 3 3 == 0) (.sigrel (f.xd.extractLsb' 0 3) f.xa f.xb f.s)
    else if f.fn == 1 then used (f.xb.extractLsb' 3 3 == 0) (.sigacq f.xd f.xa (f.xb.extractLsb' 0 3) f.s)
    else .error .reservedFn
  | 0x60 => let f := SiFields.of w; used (f.xa == 0 && f.imm.extractLsb' 10 1 == 0) (.mfsr f.xd (f.imm.extractLsb' 0 10) f.s)
  | 0x61 => let f := SiFields.of w; used (f.xd == 0 && f.imm.extractLsb' 10 1 == 0) (.mtsr f.xa (f.imm.extractLsb' 0 10) f.s)
  | 0x62 => let f := SiFields.of w; used (f.xd == 0 && f.xa == 0) (.trap f.imm f.s)
  | 0x63 => let f := SrFields.of w
    if f.fn == 0 then used (f.xd == 0 && f.xa == 0 && f.xb == 0) (.tret f.s)
    else if f.fn == 1 then used (f.xd == 0) (.trun f.xa f.xb f.s)
    else .error .reservedFn
  | 0x64 => let f := SrFields.of w
    if f.fn == 0 then used (f.xd == 0 && f.xa == 0 && f.xb == 0) (.rgn f.s)
    else .error .reservedFn
  | 0x65 => let f := SrFields.of w
    if f.fn == 0 then used (f.xb == 0) (.mapft f.xd f.xa f.s)
    else .error .reservedFn
  | 0x66 => let f := SrFields.of w
    if f.fn == 0 then used (f.xd == 0 && f.xa == 0 && f.xb == 0) (.park f.s)
    else if f.fn == 1 then used (f.xd == 0 && f.xa == 0 && f.xb == 0) (.parkTerm f.s)
    else .error .reservedFn
  | 0x67 => let f := SrFields.of w
    if f.fn == 0 then .ok (.tlbiR f.xd f.xa f.xb f.s)
    else if f.fn == 1 then used (f.xa == 0 && f.xb == 0) (.tlbiCtx f.xd f.s)
    else .error .reservedFn
  | 0x68 => let f := SiFields.of w; used (f.xd == 0 && f.xa == 0) (.brkpt f.imm f.s)
  | 0x69 => let f := SrFields.of w
    if f.fn == 0 then used (f.xb == 0) (.pgfill f.xd f.xa f.s)
    else if f.fn == 1 then used (f.xb == 0) (.pgevict f.xd f.xa f.s)
    else if f.fn == 2 then used (f.xb.extractLsb' 0 1 == 0) (.pgmove f.xd f.xa (f.xb.extractLsb' 1 5) f.s)
    else if f.fn == 3 then used (f.xb == 0) (.pgupg f.xd f.xa f.s)
    else .error .reservedFn
  | 0x6A => let f := SrFields.of w
    if f.fn == 0 then .ok (.leaseopRenew f.xd f.xa f.xb f.s)
    else if f.fn == 1 then .ok (.leaseopQuery f.xd f.xa f.xb f.s)
    else if f.fn == 2 then .ok (.leaseopRelease f.xd f.xa f.xb f.s)
    else if f.fn == 3 then .ok (.leaseopAckwarn f.xd f.xa f.xb f.s)
    else .error .reservedFn
  | 0x6B => let f := SrFields.of w
    if f.fn == 0 then used (f.xd.extractLsb' 0 2 == 0) (.cins (f.xd.extractLsb' 2 4) f.xa f.xb f.s)
    else if f.fn == 1 then used (f.xd.extractLsb' 0 2 == 0) (.cnode (f.xd.extractLsb' 2 4) f.xa f.xb f.s)
    else if f.fn == 2 then used (f.xd.extractLsb' 0 2 == 0 && f.xa.extractLsb' 0 1 == 0) (.cref (f.xd.extractLsb' 2 4) (f.xa.extractLsb' 1 5) f.xb f.s)
    else if f.fn == 3 then used (f.xd.extractLsb' 0 2 == 0 && f.xa.extractLsb' 0 1 == 0) (.cunref (f.xd.extractLsb' 2 4) (f.xa.extractLsb' 1 5) f.xb f.s)
    else if f.fn == 4 then used (f.xd.extractLsb' 0 2 == 0 && f.xa.extractLsb' 0 1 == 0 && f.xb.extractLsb' 0 2 == 0) (.cswap (f.xd.extractLsb' 2 4) (f.xa.extractLsb' 1 5) (f.xb.extractLsb' 2 4) f.s)
    else if f.fn == 5 then used (f.xd.extractLsb' 0 2 == 0 && f.xa.extractLsb' 0 1 == 0 && f.xb.extractLsb' 0 1 == 0) (.cbind (f.xd.extractLsb' 2 4) (f.xa.extractLsb' 1 5) (f.xb.extractLsb' 1 5) f.s)
    else if f.fn == 6 then used (f.xd.extractLsb' 0 2 == 0 && f.xb == 0) (.cunbind (f.xd.extractLsb' 2 4) f.xa f.s)
    else if f.fn == 7 then used (f.xd.extractLsb' 0 2 == 0 && f.xa.extractLsb' 0 1 == 0 && f.xb.extractLsb' 0 1 == 0) (.ccopy (f.xd.extractLsb' 2 4) (f.xa.extractLsb' 1 5) (f.xb.extractLsb' 1 5) f.s)
    else if f.fn == 8 then used (f.xd.extractLsb' 0 2 == 0 && f.xa.extractLsb' 0 1 == 0) (.cstat (f.xd.extractLsb' 2 4) (f.xa.extractLsb' 1 5) f.xb f.s)
    else .error .reservedFn
  | 0x6C => let f := SrFields.of w
    if f.fn == 0 then used (f.xd.extractLsb' 0 1 == 0 && f.xb == 0) (.ctxnew (f.xd.extractLsb' 1 5) f.xa f.s)
    else if f.fn == 1 then used (f.xd.extractLsb' 0 1 == 0) (.ctxgrant (f.xd.extractLsb' 1 5) f.xa f.xb f.s)
    else if f.fn == 2 then used (f.xd.extractLsb' 0 1 == 0) (.ctxrevoke (f.xd.extractLsb' 1 5) f.xa f.xb f.s)
    else if f.fn == 3 then used (f.xd.extractLsb' 0 1 == 0) (.ctxbudg (f.xd.extractLsb' 1 5) f.xa f.xb f.s)
    else if f.fn == 4 then used (f.xd.extractLsb' 0 1 == 0) (.ctxq (f.xd.extractLsb' 1 5) f.xa f.xb f.s)
    else if f.fn == 5 then used (f.xd.extractLsb' 0 1 == 0 && f.xa.extractLsb' 0 1 == 0) (.ctxinfo (f.xd.extractLsb' 1 5) (f.xa.extractLsb' 1 5) f.xb f.s)
    else if f.fn == 6 then used (f.xd.extractLsb' 0 1 == 0 && f.xb == 0) (.ctxkill (f.xd.extractLsb' 1 5) f.xa f.s)
    else if f.fn == 7 then used (f.xd.extractLsb' 0 1 == 0) (.rflt (f.xd.extractLsb' 1 5) f.xa f.xb f.s)
    else .error .reservedFn
  | 0x7F => .ok (.lit (w.extractLsb' 0 25))
  | _ => .error .illegalCell

/-- An instruction that meets none of the conditions of R38. -/
def checked (r : Except DecodeError Instr) : Except DecodeError Instr :=
  match r with
  | .error e => .error e
  | .ok i =>
    match i.err with
    | none => .ok i
    | some e => .error e

/-- A scalar word's instruction, or why it is not one. -/
def decodeScalar (w : ScalarWord) : Except DecodeError Instr := checked (scalarFields w)

/-! ### Lane words (R20-R24) -/

/-- The fields of a lane word (R20). -/
structure LaneRaw where
  op : BitVec 10
  vd : BitVec 8
  va : BitVec 8
  vb : BitVec 8
  vc : BitVec 8
  hdr : LHdr
  ty : BitVec 4
  mods : BitVec 8
  imm : W32
  deriving DecidableEq, Repr

/-- One bit as a Bool. -/
def bit1 (b : BitVec 1) : Bool := b == 1#1

/-- A Bool as one bit. -/
def bitOf (b : Bool) : BitVec 1 := if b then 1#1 else 0#1

/-- The fields of a lane word (R20). -/
def LaneRaw.unpack (w : LaneWord) : LaneRaw :=
  { op := w.extractLsb' 86 10, vd := w.extractLsb' 78 8, va := w.extractLsb' 70 8,
    vb := w.extractLsb' 62 8, vc := w.extractLsb' 54 8,
    hdr := { guard := w.extractLsb' 50 4, neg := bit1 (w.extractLsb' 49 1),
             stall := w.extractLsb' 45 4, mark := bit1 (w.extractLsb' 44 1) },
    ty := w.extractLsb' 40 4, mods := w.extractLsb' 32 8, imm := w.extractLsb' 0 32 }

/-- The type a code names (R22). -/
def LTy.ofCode (c : BitVec 4) : Except DecodeError LTy :=
  match c.toNat with
  | 0 => .ok .none | 1 => .ok .n32 | 2 => .ok .s32 | 3 => .ok .n64 | 4 => .ok .s64 | 5 => .ok .f32
  | 6 => .ok .bf16x2 | 7 => .ok .f16x2 | 8 => .ok .n16x2 | 9 => .ok .s16x2 | 10 => .ok .n8x4
  | 11 => .ok .s8x4
  | _ => .error .reservedType

/-- The sub field of layout A (R23). -/
def LaneRaw.sub (r : LaneRaw) : BitVec 4 := r.mods.extractLsb' 4 4
/-- The kind of vc in layout A (R23). -/
def LaneRaw.kc (r : LaneRaw) : BitVec 2 := r.mods.extractLsb' 2 2
/-- The kind of vb in layout A, of the base in layout M (R23, R24). -/
def LaneRaw.kb (r : LaneRaw) : BitVec 2 := r.mods.extractLsb' 0 2

/-- A field that names a `k` or `w` register has bits [7:4] equal to 0 (R21). -/
def num4 (f : BitVec 8) : Except DecodeError (BitVec 4) :=
  if f.extractLsb' 4 4 == 0 then .ok (f.extractLsb' 0 4) else .error .unusedField

/-- An operand from its kind and field; the field of an immediate is 0 (R23). -/
def opndOf (kind : BitVec 2) (f : BitVec 8) (imm : W32) : Except DecodeError Opnd :=
  match kind.toNat with
  | 0 => .ok (.reg f)
  | 1 => (num4 f).map .uni
  | 2 => if f == 0 then .ok (.imm imm) else .error .unusedField
  | _ => .error .reservedKind

/-- The fields that a condition names are 0 (R38). -/
def zeroes (c : Bool) : Except DecodeError Unit := if c then .ok () else .error .unusedField

def LaneRaw.bin (r : LaneRaw) : Except DecodeError LBin := do
  let ty ← LTy.ofCode r.ty
  let b ← opndOf r.kb r.vb r.imm
  zeroes (r.vc == 0 && r.kc == 0 && (b.isImm || r.imm == 0))
  .ok { h := r.hdr, ty := ty, sub := r.sub, vd := r.vd, va := r.va, b := b }

def LaneRaw.tern (r : LaneRaw) : Except DecodeError LTern := do
  let ty ← LTy.ofCode r.ty
  let b ← opndOf r.kb r.vb r.imm
  let c ← opndOf r.kc r.vc r.imm
  zeroes (b.isImm || c.isImm || r.imm == 0)
  .ok { h := r.hdr, ty := ty, sub := r.sub, vd := r.vd, va := r.va, b := b, c := c }

def LaneRaw.un (r : LaneRaw) : Except DecodeError LUn := do
  let ty ← LTy.ofCode r.ty
  zeroes (r.vb == 0 && r.vc == 0 && r.kb == 0 && r.kc == 0 && r.imm == 0)
  .ok { h := r.hdr, ty := ty, sub := r.sub, vd := r.vd, va := r.va }

def LaneRaw.setp (r : LaneRaw) : Except DecodeError LSetp := do
  let ty ← LTy.ofCode r.ty
  let kd ← num4 r.vd
  let b ← opndOf r.kb r.vb r.imm
  zeroes (r.vc == 0 && r.kc == 0 && (b.isImm || r.imm == 0))
  .ok { h := r.hdr, ty := ty, cc := r.sub, kd := kd, va := r.va, b := b }

def LaneRaw.cvt (r : LaneRaw) : Except DecodeError LCvt := do
  let dst ← LTy.ofCode r.ty
  let src ← LTy.ofCode (r.imm.extractLsb' 0 4)
  zeroes (r.vb == 0 && r.vc == 0 && r.kb == 0 && r.kc == 0 && r.imm.extractLsb' 4 28 == 0)
  .ok { h := r.hdr, dst := dst, src := src, sub := r.sub, vd := r.vd, va := r.va }

def LaneRaw.narrow (r : LaneRaw) : Except DecodeError LNarrow := do
  let ty ← LTy.ofCode r.ty
  zeroes (r.vb == 0 && r.vc == 0 && r.kb == 0 && r.kc == 0 && r.imm.extractLsb' 8 24 == 0)
  .ok { h := r.hdr, ty := ty, sub := r.sub, fmt := r.imm.extractLsb' 0 4,
        slot := r.imm.extractLsb' 4 4, vd := r.vd, va := r.va }

def LaneRaw.mov (r : LaneRaw) : Except DecodeError LMov := do
  let ty ← LTy.ofCode r.ty
  let b ← opndOf r.kb r.vb r.imm
  zeroes (r.va == 0 && r.vc == 0 && r.kc == 0 && r.sub == 0 && (b.isImm || r.imm == 0))
  .ok { h := r.hdr, ty := ty, vd := r.vd, b := b }

def LaneRaw.sel (r : LaneRaw) : Except DecodeError LSel := do
  let ty ← LTy.ofCode r.ty
  let ka ← num4 r.va
  let b ← opndOf r.kb r.vb r.imm
  let c ← opndOf r.kc r.vc r.imm
  zeroes (r.sub == 0 && (b.isImm || c.isImm || r.imm == 0))
  .ok { h := r.hdr, ty := ty, vd := r.vd, ka := ka, b := b, c := c }

def LaneRaw.xlane (r : LaneRaw) : Except DecodeError LXlane := do
  let ty ← LTy.ofCode r.ty
  let b ← opndOf r.kb r.vb r.imm
  let c ← opndOf r.kc r.vc r.imm
  zeroes (b.isImm || c.isImm || r.imm == 0)
  if ty = .n32 then .ok { h := r.hdr, sub := r.sub, vd := r.vd, va := r.va, b := b, c := c }
  else .error .reservedType

def LaneRaw.red (r : LaneRaw) : Except DecodeError LRedOp := do
  let ty ← LTy.ofCode r.ty
  let wd ← num4 r.vd
  zeroes (r.vb == 0 && r.vc == 0 && r.kb == 0 && r.kc == 0 && r.imm == 0)
  .ok { h := r.hdr, ty := ty, op := r.sub, wd := wd, va := r.va }

/-- The type code is 0, as the instruction fixes it (R22). -/
def LaneRaw.untyped (r : LaneRaw) : Except DecodeError Unit :=
  if r.ty == 0 then .ok () else .error .reservedType

def LaneRaw.vote (r : LaneRaw) : Except DecodeError LVote := do
  r.untyped
  let wd ← num4 r.vd
  let ka ← num4 r.va
  zeroes (r.vb == 0 && r.vc == 0 && r.kb == 0 && r.kc == 0 && r.imm.extractLsb' 4 28 == 0)
  .ok { h := r.hdr, op := r.sub, wd := wd, ka := ka, g := r.imm.extractLsb' 0 4 }

def LaneRaw.kmix (r : LaneRaw) : Except DecodeError LKmix := do
  r.untyped
  let kd ← num4 r.vd
  let ka ← num4 r.va
  let kb ← num4 r.vb
  let kc ← num4 r.vc
  zeroes (r.mods == 0 && r.imm.extractLsb' 9 23 == 0)
  .ok { h := r.hdr, kd := kd, ka := ka, kb := kb, kc := kc, table := r.imm.extractLsb' 0 8,
        inv := bit1 (r.imm.extractLsb' 8 1) }

def LaneRaw.sysRead (r : LaneRaw) : Except DecodeError LSysRead := do
  let ty ← LTy.ofCode r.ty
  zeroes (r.va == 0 && r.vb == 0 && r.vc == 0 && r.mods == 0 && r.imm.extractLsb' 10 22 == 0)
  .ok { h := r.hdr, ty := ty, vd := r.vd, sr := r.imm.extractLsb' 0 10 }

/-- The memory operand of layout M (R24). -/
def LaneRaw.memOp (r : LaneRaw) : Except DecodeError MemOp := do
  let base ← (match r.kb.toNat with
    | 0 => .ok (LBase.pair r.vb)
    | 1 => (num4 r.vb).map LBase.uni
    | _ => .error .reservedKind)
  let ix := bit1 (r.mods.extractLsb' 7 1)
  zeroes (ix || r.vc == 0)
  .ok { base := base, idx := if ix then some r.vc else none, sc := r.mods.extractLsb' 2 2,
        disp := r.imm }

/-- The width or scope field of layout M (R24). -/
def LaneRaw.sz (r : LaneRaw) : BitVec 3 := r.mods.extractLsb' 4 3

def LaneRaw.load (r : LaneRaw) : Except DecodeError LMem := do
  r.untyped
  let m ← r.memOp
  zeroes (r.va == 0)
  .ok { h := r.hdr, sz := r.sz, reg := r.vd, m := m }

def LaneRaw.store (r : LaneRaw) : Except DecodeError LMem := do
  r.untyped
  let m ← r.memOp
  zeroes (r.vd == 0)
  .ok { h := r.hdr, sz := r.sz, reg := r.va, m := m }

def LaneRaw.gather (r : LaneRaw) : Except DecodeError Instr := do
  r.untyped
  let m ← r.memOp
  let kd ← num4 r.va
  .ok (.ldgT { h := r.hdr, sz := r.sz, reg := r.vd, m := m } kd)

def LaneRaw.atom (r : LaneRaw) : Except DecodeError LAtom := do
  let ty ← LTy.ofCode r.ty
  let m ← r.memOp
  .ok { h := r.hdr, ty := ty, scope := r.sz, vd := r.vd, va := r.va, m := m }

/-- A lane fence: layout M with ix, sc and kb 0, the kind in imm32[1:0] (R203). -/
def LaneRaw.fence (r : LaneRaw) : Except DecodeError Instr := do
  r.untyped
  zeroes (r.vd == 0 && r.va == 0 && r.vb == 0 && r.vc == 0 && r.imm.extractLsb' 2 30 == 0
    && r.mods.extractLsb' 7 1 == 0 && r.mods.extractLsb' 0 4 == 0)
  match (r.imm.extractLsb' 0 2).toNat with
  | 0 => .ok (.laneFenceFull r.hdr r.sz)
  | 1 => .ok (.laneFenceAcq r.hdr r.sz)
  | 2 => .ok (.laneFenceRel r.hdr r.sz)
  | _ => .error .reservedValue

/-- The tile and the element operand of an accumulator access (R101). -/
def LaneRaw.accOp (r : LaneRaw) : Except DecodeError Opnd := do
  r.untyped
  zeroes (r.vc == 0 && r.kc == 0 && r.imm.extractLsb' 4 28 == 0)
  match r.kb.toNat with
  | 0 => .ok (.reg r.vb)
  | 1 => (num4 r.vb).map .uni
  | _ => .error .reservedKind

def LaneRaw.accRead (r : LaneRaw) : Except DecodeError LAcc := do
  let e ← r.accOp
  zeroes (r.va == 0)
  .ok { h := r.hdr, sub := r.sub, tile := r.imm.extractLsb' 0 4, e := e, reg := r.vd }

def LaneRaw.accWrite (r : LaneRaw) : Except DecodeError LAcc := do
  let e ← r.accOp
  zeroes (r.vd == 0)
  .ok { h := r.hdr, sub := r.sub, tile := r.imm.extractLsb' 0 4, e := e, reg := r.va }

/-- The register fields, the type and the modifiers are 0 (R91). -/
def LaneRaw.fieldless (r : LaneRaw) : Bool :=
  r.vd == 0 && r.va == 0 && r.vb == 0 && r.vc == 0 && r.ty == 0 && r.mods == 0

/-- Every operand field is 0 (R93, R95). -/
def LaneRaw.bare (r : LaneRaw) : Bool := r.fieldless && r.imm == 0

def LaneRaw.offset (r : LaneRaw) : Except DecodeError W32 :=
  if r.fieldless then .ok r.imm else .error .unusedField

def LaneRaw.lfmt (r : LaneRaw) : Except DecodeError Instr := do
  r.untyped
  let w ← num4 r.vb
  zeroes (r.vd == 0 && r.va == 0 && r.vc == 0 && r.sub == 0 && r.kc == 0)
  if r.kb == 1 then (if r.imm == 0 then .ok (.lfmt r.hdr w) else .error .systemRegister)
  else .error .reservedKind

def LaneRaw.lsig (r : LaneRaw) : Except DecodeError Instr :=
  if !r.fieldless then .error .unusedField
  else if r.imm.extractLsb' 8 24 == 0 then .ok (.lsig r.hdr (r.imm.extractLsb' 0 8))
  else .error .reservedValue

/-- The barrier and the count of a lane arrival (R97). -/
def LaneRaw.arrive (r : LaneRaw) : Except DecodeError (BitVec 4 × Opnd) := do
  r.untyped
  let bar ← num4 r.vd
  let n ← opndOf r.kb r.vb r.imm
  zeroes (r.va == 0 && r.vc == 0 && r.sub == 0 && r.kc == 0 && (n.isImm || r.imm == 0))
  .ok (bar, n)

def LaneRaw.barw (r : LaneRaw) : Except DecodeError Instr := do
  r.untyped
  let bar ← num4 r.vd
  zeroes (r.va == 0 && r.vb == 0 && r.vc == 0 && r.mods == 0 && r.imm == 0)
  .ok (.laneBarw r.hdr bar)

/-- The instruction that a lane word's opcode names, with its fields (R37). -/
def laneFields (r : LaneRaw) : Except DecodeError Instr :=
  match r.op.toNat with
  | 0x000 => r.bin.map .iadd
  | 0x001 => r.bin.map .isub
  | 0x002 => r.bin.map .imul
  | 0x003 => r.bin.map .imulh
  | 0x004 => r.tern.map .imad
  | 0x005 => r.bin.map .idiv
  | 0x006 => r.bin.map .irem
  | 0x007 => r.bin.map .imin
  | 0x008 => r.bin.map .imax
  | 0x009 => r.bin.map .laneAnd
  | 0x00A => r.bin.map .laneOr
  | 0x00B => r.bin.map .laneXor
  | 0x00C => r.bin.map .laneShl
  | 0x00D => r.bin.map .laneShr
  | 0x00E => r.bin.map .bfe
  | 0x00F => r.tern.map .bfi
  | 0x010 => r.un.map .lanePopc
  | 0x011 => r.un.map .laneClz
  | 0x012 => r.setp.map .isetp
  | 0x040 => r.bin.map .fadd
  | 0x041 => r.bin.map .fsub
  | 0x042 => r.bin.map .fmul
  | 0x043 => r.tern.map .ffma
  | 0x044 => r.bin.map .fmin
  | 0x045 => r.bin.map .fmax
  | 0x046 => r.un.map .frcp
  | 0x047 => r.un.map .fsqrt
  | 0x048 => r.un.map .frsq
  | 0x049 => r.un.map .fexp2
  | 0x04A => r.un.map .flog2
  | 0x04B => r.setp.map .fsetp
  | 0x080 => r.bin.map .padd
  | 0x081 => r.bin.map .psub
  | 0x082 => r.bin.map .pmul
  | 0x083 => r.tern.map .pfma
  | 0x084 => r.bin.map .pmin
  | 0x085 => r.bin.map .pmax
  | 0x086 => r.tern.map .dotb
  | 0x087 => r.tern.map .doth
  | 0x0C0 => r.cvt.map .cvt
  | 0x0C1 => r.narrow.map .cvtn
  | 0x0C2 => r.narrow.map .cvtw
  | 0x100 => r.mov.map .laneMov
  | 0x101 => r.sel.map .laneSel
  | 0x102 => r.xlane.map .xlane
  | 0x103 => r.red.map .lred
  | 0x104 => r.vote.map .vote
  | 0x105 => r.kmix.map .kmix
  | 0x106 => r.sysRead.map .lmfsr
  | 0x107 => r.un.map .scan
  | 0x140 => r.offset.map (fun off => .bru r.hdr off)
  | 0x141 => r.offset.map (fun off => .brd r.hdr off)
  | 0x142 => used r.bare (.join r.hdr)
  | 0x143 => r.lfmt
  | 0x144 => used r.bare (.lstop r.hdr)
  | 0x145 => used r.bare (.lhold r.hdr)
  | 0x146 => r.lsig
  | 0x147 => r.arrive.map (fun p => .laneBara r.hdr p.1 p.2)
  | 0x148 => r.barw
  | 0x149 => r.arrive.map (fun p => .laneBars r.hdr p.1 p.2)
  | 0x14A => used r.bare (.lnop r.hdr)
  | 0x180 => r.load.map .laneLds
  | 0x181 => r.store.map .laneSts
  | 0x182 => r.load.map .ldg
  | 0x183 => r.store.map .stg
  | 0x184 => r.load.map .laneLdc
  | 0x1C0 => r.atom.map .laneAtomAdd
  | 0x1C1 => r.atom.map .laneAtomMin
  | 0x1C2 => r.atom.map .laneAtomMax
  | 0x1C3 => r.atom.map .laneAtomUmin
  | 0x1C4 => r.atom.map .laneAtomUmax
  | 0x1C5 => r.atom.map .laneAtomAnd
  | 0x1C6 => r.atom.map .laneAtomOr
  | 0x1C7 => r.atom.map .laneAtomXor
  | 0x1C8 => r.atom.map .laneAtomXchg
  | 0x1C9 => r.atom.map .laneAtomCas
  | 0x1CA => r.atom.map .laneAtomFadd
  | 0x1CB => r.atom.map .laneLdacq
  | 0x1CC => r.atom.map .laneStrel
  | 0x1CD => r.fence
  | 0x200 => r.accRead.map .accrd
  | 0x201 => r.accWrite.map .accwr
  | 0x202 => r.accWrite.map .accadd
  | 0x240 => r.gather
  | _ => .error .illegalCell

/-- A lane word's fields as an instruction, or why they are not one. -/
def decodeRaw (r : LaneRaw) : Except DecodeError Instr := checked (laneFields r)

/-- A lane word's instruction, or why it is not one. -/
def decodeLane (w : LaneWord) : Except DecodeError Instr := decodeRaw (.unpack w)

/-- The instruction the decoder reads from a word of the opcode table: 32 bits are a scalar word,
96 bits a lane word. -/
def decodeTableWord (nbits w : Nat) : Option Instr :=
  if nbits ≤ 32 then (decodeScalar (BitVec.ofNat 32 w)).toOption
  else if nbits ≤ 96 then (decodeLane (BitVec.ofNat 96 w)).toOption
  else none

/-! ### The encoder -/

def srWord (op : BitVec 7) (xd xa xb : BitVec 6) (fn : BitVec 5) (s : BitVec 2) : ScalarWord :=
  op ++ xd ++ xa ++ xb ++ fn ++ s

def siWord (op : BitVec 7) (xd xa : BitVec 6) (imm : BitVec 11) (s : BitVec 2) : ScalarWord :=
  op ++ xd ++ xa ++ imm ++ s

def slWord (op : BitVec 7) (xd : BitVec 6) (imm : BitVec 17) (s : BitVec 2) : ScalarWord :=
  op ++ xd ++ imm ++ s

def sbWord (op : BitVec 7) (xa xb : BitVec 6) (imm : BitVec 11) (s : BitVec 2) : ScalarWord :=
  op ++ xa ++ xb ++ imm ++ s

def litWord (i : BitVec 25) : ScalarWord := 0x7F#7 ++ i

/-- The scalar word of an instruction of the scalar stream. -/
def scalarWord : Instr → Option ScalarWord
  | .add d a b s => some (srWord 0x00 d a b 0 s)
  | .sub d a b s => some (srWord 0x01 d a b 0 s)
  | .mul d a b s => some (srWord 0x02 d a b 0 s)
  | .mulh d a b s => some (srWord 0x02 d a b 1 s)
  | .mulhu d a b s => some (srWord 0x02 d a b 2 s)
  | .div d a b s => some (srWord 0x03 d a b 0 s)
  | .divu d a b s => some (srWord 0x03 d a b 1 s)
  | .rem d a b s => some (srWord 0x04 d a b 0 s)
  | .remu d a b s => some (srWord 0x04 d a b 1 s)
  | .and d a b s => some (srWord 0x05 d a b 0 s)
  | .or d a b s => some (srWord 0x06 d a b 0 s)
  | .xor d a b s => some (srWord 0x07 d a b 0 s)
  | .shl d a b s => some (srWord 0x08 d a b 0 s)
  | .shr d a b s => some (srWord 0x09 d a b 0 s)
  | .sar d a b s => some (srWord 0x09 d a b 1 s)
  | .min d a b s => some (srWord 0x0A d a b 0 s)
  | .minu d a b s => some (srWord 0x0A d a b 1 s)
  | .max d a b s => some (srWord 0x0B d a b 0 s)
  | .maxu d a b s => some (srWord 0x0B d a b 1 s)
  | .cmp d a b c s => some (srWord 0x0C d a b c s)
  | .sel d a b c s => some (srWord 0x0D d a b c s)
  | .clz d a s => some (srWord 0x0E d a 0 0 s)
  | .ctz d a s => some (srWord 0x0E d a 0 1 s)
  | .popc d a s => some (srWord 0x0E d a 0 2 s)
  | .addi d a i s => some (siWord 0x10 d a i s)
  | .andi d a i s => some (siWord 0x11 d a i s)
  | .ori d a i s => some (siWord 0x12 d a i s)
  | .xori d a i s => some (siWord 0x13 d a i s)
  | .shli d a h s => some (siWord 0x14 d a (0#5 ++ h) s)
  | .shri d a h s => some (siWord 0x15 d a (0#5 ++ h) s)
  | .sari d a h s => some (siWord 0x16 d a (0#5 ++ h) s)
  | .slti d a i s => some (siWord 0x17 d a i s)
  | .sltiu d a i s => some (siWord 0x18 d a i s)
  | .muli d a i s => some (siWord 0x19 d a i s)
  | .movpc d i s => some (slWord 0x1A d i s)
  | .ldb d a i s => some (siWord 0x20 d a i s)
  | .ldbu d a i s => some (siWord 0x21 d a i s)
  | .ldh d a i s => some (siWord 0x22 d a i s)
  | .ldhu d a i s => some (siWord 0x23 d a i s)
  | .ldw d a i s => some (siWord 0x24 d a i s)
  | .ldwu d a i s => some (siWord 0x25 d a i s)
  | .ldd d a i s => some (siWord 0x26 d a i s)
  | .stb d a i s => some (siWord 0x27 d a i s)
  | .sth d a i s => some (siWord 0x28 d a i s)
  | .stw d a i s => some (siWord 0x29 d a i s)
  | .std d a i s => some (siWord 0x2A d a i s)
  | .lds d a i s => some (siWord 0x2B d a i s)
  | .sts d a i s => some (siWord 0x2C d a i s)
  | .ldc d a i s => some (siWord 0x2D d a i s)
  | .beq a b o s => some (sbWord 0x30 a b o s)
  | .bne a b o s => some (sbWord 0x31 a b o s)
  | .blt a b o s => some (sbWord 0x32 a b o s)
  | .bge a b o s => some (sbWord 0x33 a b o s)
  | .bltu a b o s => some (sbWord 0x34 a b o s)
  | .bgeu a b o s => some (sbWord 0x35 a b o s)
  | .jal d i s => some (slWord 0x36 d i s)
  | .jalr d a i s => some (siWord 0x37 d a i s)
  | .lrun a i s => some (siWord 0x40 0 a i s)
  | .lgo s => some (srWord 0x41 0 0 0 0 s)
  | .lwait d a i s => some (siWord 0x42 d a i s)
  | .movxw d a s => some (srWord 0x43 (0#2 ++ d) a 0 0 s)
  | .movwx d a s => some (srWord 0x43 d (0#2 ++ a) 0 1 s)
  | .setfmt a m s => some (siWord 0x44 0 a (0#5 ++ m) s)
  | .bara n a s => some (srWord 0x45 (0#2 ++ n) a 0 0 s)
  | .barw n s => some (srWord 0x45 (0#2 ++ n) 0 0 1 s)
  | .bars n a s => some (srWord 0x45 (0#2 ++ n) a 0 2 s)
  | .waitm d a b w c s => some (srWord 0x46 d a b (0#2 ++ w ++ c) s)
  | .yield s => some (srWord 0x47 0 0 0 0 s)
  | .exit s => some (srWord 0x47 0 0 0 1 s)
  | .mloadFp a s => some (srWord 0x48 0 a 0 0 s)
  | .mloadTern a s => some (srWord 0x48 0 a 0 1 s)
  | .mflipFp s => some (srWord 0x49 0 0 0 0 s)
  | .mflipTern s => some (srWord 0x49 0 0 0 1 s)
  | .mmul t a s => some (srWord 0x4A (0#2 ++ t) a 0 0 s)
  | .mtern t a s => some (srWord 0x4B (0#2 ++ t) a 0 0 s)
  | .mzero t s => some (srWord 0x4C (0#2 ++ t) 0 0 0 s)
  | .mdrain t a s => some (srWord 0x4C (0#2 ++ t) a 0 1 s)
  | .mfence d s => some (srWord 0x4D d 0 0 0 s)
  | .mwait a s => some (srWord 0x4D 0 a 0 1 s)
  | .mgrow d a b s => some (srWord 0x4D d a b 2 s)
  | .cpgo a s => some (srWord 0x4E 0 a 0 0 s)
  | .waitc c a s => some (srWord 0x4E (0#4 ++ c) a 0 1 s)
  | .pbinit a b s => some (srWord 0x4F 0 a b 0 s)
  | .pbarv d a b s => some (srWord 0x4F d a b 1 s)
  | .pbwait d a b s => some (srWord 0x4F d a b 2 s)
  | .atomAdd d a b w p s => some (srWord 0x50 d a b (0#1 ++ w ++ p) s)
  | .atomXchg d a b w p s => some (srWord 0x50 d a b (1#1 ++ w ++ p) s)
  | .atomMin d a b w p s => some (srWord 0x51 d a b (0#1 ++ w ++ p) s)
  | .atomMax d a b w p s => some (srWord 0x51 d a b (1#1 ++ w ++ p) s)
  | .atomUmin d a b w p s => some (srWord 0x52 d a b (0#1 ++ w ++ p) s)
  | .atomUmax d a b w p s => some (srWord 0x52 d a b (1#1 ++ w ++ p) s)
  | .atomAnd d a b w p s => some (srWord 0x53 d a b (0#1 ++ w ++ p) s)
  | .atomOr d a b w p s => some (srWord 0x53 d a b (1#1 ++ w ++ p) s)
  | .atomXor d a b w p s => some (srWord 0x54 d a b (0#1 ++ w ++ p) s)
  | .atomCas d a b w p s => some (srWord 0x55 d a (b ++ 0#1) (0#1 ++ w ++ p) s)
  | .ldacq d a w p s => some (srWord 0x56 d a 0 (0#1 ++ w ++ p) s)
  | .strel a b w p s => some (srWord 0x57 0 a b (0#1 ++ w ++ p) s)
  | .fenceFull p s => some (srWord 0x58 0 0 0 (0#2 ++ p) s)
  | .fenceAcq p s => some (srWord 0x58 0 0 0 (1#2 ++ p) s)
  | .fenceRel p s => some (srWord 0x58 0 0 0 (2#2 ++ p) s)
  | .cwb p a b s => some (srWord 0x59 (0#3 ++ p) a b 0 s)
  | .cinv p a b s => some (srWord 0x59 (0#3 ++ p) a b 1 s)
  | .cwbi p a b s => some (srWord 0x59 (0#3 ++ p) a b 2 s)
  | .pfh d a b s => some (srWord 0x5A d a b 0 s)
  | .wpost a b s => some (srWord 0x5B 0 a (b ++ 0#1) 0 s)
  | .wget a b s => some (srWord 0x5C 0 a (b ++ 0#1) 0 s)
  | .wcntw d a b s => some (srWord 0x5D d a b 0 s)
  | .sigrel p a b s => some (srWord 0x5E (0#3 ++ p) a b 0 s)
  | .sigacq d a p s => some (srWord 0x5E d a (0#3 ++ p) 1 s)
  | .mfsr d r s => some (siWord 0x60 d 0 (0#1 ++ r) s)
  | .mtsr a r s => some (siWord 0x61 0 a (0#1 ++ r) s)
  | .trap c s => some (siWord 0x62 0 0 c s)
  | .tret s => some (srWord 0x63 0 0 0 0 s)
  | .trun a b s => some (srWord 0x63 0 a b 1 s)
  | .rgn s => some (srWord 0x64 0 0 0 0 s)
  | .mapft d a s => some (srWord 0x65 d a 0 0 s)
  | .park s => some (srWord 0x66 0 0 0 0 s)
  | .parkTerm s => some (srWord 0x66 0 0 0 1 s)
  | .tlbiR d a b s => some (srWord 0x67 d a b 0 s)
  | .tlbiCtx d s => some (srWord 0x67 d 0 0 1 s)
  | .brkpt c s => some (siWord 0x68 0 0 c s)
  | .pgfill d a s => some (srWord 0x69 d a 0 0 s)
  | .pgevict d a s => some (srWord 0x69 d a 0 1 s)
  | .pgmove d a b s => some (srWord 0x69 d a (b ++ 0#1) 2 s)
  | .pgupg d a s => some (srWord 0x69 d a 0 3 s)
  | .leaseopRenew d a b s => some (srWord 0x6A d a b 0 s)
  | .leaseopQuery d a b s => some (srWord 0x6A d a b 1 s)
  | .leaseopRelease d a b s => some (srWord 0x6A d a b 2 s)
  | .leaseopAckwarn d a b s => some (srWord 0x6A d a b 3 s)
  | .cins d a b s => some (srWord 0x6B (d ++ 0#2) a b 0 s)
  | .cnode d a b s => some (srWord 0x6B (d ++ 0#2) a b 1 s)
  | .cref d a b s => some (srWord 0x6B (d ++ 0#2) (a ++ 0#1) b 2 s)
  | .cunref d a b s => some (srWord 0x6B (d ++ 0#2) (a ++ 0#1) b 3 s)
  | .cswap d a b s => some (srWord 0x6B (d ++ 0#2) (a ++ 0#1) (b ++ 0#2) 4 s)
  | .cbind d a b s => some (srWord 0x6B (d ++ 0#2) (a ++ 0#1) (b ++ 0#1) 5 s)
  | .cunbind d a s => some (srWord 0x6B (d ++ 0#2) a 0 6 s)
  | .ccopy d a b s => some (srWord 0x6B (d ++ 0#2) (a ++ 0#1) (b ++ 0#1) 7 s)
  | .cstat d a b s => some (srWord 0x6B (d ++ 0#2) (a ++ 0#1) b 8 s)
  | .ctxnew d a s => some (srWord 0x6C (d ++ 0#1) a 0 0 s)
  | .ctxgrant d a b s => some (srWord 0x6C (d ++ 0#1) a b 1 s)
  | .ctxrevoke d a b s => some (srWord 0x6C (d ++ 0#1) a b 2 s)
  | .ctxbudg d a b s => some (srWord 0x6C (d ++ 0#1) a b 3 s)
  | .ctxq d a b s => some (srWord 0x6C (d ++ 0#1) a b 4 s)
  | .ctxinfo d a b s => some (srWord 0x6C (d ++ 0#1) (a ++ 0#1) b 5 s)
  | .ctxkill d a s => some (srWord 0x6C (d ++ 0#1) a 0 6 s)
  | .rflt d a b s => some (srWord 0x6C (d ++ 0#1) a b 7 s)
  | .lit i => some (litWord i)
  | .iadd _ => none
  | .isub _ => none
  | .imul _ => none
  | .imulh _ => none
  | .imad _ => none
  | .idiv _ => none
  | .irem _ => none
  | .imin _ => none
  | .imax _ => none
  | .laneAnd _ => none
  | .laneOr _ => none
  | .laneXor _ => none
  | .laneShl _ => none
  | .laneShr _ => none
  | .bfe _ => none
  | .bfi _ => none
  | .lanePopc _ => none
  | .laneClz _ => none
  | .isetp _ => none
  | .fadd _ => none
  | .fsub _ => none
  | .fmul _ => none
  | .ffma _ => none
  | .fmin _ => none
  | .fmax _ => none
  | .frcp _ => none
  | .fsqrt _ => none
  | .frsq _ => none
  | .fexp2 _ => none
  | .flog2 _ => none
  | .fsetp _ => none
  | .padd _ => none
  | .psub _ => none
  | .pmul _ => none
  | .pfma _ => none
  | .pmin _ => none
  | .pmax _ => none
  | .dotb _ => none
  | .doth _ => none
  | .cvt _ => none
  | .cvtn _ => none
  | .cvtw _ => none
  | .laneMov _ => none
  | .laneSel _ => none
  | .xlane _ => none
  | .lred _ => none
  | .vote _ => none
  | .kmix _ => none
  | .lmfsr _ => none
  | .scan _ => none
  | .bru _ _ => none
  | .brd _ _ => none
  | .join _ => none
  | .lfmt _ _ => none
  | .lstop _ => none
  | .lhold _ => none
  | .lsig _ _ => none
  | .laneBara _ _ _ => none
  | .laneBarw _ _ => none
  | .laneBars _ _ _ => none
  | .lnop _ => none
  | .laneLds _ => none
  | .laneSts _ => none
  | .ldg _ => none
  | .stg _ => none
  | .laneLdc _ => none
  | .laneAtomAdd _ => none
  | .laneAtomMin _ => none
  | .laneAtomMax _ => none
  | .laneAtomUmin _ => none
  | .laneAtomUmax _ => none
  | .laneAtomAnd _ => none
  | .laneAtomOr _ => none
  | .laneAtomXor _ => none
  | .laneAtomXchg _ => none
  | .laneAtomCas _ => none
  | .laneAtomFadd _ => none
  | .laneLdacq _ => none
  | .laneStrel _ => none
  | .laneFenceFull _ _ => none
  | .laneFenceAcq _ _ => none
  | .laneFenceRel _ _ => none
  | .accrd _ => none
  | .accwr _ => none
  | .accadd _ => none
  | .ldgT _ _ => none
  | .scalarIssueDecision _ _ => none
  | .laneIssueDecision _ _ => none
  | .candidateAges _ => none
  | .variableLatencyResult _ _ => none
  | .lwaitResume _ _ => none
  | .barrierWaitResume _ => none
  | .waitmReread _ => none
  | .pbwaitResume _ _ => none
  | .wcntwResume _ _ => none
  | .mwaitResume _ _ => none
  | .waitcResume _ _ => none
  | .exitResume _ _ => none
  | .armExchange _ _ => none
  | .handlerEntry _ _ => none
  | .pendingFaultTaken _ _ _ => none
  | .ringWriteRetry _ => none
  | .fieldPlace _ => none
  | .fieldSwapOut _ => none
  | .urgentClaim _ _ => none
  | .registerLineScanOut _ _ => none
  | .tenantSliceEnd _ _ _ => none
  | .reconvWaitExpire _ => none
  | .budgetPeriodBoundary => none
  | .matrixKstepComplete _ _ => none
  | .matrixOpComplete _ _ => none
  | .matrixOpPause _ _ => none
  | .chainCopy _ _ _ => none
  | .chainGather _ _ _ => none
  | .chainLoop _ _ _ => none
  | .chainSkipif _ _ _ => none
  | .chainArrive _ _ _ => none
  | .chainEnd _ _ _ => none
  | .chainComplete _ _ => none
  | .wpostComplete _ _ => none
  | .wgetComplete _ _ => none
  | .pfhComplete _ _ => none
  | .ccopyComplete _ _ _ => none
  | .walkComplete _ _ _ => none
  | .cacheWriteback _ _ _ _ => none
  | .cacheEvict _ _ _ _ => none
  | .pageFillStart _ => none
  | .pageFillComplete _ => none
  | .serviceRecordAdmit _ => none
  | .deq _ => none
  | .deqTimeout _ => none
  | .pagerCompleteRetry _ _ => none
  | .pagerCompleteBind _ _ => none
  | .pagerCompleteTerminal _ _ => none
  | .pagerCompleteReserved _ _ _ => none
  | .checkpointStart _ _ => none
  | .checkpointComplete => none
  | .leaseDbaseWrite _ _ => none
  | .routeWrite _ _ => none
  | .frameRoleWrite _ _ _ => none
  | .pagerWindowWrite _ _ _ => none
  | .pagerRestart _ => none
  | .leaseWarn _ => none
  | .leaseWarnRepeat _ => none
  | .leaseExpire _ => none
  | .grant _ _ _ _ _ _ => none
  | .renewAck _ _ => none
  | .renewNak _ => none
  | .revoke _ => none
  | .revokeAck _ => none
  | .releaseAck _ => none
  | .nodeDown _ => none
  | .leaseMessageInvalid _ => none
  | .leaseopTimeout _ => none
  | .pgmoveSwitch _ => none
  | .upg _ _ => none
  | .bisnpinvblk _ _ => none
  | .birspiblk _ _ => none
  | .upgCmp _ _ => none
  | .snoopTimeout _ _ => none
  | .bisnpdata _ _ => none
  | .hostSnoopResponse _ _ _ _ => none
  | .cxlMemRequest _ _ _ _ _ => none
  | .unsupportedFeatureRequest _ => none
  | .wreg _ _ _ _ _ _ => none
  | .wregAck _ _ _ => none
  | .wregNak _ _ _ => none
  | .wregTimeout _ _ => none
  | .vendorMessageInvalid _ => none
  | .apertureAccess _ _ _ _ => none
  | .apertureResponse _ _ _ _ => none
  | .windowArrivalWrite _ _ _ => none
  | .heartbeat => none
  | .agentDead _ => none
  | .teaselDirectoryWalk _ => none
  | .directoryEccError _ => none
  | .portRetrain _ => none
  | .contentReclaim _ => none
  | .contextScrubUnit _ => none
  | .contextScrubComplete _ => none
  | .regionScrubComplete _ => none
  | .enqueue _ _ _ _ _ => none
  | .barUnsupportedAccess _ _ _ => none
  | .agentClaim _ => none
  | .launchCheck _ => none
  | .manageExecute _ => none
  | .launchComplete _ => none
  | .agentMismatch _ => none
  | .debugStop _ _ _ _ => none
  | .debugRelease _ _ _ _ => none
  | .counterClear _ => none
  | .logModeWrite _ _ _ => none
  | .counterBankWrite _ _ _ => none
  | .deviceReset => none
  | .bootStepComplete _ => none
  | .mctpControl => none
  | .getVersion => none
  | .getCapabilities => none
  | .negotiateAlgorithms => none
  | .getDigests => none
  | .getCertificate => none
  | .challenge => none
  | .getMeasurements => none
  | .keyExchange => none
  | .finish => none
  | .endSession => none
  | .regionCreate _ _ _ _ _ _ _ => none
  | .regionDestroy _ _ => none
  | .vfBind _ _ _ => none
  | .llcCarve _ _ _ => none
  | .bankCarve _ _ _ _ => none
  | .logRead _ _ => none
  | .updateStage _ _ _ _ => none
  | .sensorRead _ _ => none
  | .keyReplace _ _ _ => none
  | .powerSample _ => none
  | .temperatureSample _ => none
  | .correctedError _ _ => none
  | .uncorrectableError _ _ _ => none
  | .unitTestComplete _ _ _ => none
  | .tagParityError _ _ _ => none
  | .heartbeatReceive _ => none
  | .hostLinkDown => none
  | .powerLoss => none
  | .localFrameScrub _ => none
  | .releasedBankZero _ _ => none
  | .context0RingsSet _ _ _ _ => none

/-- The lane word with the given fields (R20). -/
def LaneRaw.pack (r : LaneRaw) : LaneWord :=
  r.op ++ r.vd ++ r.va ++ r.vb ++ r.vc ++ r.hdr.guard ++ bitOf r.hdr.neg ++ r.hdr.stall
    ++ bitOf r.hdr.mark ++ r.ty ++ r.mods ++ r.imm

/-- The code of a type (R22). -/
def LTy.code : LTy → BitVec 4
  | .none => 0 | .n32 => 1 | .s32 => 2 | .n64 => 3 | .s64 => 4 | .f32 => 5 | .bf16x2 => 6
  | .f16x2 => 7 | .n16x2 => 8 | .s16x2 => 9 | .n8x4 => 10 | .s8x4 => 11

/-- The kind of an operand (R23). -/
def Opnd.kind : Opnd → BitVec 2
  | .reg _ => 0
  | .uni _ => 1
  | .imm _ => 2

/-- The register field of an operand (R23). -/
def Opnd.field : Opnd → BitVec 8
  | .reg r => r
  | .uni w => 0#4 ++ w
  | .imm _ => 0

/-- The immediate that an operand puts into imm32, 0 for none. -/
def Opnd.imm32 : Opnd → W32
  | .imm i => i
  | _ => 0

/-- The immediate of two operands of which at most one has one. -/
def imm32Of (b c : Opnd) : W32 := if b.isImm then b.imm32 else c.imm32

/-- The word of an instruction all of whose operand fields are 0. -/
def LaneRaw.plain (op : BitVec 10) (h : LHdr) : LaneRaw :=
  { op := op, vd := 0, va := 0, vb := 0, vc := 0, hdr := h, ty := 0, mods := 0, imm := 0 }

/-- Layout A (R23). -/
def modsA (sub : BitVec 4) (kc kb : BitVec 2) : BitVec 8 := sub ++ kc ++ kb

def LBin.raw (op : BitVec 10) (o : LBin) : LaneRaw :=
  { op := op, vd := o.vd, va := o.va, vb := o.b.field, vc := 0, hdr := o.h, ty := o.ty.code,
    mods := modsA o.sub 0 o.b.kind, imm := o.b.imm32 }

def LTern.raw (op : BitVec 10) (o : LTern) : LaneRaw :=
  { op := op, vd := o.vd, va := o.va, vb := o.b.field, vc := o.c.field, hdr := o.h, ty := o.ty.code,
    mods := modsA o.sub o.c.kind o.b.kind, imm := imm32Of o.b o.c }

def LUn.raw (op : BitVec 10) (o : LUn) : LaneRaw :=
  { LaneRaw.plain op o.h with vd := o.vd, va := o.va, ty := o.ty.code, mods := modsA o.sub 0 0 }

def LSetp.raw (op : BitVec 10) (o : LSetp) : LaneRaw :=
  { op := op, vd := 0#4 ++ o.kd, va := o.va, vb := o.b.field, vc := 0, hdr := o.h,
    ty := o.ty.code, mods := modsA o.cc 0 o.b.kind, imm := o.b.imm32 }

def LCvt.raw (op : BitVec 10) (o : LCvt) : LaneRaw :=
  { LaneRaw.plain op o.h with vd := o.vd, va := o.va, ty := o.dst.code, mods := modsA o.sub 0 0,
                              imm := 0#28 ++ o.src.code }

def LNarrow.raw (op : BitVec 10) (o : LNarrow) : LaneRaw :=
  { LaneRaw.plain op o.h with vd := o.vd, va := o.va, ty := o.ty.code, mods := modsA o.sub 0 0,
                              imm := 0#24 ++ o.slot ++ o.fmt }

def LMov.raw (op : BitVec 10) (o : LMov) : LaneRaw :=
  { LaneRaw.plain op o.h with vd := o.vd, vb := o.b.field, ty := o.ty.code,
                              mods := modsA 0 0 o.b.kind, imm := o.b.imm32 }

def LSel.raw (op : BitVec 10) (o : LSel) : LaneRaw :=
  { op := op, vd := o.vd, va := 0#4 ++ o.ka, vb := o.b.field, vc := o.c.field, hdr := o.h,
    ty := o.ty.code, mods := modsA 0 o.c.kind o.b.kind, imm := imm32Of o.b o.c }

def LXlane.raw (op : BitVec 10) (o : LXlane) : LaneRaw :=
  { op := op, vd := o.vd, va := o.va, vb := o.b.field, vc := o.c.field, hdr := o.h,
    ty := LTy.n32.code, mods := modsA o.sub o.c.kind o.b.kind, imm := imm32Of o.b o.c }

def LRedOp.raw (op : BitVec 10) (o : LRedOp) : LaneRaw :=
  { LaneRaw.plain op o.h with vd := 0#4 ++ o.wd, va := o.va, ty := o.ty.code,
                              mods := modsA o.op 0 0 }

def LVote.raw (op : BitVec 10) (o : LVote) : LaneRaw :=
  { LaneRaw.plain op o.h with vd := 0#4 ++ o.wd, va := 0#4 ++ o.ka, mods := modsA o.op 0 0,
                              imm := 0#28 ++ o.g }

def LKmix.raw (op : BitVec 10) (o : LKmix) : LaneRaw :=
  { LaneRaw.plain op o.h with vd := 0#4 ++ o.kd, va := 0#4 ++ o.ka, vb := 0#4 ++ o.kb,
                              vc := 0#4 ++ o.kc, imm := 0#23 ++ bitOf o.inv ++ o.table }

def LSysRead.raw (op : BitVec 10) (o : LSysRead) : LaneRaw :=
  { LaneRaw.plain op o.h with vd := o.vd, ty := o.ty.code, imm := 0#22 ++ o.sr }

def LBase.kind : LBase → BitVec 2
  | .pair _ => 0
  | .uni _ => 1

def LBase.field : LBase → BitVec 8
  | .pair r => r
  | .uni w => 0#4 ++ w

/-- Layout M (R24). -/
def MemOp.mods (m : MemOp) (sz : BitVec 3) : BitVec 8 :=
  bitOf m.idx.isSome ++ sz ++ m.sc ++ m.base.kind

/-- A word with a memory operand (R24). -/
def MemOp.raw (m : MemOp) (op : BitVec 10) (h : LHdr) (ty : LTy) (sz : BitVec 3) (vd va : BitVec 8) :
    LaneRaw :=
  { op := op, vd := vd, va := va, vb := m.base.field, vc := m.idx.getD 0, hdr := h, ty := ty.code,
    mods := m.mods sz, imm := m.disp }

def LMem.rawLoad (op : BitVec 10) (o : LMem) : LaneRaw := o.m.raw op o.h .none o.sz o.reg 0
def LMem.rawStore (op : BitVec 10) (o : LMem) : LaneRaw := o.m.raw op o.h .none o.sz 0 o.reg
def LMem.rawGather (kd : BitVec 4) (op : BitVec 10) (o : LMem) : LaneRaw :=
  o.m.raw op o.h .none o.sz o.reg (0#4 ++ kd)
def LAtom.raw (op : BitVec 10) (o : LAtom) : LaneRaw := o.m.raw op o.h o.ty o.scope o.vd o.va

/-- A lane fence of kind `k` (R203). -/
def LaneRaw.ofFence (h : LHdr) (scope : BitVec 3) (k : BitVec 2) : LaneRaw :=
  { LaneRaw.plain 0x1CD h with mods := 0#1 ++ scope ++ 0#4, imm := 0#30 ++ k }

def LAcc.rawWith (op : BitVec 10) (o : LAcc) (vd va : BitVec 8) : LaneRaw :=
  { LaneRaw.plain op o.h with vd := vd, va := va, vb := o.e.field, mods := modsA o.sub 0 o.e.kind,
                              imm := 0#28 ++ o.tile }

def LAcc.rawRead (op : BitVec 10) (o : LAcc) : LaneRaw := o.rawWith op o.reg 0
def LAcc.rawWrite (op : BitVec 10) (o : LAcc) : LaneRaw := o.rawWith op 0 o.reg

def LaneRaw.ofOffset (op : BitVec 10) (h : LHdr) (off : W32) : LaneRaw :=
  { LaneRaw.plain op h with imm := off }

def LaneRaw.ofLfmt (h : LHdr) (w : BitVec 4) : LaneRaw :=
  { LaneRaw.plain 0x143 h with vb := 0#4 ++ w, mods := modsA 0 0 1 }

def LaneRaw.ofLsig (h : LHdr) (n : BitVec 8) : LaneRaw :=
  { LaneRaw.plain 0x146 h with imm := 0#24 ++ n }

def LaneRaw.ofArrive (op : BitVec 10) (h : LHdr) (bar : BitVec 4) (n : Opnd) : LaneRaw :=
  { LaneRaw.plain op h with vd := 0#4 ++ bar, vb := n.field, mods := modsA 0 0 n.kind,
                            imm := n.imm32 }

def LaneRaw.ofBarw (h : LHdr) (bar : BitVec 4) : LaneRaw :=
  { LaneRaw.plain 0x148 h with vd := 0#4 ++ bar }

/-- The fields of the lane word of an instruction of the lane stream. -/
def laneRaw : Instr → Option LaneRaw
  | .iadd o => some (o.raw 0x000)
  | .isub o => some (o.raw 0x001)
  | .imul o => some (o.raw 0x002)
  | .imulh o => some (o.raw 0x003)
  | .imad o => some (o.raw 0x004)
  | .idiv o => some (o.raw 0x005)
  | .irem o => some (o.raw 0x006)
  | .imin o => some (o.raw 0x007)
  | .imax o => some (o.raw 0x008)
  | .laneAnd o => some (o.raw 0x009)
  | .laneOr o => some (o.raw 0x00A)
  | .laneXor o => some (o.raw 0x00B)
  | .laneShl o => some (o.raw 0x00C)
  | .laneShr o => some (o.raw 0x00D)
  | .bfe o => some (o.raw 0x00E)
  | .bfi o => some (o.raw 0x00F)
  | .lanePopc o => some (o.raw 0x010)
  | .laneClz o => some (o.raw 0x011)
  | .isetp o => some (o.raw 0x012)
  | .fadd o => some (o.raw 0x040)
  | .fsub o => some (o.raw 0x041)
  | .fmul o => some (o.raw 0x042)
  | .ffma o => some (o.raw 0x043)
  | .fmin o => some (o.raw 0x044)
  | .fmax o => some (o.raw 0x045)
  | .frcp o => some (o.raw 0x046)
  | .fsqrt o => some (o.raw 0x047)
  | .frsq o => some (o.raw 0x048)
  | .fexp2 o => some (o.raw 0x049)
  | .flog2 o => some (o.raw 0x04A)
  | .fsetp o => some (o.raw 0x04B)
  | .padd o => some (o.raw 0x080)
  | .psub o => some (o.raw 0x081)
  | .pmul o => some (o.raw 0x082)
  | .pfma o => some (o.raw 0x083)
  | .pmin o => some (o.raw 0x084)
  | .pmax o => some (o.raw 0x085)
  | .dotb o => some (o.raw 0x086)
  | .doth o => some (o.raw 0x087)
  | .cvt o => some (o.raw 0x0C0)
  | .cvtn o => some (o.raw 0x0C1)
  | .cvtw o => some (o.raw 0x0C2)
  | .laneMov o => some (o.raw 0x100)
  | .laneSel o => some (o.raw 0x101)
  | .xlane o => some (o.raw 0x102)
  | .lred o => some (o.raw 0x103)
  | .vote o => some (o.raw 0x104)
  | .kmix o => some (o.raw 0x105)
  | .lmfsr o => some (o.raw 0x106)
  | .scan o => some (o.raw 0x107)
  | .bru h off => some (LaneRaw.ofOffset 0x140 h off)
  | .brd h off => some (LaneRaw.ofOffset 0x141 h off)
  | .join h => some (LaneRaw.plain 0x142 h)
  | .lfmt h w => some (LaneRaw.ofLfmt h w)
  | .lstop h => some (LaneRaw.plain 0x144 h)
  | .lhold h => some (LaneRaw.plain 0x145 h)
  | .lsig h n => some (LaneRaw.ofLsig h n)
  | .laneBara h bar n => some (LaneRaw.ofArrive 0x147 h bar n)
  | .laneBarw h bar => some (LaneRaw.ofBarw h bar)
  | .laneBars h bar n => some (LaneRaw.ofArrive 0x149 h bar n)
  | .lnop h => some (LaneRaw.plain 0x14A h)
  | .laneLds o => some (o.rawLoad 0x180)
  | .laneSts o => some (o.rawStore 0x181)
  | .ldg o => some (o.rawLoad 0x182)
  | .stg o => some (o.rawStore 0x183)
  | .laneLdc o => some (o.rawLoad 0x184)
  | .laneAtomAdd o => some (o.raw 0x1C0)
  | .laneAtomMin o => some (o.raw 0x1C1)
  | .laneAtomMax o => some (o.raw 0x1C2)
  | .laneAtomUmin o => some (o.raw 0x1C3)
  | .laneAtomUmax o => some (o.raw 0x1C4)
  | .laneAtomAnd o => some (o.raw 0x1C5)
  | .laneAtomOr o => some (o.raw 0x1C6)
  | .laneAtomXor o => some (o.raw 0x1C7)
  | .laneAtomXchg o => some (o.raw 0x1C8)
  | .laneAtomCas o => some (o.raw 0x1C9)
  | .laneAtomFadd o => some (o.raw 0x1CA)
  | .laneLdacq o => some (o.raw 0x1CB)
  | .laneStrel o => some (o.raw 0x1CC)
  | .laneFenceFull h scope => some (LaneRaw.ofFence h scope 0)
  | .laneFenceAcq h scope => some (LaneRaw.ofFence h scope 1)
  | .laneFenceRel h scope => some (LaneRaw.ofFence h scope 2)
  | .accrd o => some (o.rawRead 0x200)
  | .accwr o => some (o.rawWrite 0x201)
  | .accadd o => some (o.rawWrite 0x202)
  | .ldgT o kd => some (o.rawGather kd 0x240)
  | .add _ _ _ _ => none
  | .sub _ _ _ _ => none
  | .mul _ _ _ _ => none
  | .mulh _ _ _ _ => none
  | .mulhu _ _ _ _ => none
  | .div _ _ _ _ => none
  | .divu _ _ _ _ => none
  | .rem _ _ _ _ => none
  | .remu _ _ _ _ => none
  | .and _ _ _ _ => none
  | .or _ _ _ _ => none
  | .xor _ _ _ _ => none
  | .shl _ _ _ _ => none
  | .shr _ _ _ _ => none
  | .sar _ _ _ _ => none
  | .min _ _ _ _ => none
  | .minu _ _ _ _ => none
  | .max _ _ _ _ => none
  | .maxu _ _ _ _ => none
  | .cmp _ _ _ _ _ => none
  | .sel _ _ _ _ _ => none
  | .clz _ _ _ => none
  | .ctz _ _ _ => none
  | .popc _ _ _ => none
  | .addi _ _ _ _ => none
  | .andi _ _ _ _ => none
  | .ori _ _ _ _ => none
  | .xori _ _ _ _ => none
  | .shli _ _ _ _ => none
  | .shri _ _ _ _ => none
  | .sari _ _ _ _ => none
  | .slti _ _ _ _ => none
  | .sltiu _ _ _ _ => none
  | .muli _ _ _ _ => none
  | .movpc _ _ _ => none
  | .ldb _ _ _ _ => none
  | .ldbu _ _ _ _ => none
  | .ldh _ _ _ _ => none
  | .ldhu _ _ _ _ => none
  | .ldw _ _ _ _ => none
  | .ldwu _ _ _ _ => none
  | .ldd _ _ _ _ => none
  | .stb _ _ _ _ => none
  | .sth _ _ _ _ => none
  | .stw _ _ _ _ => none
  | .std _ _ _ _ => none
  | .lds _ _ _ _ => none
  | .sts _ _ _ _ => none
  | .ldc _ _ _ _ => none
  | .beq _ _ _ _ => none
  | .bne _ _ _ _ => none
  | .blt _ _ _ _ => none
  | .bge _ _ _ _ => none
  | .bltu _ _ _ _ => none
  | .bgeu _ _ _ _ => none
  | .jal _ _ _ => none
  | .jalr _ _ _ _ => none
  | .lrun _ _ _ => none
  | .lgo _ => none
  | .lwait _ _ _ _ => none
  | .movxw _ _ _ => none
  | .movwx _ _ _ => none
  | .setfmt _ _ _ => none
  | .bara _ _ _ => none
  | .barw _ _ => none
  | .bars _ _ _ => none
  | .waitm _ _ _ _ _ _ => none
  | .yield _ => none
  | .exit _ => none
  | .mloadFp _ _ => none
  | .mloadTern _ _ => none
  | .mflipFp _ => none
  | .mflipTern _ => none
  | .mmul _ _ _ => none
  | .mtern _ _ _ => none
  | .mzero _ _ => none
  | .mdrain _ _ _ => none
  | .mfence _ _ => none
  | .mwait _ _ => none
  | .mgrow _ _ _ _ => none
  | .cpgo _ _ => none
  | .waitc _ _ _ => none
  | .pbinit _ _ _ => none
  | .pbarv _ _ _ _ => none
  | .pbwait _ _ _ _ => none
  | .atomAdd _ _ _ _ _ _ => none
  | .atomXchg _ _ _ _ _ _ => none
  | .atomMin _ _ _ _ _ _ => none
  | .atomMax _ _ _ _ _ _ => none
  | .atomUmin _ _ _ _ _ _ => none
  | .atomUmax _ _ _ _ _ _ => none
  | .atomAnd _ _ _ _ _ _ => none
  | .atomOr _ _ _ _ _ _ => none
  | .atomXor _ _ _ _ _ _ => none
  | .atomCas _ _ _ _ _ _ => none
  | .ldacq _ _ _ _ _ => none
  | .strel _ _ _ _ _ => none
  | .fenceFull _ _ => none
  | .fenceAcq _ _ => none
  | .fenceRel _ _ => none
  | .cwb _ _ _ _ => none
  | .cinv _ _ _ _ => none
  | .cwbi _ _ _ _ => none
  | .pfh _ _ _ _ => none
  | .wpost _ _ _ => none
  | .wget _ _ _ => none
  | .wcntw _ _ _ _ => none
  | .sigrel _ _ _ _ => none
  | .sigacq _ _ _ _ => none
  | .mfsr _ _ _ => none
  | .mtsr _ _ _ => none
  | .trap _ _ => none
  | .tret _ => none
  | .trun _ _ _ => none
  | .rgn _ => none
  | .mapft _ _ _ => none
  | .park _ => none
  | .parkTerm _ => none
  | .tlbiR _ _ _ _ => none
  | .tlbiCtx _ _ => none
  | .brkpt _ _ => none
  | .pgfill _ _ _ => none
  | .pgevict _ _ _ => none
  | .pgmove _ _ _ _ => none
  | .pgupg _ _ _ => none
  | .leaseopRenew _ _ _ _ => none
  | .leaseopQuery _ _ _ _ => none
  | .leaseopRelease _ _ _ _ => none
  | .leaseopAckwarn _ _ _ _ => none
  | .cins _ _ _ _ => none
  | .cnode _ _ _ _ => none
  | .cref _ _ _ _ => none
  | .cunref _ _ _ _ => none
  | .cswap _ _ _ _ => none
  | .cbind _ _ _ _ => none
  | .cunbind _ _ _ => none
  | .ccopy _ _ _ _ => none
  | .cstat _ _ _ _ => none
  | .ctxnew _ _ _ => none
  | .ctxgrant _ _ _ _ => none
  | .ctxrevoke _ _ _ _ => none
  | .ctxbudg _ _ _ _ => none
  | .ctxq _ _ _ _ => none
  | .ctxinfo _ _ _ _ => none
  | .ctxkill _ _ _ => none
  | .rflt _ _ _ _ => none
  | .lit _ => none
  | .scalarIssueDecision _ _ => none
  | .laneIssueDecision _ _ => none
  | .candidateAges _ => none
  | .variableLatencyResult _ _ => none
  | .lwaitResume _ _ => none
  | .barrierWaitResume _ => none
  | .waitmReread _ => none
  | .pbwaitResume _ _ => none
  | .wcntwResume _ _ => none
  | .mwaitResume _ _ => none
  | .waitcResume _ _ => none
  | .exitResume _ _ => none
  | .armExchange _ _ => none
  | .handlerEntry _ _ => none
  | .pendingFaultTaken _ _ _ => none
  | .ringWriteRetry _ => none
  | .fieldPlace _ => none
  | .fieldSwapOut _ => none
  | .urgentClaim _ _ => none
  | .registerLineScanOut _ _ => none
  | .tenantSliceEnd _ _ _ => none
  | .reconvWaitExpire _ => none
  | .budgetPeriodBoundary => none
  | .matrixKstepComplete _ _ => none
  | .matrixOpComplete _ _ => none
  | .matrixOpPause _ _ => none
  | .chainCopy _ _ _ => none
  | .chainGather _ _ _ => none
  | .chainLoop _ _ _ => none
  | .chainSkipif _ _ _ => none
  | .chainArrive _ _ _ => none
  | .chainEnd _ _ _ => none
  | .chainComplete _ _ => none
  | .wpostComplete _ _ => none
  | .wgetComplete _ _ => none
  | .pfhComplete _ _ => none
  | .ccopyComplete _ _ _ => none
  | .walkComplete _ _ _ => none
  | .cacheWriteback _ _ _ _ => none
  | .cacheEvict _ _ _ _ => none
  | .pageFillStart _ => none
  | .pageFillComplete _ => none
  | .serviceRecordAdmit _ => none
  | .deq _ => none
  | .deqTimeout _ => none
  | .pagerCompleteRetry _ _ => none
  | .pagerCompleteBind _ _ => none
  | .pagerCompleteTerminal _ _ => none
  | .pagerCompleteReserved _ _ _ => none
  | .checkpointStart _ _ => none
  | .checkpointComplete => none
  | .leaseDbaseWrite _ _ => none
  | .routeWrite _ _ => none
  | .frameRoleWrite _ _ _ => none
  | .pagerWindowWrite _ _ _ => none
  | .pagerRestart _ => none
  | .leaseWarn _ => none
  | .leaseWarnRepeat _ => none
  | .leaseExpire _ => none
  | .grant _ _ _ _ _ _ => none
  | .renewAck _ _ => none
  | .renewNak _ => none
  | .revoke _ => none
  | .revokeAck _ => none
  | .releaseAck _ => none
  | .nodeDown _ => none
  | .leaseMessageInvalid _ => none
  | .leaseopTimeout _ => none
  | .pgmoveSwitch _ => none
  | .upg _ _ => none
  | .bisnpinvblk _ _ => none
  | .birspiblk _ _ => none
  | .upgCmp _ _ => none
  | .snoopTimeout _ _ => none
  | .bisnpdata _ _ => none
  | .hostSnoopResponse _ _ _ _ => none
  | .cxlMemRequest _ _ _ _ _ => none
  | .unsupportedFeatureRequest _ => none
  | .wreg _ _ _ _ _ _ => none
  | .wregAck _ _ _ => none
  | .wregNak _ _ _ => none
  | .wregTimeout _ _ => none
  | .vendorMessageInvalid _ => none
  | .apertureAccess _ _ _ _ => none
  | .apertureResponse _ _ _ _ => none
  | .windowArrivalWrite _ _ _ => none
  | .heartbeat => none
  | .agentDead _ => none
  | .teaselDirectoryWalk _ => none
  | .directoryEccError _ => none
  | .portRetrain _ => none
  | .contentReclaim _ => none
  | .contextScrubUnit _ => none
  | .contextScrubComplete _ => none
  | .regionScrubComplete _ => none
  | .enqueue _ _ _ _ _ => none
  | .barUnsupportedAccess _ _ _ => none
  | .agentClaim _ => none
  | .launchCheck _ => none
  | .manageExecute _ => none
  | .launchComplete _ => none
  | .agentMismatch _ => none
  | .debugStop _ _ _ _ => none
  | .debugRelease _ _ _ _ => none
  | .counterClear _ => none
  | .logModeWrite _ _ _ => none
  | .counterBankWrite _ _ _ => none
  | .deviceReset => none
  | .bootStepComplete _ => none
  | .mctpControl => none
  | .getVersion => none
  | .getCapabilities => none
  | .negotiateAlgorithms => none
  | .getDigests => none
  | .getCertificate => none
  | .challenge => none
  | .getMeasurements => none
  | .keyExchange => none
  | .finish => none
  | .endSession => none
  | .regionCreate _ _ _ _ _ _ _ => none
  | .regionDestroy _ _ => none
  | .vfBind _ _ _ => none
  | .llcCarve _ _ _ => none
  | .bankCarve _ _ _ _ => none
  | .logRead _ _ => none
  | .updateStage _ _ _ _ => none
  | .sensorRead _ _ => none
  | .keyReplace _ _ _ => none
  | .powerSample _ => none
  | .temperatureSample _ => none
  | .correctedError _ _ => none
  | .uncorrectableError _ _ _ => none
  | .unitTestComplete _ _ _ => none
  | .tagParityError _ _ _ => none
  | .heartbeatReceive _ => none
  | .hostLinkDown => none
  | .powerLoss => none
  | .localFrameScrub _ => none
  | .releasedBankZero _ _ => none
  | .context0RingsSet _ _ _ _ => none

/-- A word of one of the two streams. -/
inductive Code
  | scalar (w : ScalarWord)
  | lane (w : LaneWord)
  deriving DecidableEq, Repr

/-- The word of an instruction; none for the steps of the device that have no encoding. -/
def encode (i : Instr) : Option Code :=
  match scalarWord i with
  | some w => some (.scalar w)
  | none => (laneRaw i).map (fun r => .lane r.pack)

/-- The instruction a word of either stream is, or why it is not one. -/
def decode : Code → Except DecodeError Instr
  | .scalar w => decodeScalar w
  | .lane w => decodeLane w

end Sys2Proof
end

