-- ==== Sys2Proof/Machine/Fetch.lean ====
section
/-! DEFINITION. Fetching the bytes of an instruction: a scalar word at a VA, a lane word at a lane PC,
a word of a pager core's SRAM (R16, R20, R91, R234, R301). -/

namespace Sys2Proof.Machine
open Sys2Proof

/-- The outcome of a fetch. -/
inductive Fetched (α : Type)
  | word (w : α) (s : State)
  | trap (r : Raise)
  /-- Nothing is fetched; the fetch is tried again. -/
  | hold (s : State)

/-- The scalar word `off` bytes past the PC. -/
def fetchScalar (s : State) (F : Focus) (w : Swath) (off : Nat) : Fetched ScalarWord :=
  let pc := w.regs.pc + w64 off
  match F.pager with
  | some d =>
    match mget s.pagers d with
    | some p =>
      if p.imgLen < pc.toNat + 4 then .trap (raise .range) else .word (w32 (p.sram.rdN pc.toNat 4)) s
    | none => .trap (raise .range)
  | none =>
    match fetchWord s F.agent F.launch pc.toNat with
    | .ok v s => .word v s
    | .fault e => .trap (e.raise pc.toNat)
    | .hold s => .hold s

/-- One of the three 32-bit words of the lane word at a lane PC. -/
def laneWordPart (s : State) (F : Focus) (base : Nat) (i : Nat) : Fetched W32 :=
  let va := (base + 4 * i) % 2 ^ 64
  match fetchWord s F.agent F.launch va with
  | .ok v s => .word v s
  | .fault e => .trap (e.raise va)
  | .hold s => .hold s

/-- The lane word at a lane PC; at or beyond the end of the lane code section, `RANGE` (R91). -/
def fetchLane (s : State) (F : Focus) (pc : W32) : Fetched LaneWord :=
  match (mget s.launches F.launch).map (·.lrec) with
  | none => .trap (raise .range)
  | some r =>
    if r.llen ≤ pc.toNat then .trap (raise .range)
    else
      let base := r.lcode.toNat + 12 * pc.toNat
      match laneWordPart s F base 0 with
      | .trap e => .trap e
      | .hold s => .hold s
      | .word a s =>
        match laneWordPart s F base 1 with
        | .trap e => .trap e
        | .hold s => .hold s
        | .word b s =>
          match laneWordPart s F base 2 with
          | .trap e => .trap e
          | .hold s => .hold s
          | .word c s => .word (c ++ b ++ a) s

end Sys2Proof.Machine
end

