-- ==== Sys2Proof/Machine/LaneInt.lean ====
section
/-! DEFINITION. The integer forms of the lane stream, group 0x0 (R76, R77). -/

namespace Sys2Proof.Machine
open Sys2Proof

/-- A two-operand form; `f` gives the result and the flags from the values of va and vb. -/
def laneBin (o : LBin) (lat : Option Nat) (f : Nat → Nat → Nat × Flags) (s : State) : Result :=
  let n := tyRegs o.ty
  laneElem o.h lat (vregs o.va.toNat n ++ opNames o.b o.ty) o.vd.toNat n (fun _ => 0)
    (fun w _ l _ => f (w.vrN o.va.toNat l n) (opVal o.b w o.ty l)) s

/-- A three-operand form. -/
def laneTern (o : LTern) (lat : Option Nat) (f : Nat → Nat → Nat → Nat × Flags) (s : State) : Result :=
  let n := tyRegs o.ty
  laneElem o.h lat (vregs o.va.toNat n ++ opNames o.b o.ty ++ opNames o.c o.ty) o.vd.toNat n
    (fun _ => 0)
    (fun w _ l _ => f (w.vrN o.va.toNat l n) (opVal o.b w o.ty l) (opVal o.c w o.ty l)) s

/-- A one-operand form whose result is one register. -/
def laneUn (o : LUn) (lat : Option Nat) (f : Nat → Nat × Flags) (s : State) : Result :=
  let n := tyRegs o.ty
  laneElem o.h lat (vregs o.va.toNat n) o.vd.toNat 1 (fun _ => 0)
    (fun w _ l _ => f (w.vrN o.va.toNat l n)) s

/-- The integer that an operand of a type stands for. -/
def tyInt (t : LTy) (v : Nat) : Int := bitsInt (tySigned t) (tyBits t) v

/-- An exact integer result, saturated (`.sat`) or wrapped (R77). -/
def satWrap (t : LTy) (sub : BitVec 4) (v : Int) : Nat :=
  intBits (tyBits t)
    (if sub = 1 then clampInt (intLo (tySigned t) (tyBits t)) (intHi (tySigned t) (tyBits t)) v else v)

def execIadd (o : LBin) (s : State) : Result :=
  laneBin o (some 0) (fun a b => (satWrap o.ty o.sub (tyInt o.ty a + tyInt o.ty b), 0)) s

def execIsub (o : LBin) (s : State) : Result :=
  laneBin o (some 0) (fun a b => (satWrap o.ty o.sub (tyInt o.ty a - tyInt o.ty b), 0)) s

def execImul (o : LBin) (s : State) : Result :=
  laneBin o (some 3) (fun a b => (a * b % 2 ^ tyBits o.ty, 0)) s

def execImulh (o : LBin) (s : State) : Result :=
  laneBin o (some 3) (fun a b => (intBits 32 (tyInt o.ty a * tyInt o.ty b / 2 ^ 32), 0)) s

def execImad (o : LTern) (s : State) : Result :=
  laneTern o (some 3) (fun a b c => ((a * b + c) % 2 ^ 32, 0)) s

/-- `IDIV` and `IREM` (R49, R77). -/
def laneDiv (rem : Bool) (t : LTy) (a b : Nat) : Nat × Flags :=
  if b = 0 then (if rem then a else 0xFFFFFFFF, flDZ)
  else if rem then (intBits 32 ((tyInt t a).tmod (tyInt t b)), 0)
  else (intBits 32 ((tyInt t a).tdiv (tyInt t b)), 0)

def execIdiv (o : LBin) (s : State) : Result := laneBin o none (laneDiv false o.ty) s
def execIrem (o : LBin) (s : State) : Result := laneBin o none (laneDiv true o.ty) s

def execImin (o : LBin) (s : State) : Result :=
  laneBin o (some 0) (fun a b => (if tyInt o.ty b < tyInt o.ty a then b else a, 0)) s

def execImax (o : LBin) (s : State) : Result :=
  laneBin o (some 0) (fun a b => (if tyInt o.ty a < tyInt o.ty b then b else a, 0)) s

def execLaneAnd (o : LBin) (s : State) : Result := laneBin o (some 0) (fun a b => (Nat.land a b, 0)) s
def execLaneOr (o : LBin) (s : State) : Result := laneBin o (some 0) (fun a b => (Nat.lor a b, 0)) s
def execLaneXor (o : LBin) (s : State) : Result := laneBin o (some 0) (fun a b => (Nat.xor a b, 0)) s

def execLaneShl (o : LBin) (s : State) : Result :=
  laneBin o (some 0)
    (fun a b => (a * 2 ^ (b % tyBits o.ty) % 2 ^ tyBits o.ty, 0)) s

/-- Logical for n, arithmetic for s: both round the quotient down. -/
def execLaneShr (o : LBin) (s : State) : Result :=
  laneBin o (some 0)
    (fun a b => (intBits (tyBits o.ty) (tyInt o.ty a / 2 ^ (b % tyBits o.ty)), 0)) s

/-- The position and the length of a field (R77). -/
def fieldAt (pl : Nat) : Nat × Nat :=
  let pos := pl % 32
  (pos, Nat.min (Nat.min (pl / 256 % 64) 32) (32 - pos))

def bfeVal (signed : Bool) (a pl : Nat) : Nat :=
  let (pos, k) := fieldAt pl
  if k = 0 then 0 else intBits 32 (bitsInt signed k (a / 2 ^ pos % 2 ^ k))

def bfiVal (a b pl : Nat) : Nat :=
  let (pos, k) := fieldAt pl
  b - b / 2 ^ pos % 2 ^ k * 2 ^ pos + a % 2 ^ k * 2 ^ pos

def execBfe (o : LBin) (s : State) : Result :=
  laneBin o (some 0) (fun a b => (bfeVal (tySigned o.ty) a b, 0)) s

def execBfi (o : LTern) (s : State) : Result := laneTern o (some 0) (fun a b c => (bfiVal a b c, 0)) s

def execLanePopc (o : LUn) (s : State) : Result :=
  laneUn o (some 1) (fun a => (onesBelow (w64 a) (tyBits o.ty), 0)) s

def execLaneClz (o : LUn) (s : State) : Result :=
  laneUn o (some 1) (fun a => (leadingZeros (w64 a) (tyBits o.ty), 0)) s

/-- A form that writes a predicate: `f` gives each lane's bit and flags. -/
def lanePred (h : LHdr) (lat : Option Nat) (reads : List RegName) (kd : BitVec 4)
    (f : Swath → Nat → Bool × Flags) (s : State) : Result :=
  laneIssue { h := h, reads := reads, writes := [.k kd.toNat], lat := lat }
    (fun F w _ m s =>
      let hits := maskOf ((lanesOf m).filter (fun l => (f w l).1))
      let fl := flAll ((lanesOf m).map (fun l => (f w l).2))
      .done (s.updSwath F.party (fun w => (w.setK kd m hits).addLaneFlags fl))) s

/-- The comparisons of `ISETP` (R76). -/
def icompare (cc : Nat) (a b : Int) : Bool :=
  match cc with
  | 0 => a == b
  | 1 => a != b
  | 2 => decide (a < b)
  | 3 => decide (a ≤ b)
  | 4 => decide (b < a)
  | _ => decide (b ≤ a)

def execIsetp (o : LSetp) (s : State) : Result :=
  let n := tyRegs o.ty
  lanePred o.h (some 0) (vregs o.va.toNat n ++ opNames o.b o.ty) o.kd
    (fun w l => (icompare o.cc.toNat (tyInt o.ty (w.vrN o.va.toNat l n))
      (tyInt o.ty (opVal o.b w o.ty l)), 0)) s

end Sys2Proof.Machine
end

