-- ==== Sys2Proof/Machine/LaneFp.lean ====
section
/-! DEFINITION. The FP32 forms of the lane stream, group 0x1, and the packed and dot-product forms,
group 0x2 (R78-R81, R185). -/

namespace Sys2Proof.Machine
open Sys2Proof

/-! ### FP32 (R78-R80) -/

/-- A two-operand form that rounds once; `f` takes the mode and the draw. -/
def fpBin (o : LBin) (f : Mode → Nat → Nat → Nat → Nat × Flags) (s : State) : Result :=
  laneElem o.h (some 3) (.v o.va.toNat :: opNames o.b .f32) o.vd.toNat 1 (drawsIf 1 o.sub)
    (fun w g l u => f (effMode o.sub g) (u 0) (w.vr o.va.toNat l) (opVal o.b w .f32 l)) s

def execFadd (o : LBin) (s : State) : Result := fpBin o binary32.add s
def execFsub (o : LBin) (s : State) : Result := fpBin o binary32.sub s
def execFmul (o : LBin) (s : State) : Result := fpBin o binary32.mul s

def execFfma (o : LTern) (s : State) : Result :=
  laneElem o.h (some 3) (.v o.va.toNat :: (opNames o.b .f32 ++ opNames o.c .f32)) o.vd.toNat 1
    (drawsIf 1 o.sub)
    (fun w g l u => binary32.fma (effMode o.sub g) (u 0) (w.vr o.va.toNat l) (opVal o.b w .f32 l)
      (opVal o.c w .f32 l)) s

/-- `FMIN` and `FMAX`, which round nothing. -/
def fpMinMax (o : LBin) (isMax : Bool) (s : State) : Result :=
  laneElem o.h (some 1) (.v o.va.toNat :: opNames o.b .f32) o.vd.toNat 1 (fun _ => 0)
    (fun w _ l _ => binary32.minMax isMax (w.vr o.va.toNat l) (opVal o.b w .f32 l)) s

def execFmin (o : LBin) (s : State) : Result := fpMinMax o false s
def execFmax (o : LBin) (s : State) : Result := fpMinMax o true s

/-- A function of one value, correctly rounded. -/
def fpUn (o : LUn) (f : FVal → Ex) (s : State) : Result :=
  laneElem o.h (some 6) [.v o.va.toNat] o.vd.toNat 1 (drawsIf 1 o.sub)
    (fun w g l u => binary32.finish (effMode o.sub g) (u 0) (f (binary32.decode (w.vr o.va.toNat l)))) s

def execFrcp (o : LUn) (s : State) : Result := fpUn o rcpVal s
def execFsqrt (o : LUn) (s : State) : Result := fpUn o sqrtVal s
def execFrsq (o : LUn) (s : State) : Result := fpUn o rsqVal s
def execFexp2 (o : LUn) (s : State) : Result := fpUn o exp2Val s
def execFlog2 (o : LUn) (s : State) : Result := fpUn o log2Val s

def execFsetp (o : LSetp) (s : State) : Result :=
  lanePred o.h (some 1) (.v o.va.toNat :: opNames o.b .f32) o.kd
    (fun w l =>
      let x := binary32.decode (w.vr o.va.toNat l)
      let y := binary32.decode (opVal o.b w .f32 l)
      (fcompare o.cc.toNat x y, flIf (x.isSnan || y.isSnan) flIV)) s

/-! ### Packed forms (R81) -/

/-- The width of an element and the number of elements of a packed type. -/
def packShape (t : LTy) : Nat × Nat :=
  match t with
  | .n8x4 | .s8x4 => (8, 4)
  | _ => (16, 2)

/-- The floating-point format of a packed type; none for an integer type. -/
def packFmt (t : LTy) : Option Fmt :=
  match t with
  | .f16x2 => some binary16
  | .bf16x2 => some bf16
  | _ => none

/-- Element `i` of a packed word. -/
def elemOf (wd v i : Nat) : Nat := v / 2 ^ (wd * i) % 2 ^ wd

/-- Apply a function to the elements from `i`, the first least significant. -/
def packMap (wd : Nat) (f : Nat → Nat × Flags) : Nat → Nat → Nat × Flags
  | _, 0 => (0, 0)
  | i, n + 1 =>
    let (v, fl) := f i
    let (r, fl') := packMap wd f (i + 1) n
    (v + 2 ^ wd * r, fl ||| fl')

/-- Draws of a packed form: one for each element of a floating-point type (R185). -/
def packDraws (t : LTy) (sub : BitVec 4) (g : Frag) : Nat :=
  if (packFmt t).isSome then drawsIf 2 sub g else 0

/-- An elementwise form of two operands: `fi` on exact integers, `fp` on floating-point elements. -/
def packBin (o : LBin) (draws : Frag → Nat) (lat : Nat) (fi : Int → Int → Int)
    (fp : Fmt → Mode → Nat → Nat → Nat → Nat × Flags) (s : State) : Result :=
  laneElem o.h (some lat) (.v o.va.toNat :: opNames o.b o.ty) o.vd.toNat 1 draws
    (fun w g l u =>
      let (wd, n) := packShape o.ty
      let a := w.vr o.va.toNat l
      let b := opVal o.b w o.ty l
      packMap wd (fun i =>
        let x := elemOf wd a i
        let y := elemOf wd b i
        match packFmt o.ty with
        | some f => fp f (effMode o.sub g) (u i) x y
        | none =>
          let sg := tySigned o.ty
          let v := fi (bitsInt sg wd x) (bitsInt sg wd y)
          (intBits wd (if o.sub = 1 then clampInt (intLo sg wd) (intHi sg wd) v else v), 0)) 0 n) s

def execPadd (o : LBin) (s : State) : Result :=
  packBin o (packDraws o.ty o.sub) 3 (· + ·) Fmt.add s

def execPsub (o : LBin) (s : State) : Result :=
  packBin o (packDraws o.ty o.sub) 3 (· - ·) Fmt.sub s

def execPmul (o : LBin) (s : State) : Result :=
  packBin o (packDraws o.ty o.sub) 3 (· * ·) Fmt.mul s

def execPmin (o : LBin) (s : State) : Result :=
  packBin o (fun _ => 0) 3 (fun a b => if b < a then b else a) (fun f _ _ => f.minMax false) s

def execPmax (o : LBin) (s : State) : Result :=
  packBin o (fun _ => 0) 3 (fun a b => if a < b then b else a) (fun f _ _ => f.minMax true) s

def execPfma (o : LTern) (s : State) : Result :=
  laneElem o.h (some 3) (.v o.va.toNat :: (opNames o.b o.ty ++ opNames o.c o.ty)) o.vd.toNat 1
    (packDraws o.ty o.sub)
    (fun w g l u =>
      let (wd, n) := packShape o.ty
      let f := (packFmt o.ty).getD binary16
      packMap wd (fun i => f.fma (effMode o.sub g) (u i) (elemOf wd (w.vr o.va.toNat l) i)
        (elemOf wd (opVal o.b w o.ty l) i) (elemOf wd (opVal o.c w o.ty l) i)) 0 n) s

/-- The products of a dot-product form, added to c exactly; a wide integer result. -/
def dotInt (t : LTy) (sub : BitVec 4) (a b c : Nat) : Nat :=
  let (wd, n) := packShape t
  let sg := tySigned t
  let v := (List.range n).foldl (fun (acc : Int) i =>
    acc + bitsInt sg wd (elemOf wd a i) * bitsInt sg wd (elemOf wd b i)) (bitsInt sg 32 c)
  intBits 32 (if sub = 1 then clampInt (intLo sg 32) (intHi sg 32) v else v)

/-- FP `DOTH`: two products and a binary32 term, one rounding to binary32. -/
def dotFp (f : Fmt) (mode : Mode) (u a b c : Nat) : Nat × Flags :=
  binary32.dot mode u
    ((List.range 2).map (fun i => exMul (f.decode (elemOf 16 a i)) (f.decode (elemOf 16 b i))))
    (binary32.decode c)

def laneDot (o : LTern) (s : State) : Result :=
  laneElem o.h (some 3) (.v o.va.toNat :: (opNames o.b o.ty ++ opNames o.c o.ty)) o.vd.toNat 1
    (fun g => if (packFmt o.ty).isSome then drawsIf 1 o.sub g else 0)
    (fun w g l u =>
      let a := w.vr o.va.toNat l
      let b := opVal o.b w o.ty l
      let c := opVal o.c w o.ty l
      match packFmt o.ty with
      | some f => dotFp f (effMode o.sub g) (u 0) a b c
      | none => (dotInt o.ty o.sub a b c, 0)) s

def execDotb (o : LTern) (s : State) : Result := laneDot o s
def execDoth (o : LTern) (s : State) : Result :=
  laneDot o s

end Sys2Proof.Machine
end

