-- ==== Sys2Proof/Machine/LaneConv.lean ====
section
/-! DEFINITION. The conversions of the lane stream, group 0x3 (R82-R84, R185, R188, R189). -/

namespace Sys2Proof.Machine
open Sys2Proof

/-- `CVT`: one value converted between the integer types and binary32 (R82). -/
def cvtVal (dst src : LTy) (mode : Mode) (u a : Nat) : Nat × Flags :=
  let bits := tyBits dst
  let lo := intLo (tySigned dst) bits
  let hi := intHi (tySigned dst) bits
  if src = .f32 then
    let x := binary32.decode a
    if dst = .f32 then (if x.isNan then binary32.canon else a, flIf x.isSnan flIV)
    else
      let (v, fl) := toInt mode u lo hi x
      (intBits bits v, fl)
  else if dst = .f32 then binary32.encode mode u (ofInt (tyInt src a))
  else (intBits bits (clampInt lo hi (tyInt src a)), 0)

def execCvt (o : LCvt) (s : State) : Result :=
  let n := tyRegs o.src
  laneElem o.h (some 3) (vregs o.va.toNat n) o.vd.toNat (tyRegs o.dst) (drawsIf 1 o.sub)
    (fun w g l u => cvtVal o.dst o.src (effMode o.sub g) (u 0) (w.vrN o.va.toNat l n)) s

/-- A word with one element slot replaced (R83). -/
def putSlot (fmt slot old v : Nat) : Nat :=
  let wd := slotBits fmt
  old - elemOf wd old slot * 2 ^ (wd * slot) + v % 2 ^ wd * 2 ^ (wd * slot)

/-- `CVTN`: the element of a value in a format (R83). -/
def cvtnVal (ty : LTy) (fmt : Nat) (mode : Mode) (u a : Nat) : Nat × Flags :=
  if ty = .s32 then (narrowInt fmt (bitsInt true 32 a), 0)
  else convertTo fmt mode u (binary32.decode a)

def execCvtn (o : LNarrow) (s : State) : Result :=
  laneElem o.h (some 3) [.v o.va.toNat, .v o.vd.toNat] o.vd.toNat 1 (drawsIf 1 o.sub)
    (fun w g l u =>
      let (v, fl) := cvtnVal o.ty o.fmt.toNat (effMode o.sub g) (u 0) (w.vr o.va.toNat l)
      (putSlot o.fmt.toNat o.slot.toNat (w.vr o.vd.toNat l) v, fl)) s

/-- `CVTW`: an element widened (R84). -/
def cvtwVal (ty : LTy) (fmt e : Nat) : Nat × Flags :=
  if ty = .s32 then widenS32 fmt e else widenF32 fmt e

def execCvtw (o : LNarrow) (s : State) : Result :=
  laneElem o.h (some 3) [.v o.va.toNat] o.vd.toNat 1 (fun _ => 0)
    (fun w _ l _ =>
      cvtwVal o.ty o.fmt.toNat (elemOf (slotBits o.fmt.toNat) (w.vr o.va.toNat l) o.slot.toNat)) s

end Sys2Proof.Machine
end

