-- ==== Sys2Proof/Machine/LaneMove.lean ====
section
/-! DEFINITION. Moves, predicate logic, cross-lane forms and reductions of the lane stream, group 0x4,
and the late results of `LRED` and `VOTE` (R85-R90, R285). -/

namespace Sys2Proof.Machine
open Sys2Proof

/-! ### Within a lane (R85) -/

def execLaneMov (o : LMov) (s : State) : Result :=
  laneElem o.h (some 0) (opNames o.b o.ty) o.vd.toNat (tyRegs o.ty) (fun _ => 0)
    (fun w _ l _ => (opVal o.b w o.ty l, 0)) s

def execLaneSel (o : LSel) (s : State) : Result :=
  laneElem o.h (some 0) (.k o.ka.toNat :: (opNames o.b o.ty ++ opNames o.c o.ty)) o.vd.toNat
    (tyRegs o.ty) (fun _ => 0)
    (fun w _ l _ =>
      (if (w.kr o.ka).getLsbD l then opVal o.b w o.ty l else opVal o.c w o.ty l, 0)) s

def execKmix (o : LKmix) (s : State) : Result :=
  lanePred o.h (some 0) [.k o.ka.toNat, .k o.kb.toNat, .k o.kc.toNat] o.kd
    (fun w l =>
      let i := b2n ((w.kr o.ka).getLsbD l) + 2 * b2n ((w.kr o.kb).getLsbD l)
        + 4 * b2n ((w.kr o.kc).getLsbD l)
      (o.table.getLsbD i != o.inv, 0)) s

/-- A system register as a fragment reads it in lane `l` (R31, R85). -/
def laneSysRead (f : Field) (w : Swath) (g : Frag) (r l : Nat) : Nat :=
  match r with
  | 0 => g.fmt.toNat
  | 1 => (w.regs.flags ||| flAll (w.regs.laneFlags.map (·.2))).toNat
  | 6 => l
  | _ => (swathWord f w).toNat

def execLmfsr (o : LSysRead) (s : State) : Result :=
  let n := tyRegs o.ty
  laneIssue { h := o.h, reads := [.sr o.sr.toNat], writes := vregs o.vd.toNat n }
    (fun F w g m s =>
      match s.field? F.fid with
      | none => .done s
      | some f => .done (s.updSwath F.party (fun _ =>
          runLanes w g m 0 (fun w g l _ => (laneSysRead f w g o.sr.toNat l, 0))
            (fun w l v => w.setVN o.vd.toNat l v n)))) s

/-! ### `XLANE` (R86) -/

/-- The source lane of lane `l`; none when it lies outside the segment. -/
def xlaneSource (sub : BitVec 4) (l d : Nat) : Option Nat :=
  let w := 32 / 2 ^ fld sub 3 2
  let g := l / w * w
  match fld sub 1 0 with
  | 0 => some (g + d % w)
  | 1 => if d ≤ l && g ≤ l - d then some (l - d) else none
  | 2 => if l + d < g + w then some (l + d) else none
  | _ => some (Nat.xor l (d % w))

def execXlane (o : LXlane) (s : State) : Result :=
  laneElem o.h (some 2) (.v o.va.toNat :: (opNames o.b .n32 ++ opNames o.c .n32)) o.vd.toNat 1
    (fun _ => 0)
    (fun w g l _ =>
      match xlaneSource o.sub l (opVal o.b w .n32 l % 32) with
      | some k => (if (activeSet w g o.h).getLsbD k then w.vr o.va.toNat k else opVal o.c w .n32 l, 0)
      | none => (opVal o.c w .n32 l, 0)) s

/-! ### Reductions and scans (R87, R89) -/

/-- The identity of an integer reduction. -/
def redId (op : Nat) (t : LTy) : Nat :=
  match op with
  | 1 => intBits (tyBits t) (intHi (tySigned t) (tyBits t))
  | 2 => intBits (tyBits t) (intLo (tySigned t) (tyBits t))
  | 3 => 2 ^ tyBits t - 1
  | _ => 0

/-- One step of an integer reduction. -/
def redOp (op : Nat) (t : LTy) (a b : Nat) : Nat :=
  match op with
  | 0 => (a + b) % 2 ^ tyBits t
  | 1 => if tyInt t b < tyInt t a then b else a
  | 2 => if tyInt t a < tyInt t b then b else a
  | 3 => Nat.land a b
  | 4 => Nat.lor a b
  | _ => Nat.xor a b

/-- A binary32 reduction: add sums exactly and rounds once, min and max follow R79. -/
def redF32 (op : Nat) (mode : Mode) (l : List Nat) : Nat × Flags :=
  let mode := if mode = SRN then RNE else mode
  let vs := l.map binary32.decode
  match op with
  | 0 => if l.isEmpty then (0, 0) else binary32.finish mode 0 (exSum (zeroNeg mode) vs)
  | _ =>
    let isMax := op == 2
    if l.isEmpty then (binary32.infBits isMax, 0)
    else
      let r := match l.filter (fun v => !(binary32.decode v).isNan) with
        | [] => binary32.canon
        | v :: r => r.foldl (fun a b => (binary32.minMax isMax a b).1) v
      (r, flIf (vs.any FVal.isSnan) flIV)

/-- The 64-bit result of a reduction over the lanes of M. -/
def redVal (t : LTy) (op : Nat) (mode : Mode) (l : List Nat) : W64 × Flags :=
  if t = .f32 then
    let (v, fl) := redF32 op mode l
    (w64 v, fl)
  else
    let v := l.foldl (redOp op t) (redId op t)
    (if t = .s32 then sextN 32 v else w64 v, 0)

/-- A result that is written when it completes (R90). -/
def State.addLate (s : State) (F : Focus) (r : Late) : State :=
  s.updSwath F.party (fun w => { w with lanes := { w.lanes with late := w.lanes.late ++ [r] } })

/-- The fragment of a lane party: the second live one. -/
def secondOf : PartyId → Bool
  | .lane _ _ b => b
  | _ => false

def execLred (o : LRedOp) (s : State) : Result :=
  let n := tyRegs o.ty
  laneIssue { h := o.h, reads := vregs o.va.toNat n, writes := [.w o.wd.toNat] }
    (fun F w g m s =>
      let (v, fl) := redVal o.ty o.op.toNat (fmtRM g.fmt)
        ((lanesOf m).map (fun l => w.vrN o.va.toNat l n))
      .done (s.addLate F { second := secondOf F.party, w := o.wd.toNat, value := v, flags := fl })) s

/-- `VOTE` (R88). -/
def voteVal (op g : Nat) (k m : LaneMask) : W64 :=
  match op with
  | 0 => w64 (b2n (k &&& m != 0))
  | 1 => w64 (b2n (m &&& ~~~k == 0))
  | 2 => w64 (onesBelow (k &&& m) 1024)
  | _ => (k &&& m).extractLsb' (64 * g) 64

def execVote (o : LVote) (s : State) : Result :=
  laneIssue { h := o.h, reads := [.k o.ka.toNat], writes := [.w o.wd.toNat] }
    (fun F w _ m s =>
      .done (s.addLate F { second := secondOf F.party, w := o.wd.toNat,
                           value := voteVal o.op.toNat o.g.toNat (w.kr o.ka) m, flags := 0 })) s

/-- The prefixes of a list of values: inclusive, or exclusive from the identity. -/
def scanFrom (op : Nat) (t : LTy) (excl : Bool) : Nat → List Nat → List Nat
  | _, [] => []
  | acc, v :: r =>
    let n := redOp op t acc v
    (if excl then acc else n) :: scanFrom op t excl n r

def execScan (o : LUn) (s : State) : Result :=
  laneIssue { h := o.h, reads := [.v o.va.toNat], writes := [.v o.vd.toNat] }
    (fun F w _ m s =>
      let op := fld o.sub 2 0
      let ls := lanesOf m
      let vs := scanFrom op o.ty (bitAt o.sub 3) (redId op o.ty) (ls.map (w.vr o.va.toNat))
      .done (s.updSwath F.party (fun w =>
        (ls.zip vs).foldl (fun w (l, v) => w.setV o.vd.toNat l v) w))) s

/-- A result of variable latency is written: any of those outstanding, as they return in no fixed
order (R90, R285). -/
def execVariableLatencyResult (fid sw : Nat) (s : State) : Result :=
  match s.swathAt fid sw with
  | none => .next s
  | some w =>
    let i := Config.freeNat s.freeCtr % w.lanes.late.length
    match w.lanes.late[i]? with
    | none => .next s
    | some r =>
      .next ((s.updSwathAt fid sw (fun w =>
        { w with lanes := { w.lanes with late := w.lanes.late.eraseIdx i } }.writeLate r)).tick)

end Sys2Proof.Machine
end

