-- ==== Sys2Proof/Machine/LaneCtl.lean ====
section
/-! DEFINITION. Branches and reconvergence, `LFMT`, the lane side of the handshake, signals and
barriers of a fragment, with the exchange of arms (R73, R91-R97, R127-R137). -/

namespace Sys2Proof.Machine
open Sys2Proof

/-- A form that acts over the whole fragment mask (R73). -/
def LForm.wholeOf (h : LHdr) (reads : List RegName) (ends : Bool) : LForm :=
  { h := h, reads := reads, ends := ends, whole := true }

/-- The late results of one fragment are written (R90, R96). -/
def Swath.writeLatesOf (w : Swath) (second : Bool) : Swath :=
  let mine := w.lanes.late.filter (fun r => r.second == second)
  let w := { w with lanes := { w.lanes with late := w.lanes.late.filter (fun r => r.second != second) } }
  mine.foldl Swath.writeLate w

/-! ### Branches (R91, R92, R131) -/

def execBru (h : LHdr) (off : W32) (s : State) : Result :=
  laneIssue (.wholeOf h [.k h.guard.toNat] false)
    (fun _ w g _ s =>
      let t := activeSet w g h
      if t = g.mask then .goto s (g.pc + off)
      else if t = 0 then .done s
      else .trap (raise .branchMixed)) s

/-- The entry that a split pushes, and the live fragments after it (R131). R129 and R131 give ATOK and ABARS
of a DUAL or TRAP entry no value: they are 0 (notes/assumptions/159.md). -/
def splitFrag (dual : Bool) (second : Bool) (level : Nat) (t f : LaneMask) (target join : W32)
    (w : Swath) (g : Frag) : Swath :=
  let e : StackEnt :=
    { mask := f, jpc := join, apc := if dual then 0 else g.pc + 1,
      kind := if dual then .dual else .first, nest := w.lanes.dual.isSome,
      arm := w.lanes.dual.isSome && second, abars := false, hbar := none, endPc := g.endPc,
      born := w.lanes.births + 1, heldArm := !dual,
      conv := false, jfmt := g.fmt, afmt := if dual then 0 else g.fmt,
      atok := if dual then 0 else g.tok, sb := if dual then [] else g.sb }
  let tArm := { g with mask := t, pc := target, born := w.lanes.births }.region level
  let fArm := { g with mask := f, pc := g.pc + 1, passed := 0, aged := none,
                       born := w.lanes.births + 1 }.region level
  let w := w.writeLatesOf second
  let l := w.lanes.put second tArm
  { w with lanes := { l with f1 := if dual then some fArm else l.f1, stack := l.stack ++ [e],
                             births := l.births + 2 } }

/-- The offsets of `BRD`: the target in bits [15:0], the join in bits [31:16] (R92). -/
def brdTarget (off : W32) : W32 := (off.extractLsb' 0 16).signExtend 32
def brdJoin (off : W32) : W32 := (off.extractLsb' 16 16).signExtend 32

def execBrd (h : LHdr) (off : W32) (s : State) : Result :=
  laneIssue (.wholeOf h [.k h.guard.toNat] false)
    (fun F w g _ s =>
      let t := activeSet w g h
      let f := g.mask &&& ~~~t
      if t = 0 then .done s
      else if f = 0 then .goto s (g.pc + brdTarget off)
      else if 64 ≤ w.lanes.stack.length then .trap (raise .stackOverflow)
      else
        let dual := w.lanes.f1.isNone && !w.lanes.stack.any StackEnt.isTrap
          && decide (0 < freeSplits s F.core w.quad)
        .split s (splitFrag dual (secondOf F.party) F.level t f (g.pc + brdTarget off)
          (g.pc + brdJoin off))) s

/-! ### `JOIN` (R93, R133) -/

/-- The fused fragment after a `JOIN`: the entry goes, and the lane view of `sr.fmt` comes back. -/
def fusedFrag (bars : List Bar) (g : Frag) (mask : LaneMask) (tok : BitVec 32) (e : StackEnt)
    (level : Nat) : Frag :=
  { g with mask := g.mask ||| mask, tok := tokMerge bars g.tok tok, fmt := e.jfmt, pc := e.jpc + 1,
           wait := .ready }.region level

/-- Both arms of a DUAL entry fuse in the T arm's place. -/
def fuseDual (bars : List Bar) (i : Nat) (e : StackEnt) (level : Nat) (w : Swath) (t f : Frag) :
    Swath :=
  let w := w.writeLates
  { w with lanes := { w.lanes with
      f0 := some (fusedFrag bars { t with sb := t.sb ++ f.sb } f.mask f.tok e level), f1 := none,
      stack := w.lanes.stack.eraseIdx i } }

/-- The held arm of an entry takes the live arm's place (R133, R134), with the scoreboard that it was
held with (R132) and, where a conversion held the handler fragment of a trap, held as that was
(notes/assumptions/120.md). -/
def heldFrag (g : Frag) (e : StackEnt) (level : Nat) : Frag :=
  { g with mask := e.mask, tok := e.atok, pc := e.apc, fmt := e.afmt, born := e.born,
           endPc := e.endPc, sb := e.sb, held := e.held, pend := false, pendAt := 0,
           wait := match e.abars, e.hbar with
             | true, some b => .bars b
             | _, _ => .ready }.region level

/-- The live arm of a FIRST entry is done, and the held arm runs. -/
def swapToSecond (i : Nat) (e : StackEnt) (second : Bool) (level : Nat) (w : Swath) (g : Frag) :
    Swath :=
  let w := w.writeLatesOf second
  { w with lanes := { w.lanes.put second (heldFrag g e level) with
      stack := w.lanes.stack.set i
        { e with kind := .second, mask := g.mask, atok := g.tok, born := g.born, heldArm := !e.heldArm,
                 apc := 0, afmt := g.fmt, sb := g.sb, held := false,
                 abars := false, hbar := none, endPc := g.endPc } } }

/-- Both arms of a SECOND entry fuse. -/
def fuseSecond (bars : List Bar) (i : Nat) (e : StackEnt) (second : Bool) (level : Nat) (w : Swath)
    (g : Frag) : Swath :=
  { w with lanes := { w.lanes.put second
      (fusedFrag bars { g with sb := g.sb ++ e.sb } e.mask e.atok e level) with
      stack := w.lanes.stack.eraseIdx i } }

def execJoin (h : LHdr) (s : State) : Result :=
  laneIssue (.wholeOf h [] false)
    (fun F w g _ s =>
      let second := secondOf F.party
      let bars := ((s.field? F.fid).map (·.bars)).getD []
      match w.lanes.innermost second with
      | none => .done s
      | some i =>
        match w.lanes.stack[i]? with
        | none => .done s
        | some e =>
          if e.isTrap || e.jpc != g.pc then .done s
          else match e.kind, w.lanes.get (!second) with
            | .dual, some o =>
              if o.wait == .join && o.pc == e.jpc then
                .split s (fun w g => if second then fuseDual bars i e F.level w o g
                                     else fuseDual bars i e F.level w g o)
              else .wait s .join
            | .first, _ => .split s (swapToSecond i e second F.level)
            | .second, _ => .split s (fuseSecond bars i e second F.level)
            | _, _ => .done s) s

/-! ### The exchange of arms (R134) -/

/-- The exchange of a fragment in a barrier wait with the arm that its innermost divergence holds;
none when it may not be made. -/
def exchange (s : State) (fid : Nat) (w : Swath) (second : Bool) : Option Swath :=
  match w.lanes.get second, w.lanes.innermost second with
  | some g, some i =>
    match g.wait.bar, w.lanes.stack[i]? with
    | some b, some e =>
      let heldWaits := match e.hbar with
        | some b' => barWaits s fid b' e.atok
        | none => false
      if e.kind == .first && barWaits s fid b g.tok && !heldWaits then
        let w := w.writeLatesOf second
        some { w with lanes := { w.lanes.put second (heldFrag g e w.ctl.level) with
          stack := w.lanes.stack.set i
            { e with mask := g.mask, atok := g.tok, afmt := g.fmt, apc := g.pc, born := g.born,
                     sb := g.sb, held := false, abars := g.wait.isBars, hbar := some b,
                     endPc := g.endPc, heldArm := !e.heldArm } } }
      else none
    | _, _ => none
  | _, _ => none

/-- A fragment that waits on a barrier changes places with the arm that its entry holds. -/
def execArmExchange (fid sw : Nat) (s : State) : Result :=
  match s.residentAt fid sw with
  | some (_, w) =>
    match (exchange s fid w false).or (exchange s fid w true) with
    | some w' => .next (s.updSwathAt fid sw (fun _ => w'))
    | none => .next s
  | none => .next s

/-! ### The format register and the handshake (R94-R96) -/

def execLfmt (h : LHdr) (n : BitVec 4) (s : State) : Result :=
  laneIssue { LForm.wholeOf h [.w n.toNat] false with writes := [.sr 0] }
    (fun F w _ _ s =>
      let v := mgetD w.regs.wL n.toNat 0
      if !fmtOk v then .trap (raise .illegal)
      else .done (s.updSwath F.party (fun w =>
        w.updFrag (secondOf F.party) (fun g => { g with fmt := v })))) s

/-- One fragment and an empty stack (R95). -/
def LaneStream.reconverged (l : LaneStream) : Bool := l.f1.isNone && l.stack.isEmpty

/-- The lane stream stops: it has no fragment, and a staged copy is discarded (R61). -/
def Swath.stopLanes (w : Swath) : Swath :=
  let w := w.writeLates.unstage
  { w with meet := { w.meet with hs := .idle },
           lanes := { w.lanes with f0 := none, f1 := none, stack := [] } }

def execLstop (h : LHdr) (s : State) : Result :=
  laneIssue (.wholeOf h [] true)
    (fun _ w _ _ s =>
      if !w.lanes.reconverged then .trap (raise .streamState)
      else .split s (fun w _ => w.stopLanes)) s

def execLhold (h : LHdr) (s : State) : Result :=
  laneIssue (.wholeOf h [] true)
    (fun F w _ _ s =>
      if !w.lanes.reconverged then .trap (raise .streamState)
      else if w.meet.go then .done (s.updSwath F.party (·.land))
      else .done (s.updSwath F.party (fun w => { w with meet := { w.meet with hs := .held } }))) s

/-- `LSIG`: the count rises, once the fragment's own results have been written (R64, R96). -/
def execLsig (h : LHdr) (n : BitVec 8) (s : State) : Result :=
  laneIssue (.wholeOf h [] true)
    (fun F w _ _ s =>
      if 65535 < w.meet.sig + n.toNat then .trap (raise .streamState)
      else .done (s.updSwath F.party (fun w =>
        let w := w.writeLatesOf (secondOf F.party)
        { w with meet := { w.meet with sig := w.meet.sig + n.toNat,
                                       issued := w.meet.issued + w32 n.toNat } }))) s

/-! ### Barriers of a fragment (R66, R97) -/

/-- An arrival of the executing fragment: the state after it, and whether the phase is still in
progress. -/
def laneArrive (F : Focus) (w : Swath) (s : State) (b : Nat) (bar : Bar) (n : Opnd) :
    Option (State × Bool) :=
  (bar.arrive (opVal n w .n32 0)).map (fun (v, phase) =>
    ((s.setBar F.fid b v).updSwath F.party (fun w =>
      w.updFrag (secondOf F.party) (fun g => { g with tok := tokSet g.tok b phase })),
     v.phase == phase))

/-- The executing fragment's token is cleared. -/
def State.clearTok (s : State) (F : Focus) (b : Nat) : State :=
  s.updSwath F.party (fun w => w.updFrag (secondOf F.party) (fun g => { g with tok := tokClear g.tok b }))

def execLaneBara (h : LHdr) (b : BitVec 4) (n : Opnd) (s : State) : Result :=
  laneIssue (.wholeOf h (opNames n .n32) true)
    (fun F w _ _ s =>
      match s.bar F.fid b.toNat with
      | none => .trap (raise .illegal)
      | some bar =>
        match laneArrive F w s b.toNat bar n with
        | none => .trap (raise .barCount)
        | some (s, _) => .done s) s

def execLaneBarw (h : LHdr) (b : BitVec 4) (s : State) : Result :=
  laneIssue (.wholeOf h [] false)
    (fun F _ g _ s =>
      match s.bar F.fid b.toNat with
      | none => .trap (raise .illegal)
      | some _ =>
        if barWaits s F.fid b.toNat g.tok then .wait s (.barw b.toNat)
        else .done (s.clearTok F b.toNat)) s

/-- `BARS`: after its arrival the region entry is the `BARS` itself (R290). -/
def execLaneBars (h : LHdr) (b : BitVec 4) (n : Opnd) (s : State) : Result :=
  laneIssue (.wholeOf h (opNames n .n32) true)
    (fun F w _ _ s =>
      match s.bar F.fid b.toNat with
      | none => .trap (raise .illegal)
      | some bar =>
        match laneArrive F w s b.toNat bar n with
        | none => .trap (raise .barCount)
        | some (s, true) =>
          .wait (s.updSwath F.party (fun w =>
            w.updFrag (secondOf F.party) (fun g => g.region F.level))) (.bars b.toNat)
        | some (s, false) => .done (s.clearTok F b.toNat)) s

def execLnop (h : LHdr) (s : State) : Result := laneIssue { h := h } (fun _ _ _ _ s => .done s) s

end Sys2Proof.Machine
end

