-- ==== Sys2Proof/Machine/Sched.lean ====
section
/-! DEFINITION. Issue decisions, placement, swap-outs, urgent claims, slices, budget periods, and what
the device does to copies and translations of its own accord (R68, R112-R126, R221, R267, R297-R300,
R396-R398, R415-R419). -/

namespace Sys2Proof.Machine
open Sys2Proof

/-! ### Issue budgets (R396, R397) -/

/-- The WEIGHT that a context keeps for itself. -/
def weightLeft (s : State) (c : Nat) : Nat :=
  match s.ctx? c with
  | some x => (inForce s c x).weight
      - (s.liveChildren c).foldl (fun n (_, y) => n + y.budgets.weight) 0
  | none => 0

/-- Issue decisions, or lane passes, that a context may take on a quadrant in a period. -/
def issueAllowance (s : State) (c core quad : Nat) : Nat :=
  let sum := (s.ctxs.filter (fun (i, _) => (ownedQuads s i core).contains quad)).foldl
    (fun n (i, _) => n + weightLeft s i) 0
  if sum = 0 then 0 else 20 * s.heath.clockMhz * weightLeft s c / sum

/-- Where the use on a quadrant is counted: decisions of scalar streams, and lane passes. -/
def useKey (core quad : Nat) (lane : Bool) : Nat := 2 * (4 * core + quad) + b2n lane

/-- The context has used up its allowance on a quadrant, or has none. -/
def exhausted (s : State) (c core quad : Nat) (lane : Bool) : Bool :=
  let used := ((s.ctx? c).map (fun x => mgetD x.usedW (useKey core quad lane) 0)).getD 0
  decide (issueAllowance s c core quad ≤ used)

def State.charge (s : State) (c core quad : Nat) (lane : Bool) (n : Nat) : State :=
  let k := useKey core quad lane
  s.updCtx c (fun x => { x with usedW := mput x.usedW k (mgetD x.usedW k 0 + n) })

/-! ### Candidates (R121, R122) -/

/-- A candidate of an issue decision: `age` is its place in the order of key 4. -/
structure Cand where
  party : PartyId
  ctx : Nat
  cls : Nat
  ready : Bool
  passed : Nat
  aged : Option Nat
  age : List Nat

/-- Lexicographic order of keys. -/
def keyLt : List Nat → List Nat → Bool
  | a :: r, b :: t => decide (a < b) || (a == b && keyLt r t)
  | [], _ :: _ => true
  | _, [] => false

/-- The swath makes no further issue: its field stops, and every swath of it with it, its slice has
ended for this swath, the device's fields are halted, or it waits for a register line (R247, R285, R300,
R315, R415). -/
def swathHalts (s : State) (f : Field) (w : Swath) : Bool :=
  s.heath.halted || w.ctl.lineWait || f.stop.any (fun t => !t.halted) || (f.slicing && w.lanes.reconverged && w.ctl.level == 0)

/-- Age: launch acceptance, field, swath; the fragment follows. -/
def ageOf (l : Launch) (f : Field) (sw : Nat) : List Nat := [l.accNo, f.num, f.my, f.mx, sw]

/-- The swaths that stand on a quadrant, with their launches. -/
def swathsAt (s : State) (core quad : Nat) : List (Nat × Field × Launch × Swath) :=
  (s.residents core).flatMap (fun (fid, f) =>
    match mget s.launches f.launch with
    | none => []
    | some l => (f.sws.filter (fun (_, w) => w.quad == quad && !w.ctl.exited)).map (fun (_, w) =>
        (fid, f, l, w)))

/-- The counter that the next scalar word raises, if any (R143). -/
def counterOf (v : ScalarWord) : Option Nat :=
  let op := (scalarOp v).toNat
  let fn := (SrFields.of v).fn.toNat
  if 0x48 ≤ op && op ≤ 0x4C then some 1
  else if op = 0x4E && fn = 0 then some 0
  else if op = 0x6B && fn = 7 then some 0
  else if op = 0x5A then some 2
  else if op = 0x5B || op = 0x5C then some 3
  else none

/-- The counter that a stream's next form raises stands at 255: it is not ready (R143). -/
def counterFull (s : State) (fid : Nat) (f : Field) (w : Swath) : Bool :=
  match fetchScalar s (focusOf f fid w.sw (.scalar fid w.sw) w) w 0 with
  | .word v _ => (counterOf v).any (fun c => decide (255 ≤ w.eng.counter c))
  | _ => false

/-- The uniform registers that a lane word reads, or that its reduction writes (R20-R24). -/
def wordUni (v : LaneWord) : List Nat :=
  let r := LaneRaw.unpack v
  (if r.kb == 1 then [r.vb.toNat] else [])
    ++ (if r.kc == 1 && decide (r.op.toNat < 0x140) then [r.vc.toNat] else [])
    ++ (if r.op == 0x103 || r.op == 0x104 then [r.vd.toNat] else [])

/-- The scoreboard holds a fragment's next instruction: it names a uniform register that an `LRED` or
`VOTE` of the fragment still has to write (R26, R90, R121). -/
def boardHolds (s : State) (fid : Nat) (f : Field) (w : Swath) (second : Bool) (g : Frag) : Bool :=
  let late := w.lanes.late.filter (fun r => r.second == second)
  !late.isEmpty && match fetchLane s (focusOf f fid w.sw (.lane fid w.sw second) w) g.pc with
    | .word v _ => late.any (fun r => (wordUni v).contains r.w)
    | _ => false

/-- The scalar streams of a quadrant. -/
def scalarCands (s : State) (core quad : Nat) : List Cand :=
  (swathsAt s core quad).mapIdx (fun i (fid, f, l, w) =>
    { party := .scalar fid w.sw, ctx := f.ctx, cls := l.cls, passed := w.ctl.passed, aged := w.ctl.aged,
      age := ageOf l f w.sw,
      ready := w.ctl.wait == SWait.none && w.ctl.parked.isNone && !w.ctl.yielded && !swathHalts s f w
        && !counterFull s fid f w && !Config.heldByTiming (s.freeCtr + i) })

/-- The live fragments of a swath whose lane stream runs. -/
def liveFrags (w : Swath) : List (Bool × Frag) :=
  if w.meet.hs != .running then []
  else [false, true].filterMap (fun b => (w.lanes.get b).map (b, ·))

/-- The fragments of a quadrant. A swath whose scalar stream waits in a `WAITM` has no scalar candidate,
and its fragments may issue: R67 says that the swath takes part in no issue decision, R125 that the
fragments of a swath may still issue whatever its scalar stream waits in; the model follows R125
(notes/assumptions/147.md). -/
def laneCands (s : State) (core quad : Nat) : List Cand :=
  ((swathsAt s core quad).flatMap (fun (fid, f, l, w) =>
    (liveFrags w).map (fun (b, g) => (fid, f, l, w, b, g)))).mapIdx (fun i (fid, f, l, w, b, g) =>
      { party := .lane fid w.sw b, ctx := f.ctx, cls := l.cls, passed := g.passed, aged := g.aged,
        age := ageOf l f w.sw ++ [g.born, b2n b],
        ready := g.wait == FWait.ready && !g.held && !g.pend && w.ctl.parked.isNone && !swathHalts s f w
          && !boardHolds s fid f w b g && !Config.heldByTiming (s.freeCtr + i) })

/-- The keys of R122, in order. -/
def Cand.key (s : State) (core quad : Nat) (lane : Bool) (c : Cand) : List Nat :=
  [b2n (exhausted s c.ctx core quad lane), c.cls] ++
    (match c.aged with
     | some n => [0, n]
     | none => [1, 0]) ++ c.age

/-- The least of a list by a key. -/
def leastBy {α : Type} (key : α → List Nat) : List α → Option α
  | [] => none
  | a :: r =>
    match leastBy key r with
    | some b => if keyLt (key b) (key a) then some b else some a
    | none => some a

/-- A candidate's count of decisions and its age mark. -/
def State.setCand (s : State) (p : PartyId) (passed : Nat) (aged : Option Nat) : State :=
  match p with
  | .lane fid sw b =>
    s.updSwathAt fid sw (fun w => w.updFrag b (fun g => { g with passed := passed, aged := aged }))
  | p => s.updSwath p (fun w => { w with ctl := { w.ctl with passed := passed, aged := aged } })

/-- What a decision does to the candidates: the chosen one and those not ready lose their count; the
ready ones of the chosen class that it passed over count one more, and age at 32 (R122). -/
def State.passOver (s : State) (chosen : Option Cand) (cs : List Cand) : State :=
  cs.foldl (fun s d =>
    if !d.ready || chosen.any (fun c => c.party == d.party) then s.setCand d.party 0 none
    else if chosen.any (fun c => c.cls == d.cls) then
      let s := s.setCand d.party (d.passed + 1) d.aged
      if d.passed + 1 = 32 then { s with agenda := s.agenda ++ [.ages d.party] } else s
    else s) s

/-- One decision among candidates. -/
def decideAmong (s : State) (core quad : Nat) (lane : Bool) (cs : List Cand) : Option Cand × State :=
  let c := leastBy (Cand.key s core quad lane) (cs.filter (·.ready))
  (c, { s.passOver c cs with chosen := c.map (·.party), freeCtr := s.freeCtr + cs.length + 1 })

/-- The yields that counted for a decision are over (R68): those of the chosen class, and those of the
more urgent ones, whose decision this was but for the yield. A decision that finds no candidate ends
every yield (notes/assumptions/124.md). -/
def State.clearYields (s : State) (core quad : Nat) (cls : Option Nat) : State :=
  (swathsAt s core quad).foldl (fun s (fid, _, l, w) =>
    if cls.all (fun c => decide (l.cls ≤ c)) then
      s.updSwathAt fid w.sw (fun w => { w with ctl := { w.ctl with yielded := false } })
    else s) s

/-- The region count has passed that of a record. -/
def pastRegion (now : BitVec 8) (rec_ : W64) : Bool :=
  let d := (now.toNat + 256 - rec_.toNat % 256) % 256
  decide (0 < d) && decide (d < 128)

/-- Under REPLAY a swath that the log says was parked in its present regions goes back to their entries. A
swath whose next record names it, and which has left the region of that record without a park, stops its
field (R425). -/
def State.replayParks (s : State) (core quad : Nat) : State :=
  (swathsAt s core quad).foldl (fun s (fid, f, _, w) =>
    let (p0, p1) := w.reexecWords
    match replayNext s (core / 48) f.ctx with
    | none => s
    | some r =>
      if r.getD 0 0 != logHead 17 (f.coords w.sw 0) then s
      else if r.getD 2 0 == p0 && r.getD 3 0 == p1 then
        (s.logReexec f w.sw w).updSwathAt fid w.sw Swath.toRegion
      else if pastRegion w.regs.rgnSeq (r.getD 3 0) then s.updField fid Field.cmdStop
      else s) s

/-- A quadrant chooses a scalar stream; beyond the last core, a die's pager core goes on. -/
def execScalarIssueDecision (core quad : Nat) (s : State) : Result :=
  if 192 ≤ core then
    match mget s.pagers (core - 192) with
    | some p =>
      if p.running && p.sw.ctl.wait == SWait.none then .next { s with chosen := some (.pager (core - 192)) }
      else .next s
    | none => .next s
  else
    let s := s.replayParks core quad
    match decideAmong s core quad false (scalarCands s core quad) with
    | (some c, s) => .next ((s.charge c.ctx core quad false 1).clearYields core quad (some c.cls))
    | (none, s) => .next (s.clearYields core quad none)

/-! ### The lane-cycle record (R418, R419) -/

/-- Count lane positions in the bin of a lane PC. -/
def State.countBin (s : State) (c : Nat) (pc : W32) (g : Bin → Bin) : State :=
  match s.bankOf c with
  | none => s
  | some b =>
    if !(b.en && b.lcen) then s
    else
      let bin (i : Nat) : Bin := mgetD b.bins i
        { lo := 0, hi := 0, active := 0, masked := 0, predOff := 0, absent := 0, idle := 0, passes := 0 }
      match (List.range 16).find? (fun i => (bin i).lo ≤ pc && pc ≤ (bin i).hi) with
      | some i => s.setBank (s.bankNo c) { b with bins := mput b.bins i (g (bin i)) }
      | none => s

/-- Lanes of a mask. -/
def laneCount (m : LaneMask) : Nat := onesBelow m 1024

/-- The passes of an instruction whose M is `m`: one for each group with a lane, at least one (R70). -/
def passesOf (m : LaneMask) : Nat :=
  Nat.max 1 ((List.range 32).filter (fun g => m.extractLsb' (32 * g) 32 != (0 : BitVec 32))).length

/-- The active set of the next instruction of a fragment; branches act over the whole mask. -/
def nextActive (w : Swath) (g : Frag) (word : LaneWord) : LaneMask :=
  let r := LaneRaw.unpack word
  if r.op = 0x140 || r.op = 0x141 then g.mask else activeSet w g r.hdr

/-- The handler fragment has reached the end PC of its `TRUN` (R241). -/
def atHandlerEnd (w : Swath) (g : Frag) (second : Bool) : Bool :=
  g.endPc == some g.pc && (w.lanes.handlerFrag.map (·.1)) == some second

/-- The chosen fragment has an instruction to issue in this slot: it is not at the end of its `TRUN`, its
word can be fetched, and the instruction has not had its slot before. -/
def State.slotIssues (s : State) : Bool :=
  match s.laneFocus with
  | none => false
  | some (F, w, g, second) =>
    !g.charged && !atHandlerEnd w g second &&
      (match fetchLane s F g.pc with
       | .word _ _ => true
       | _ => false)

/-- The slot that issues a fragment's instruction: passes charged, positions counted. -/
def State.countSlot (s : State) (core quad : Nat) : State :=
  match s.laneFocus with
  | none => s
  | some (F, w, g, _) =>
    let m := match fetchLane s F g.pc with
      | .word v _ => nextActive w g v
      | _ => g.mask
    let a := laneCount m
    let n := laneCount g.mask
    (s.charge F.ctx core quad true (passesOf m)).countBin F.ctx g.pc (fun b =>
      { b with active := b.active + w64 a, predOff := b.predOff + w64 (n - a),
               masked := b.masked + w64 (32 * w.ng - n), absent := b.absent + w64 (1024 - 32 * w.ng),
               passes := b.passes + w64 (passesOf m) })

/-- An idle slot: each context with a running lane stream is charged at the lane PC of its oldest
fragment. -/
def State.countIdle (s : State) (cs : List Cand) : State :=
  (cs.map (·.ctx)).eraseDups.foldl (fun s c =>
    match leastBy (·.age) (cs.filter (fun d => d.ctx == c)) with
    | none => s
    | some d =>
      match d.party with
      | .lane fid sw b =>
        let pc := (((s.swathAt fid sw).bind (fun w => w.lanes.get b)).map (·.pc)).getD 0
        s.countBin c pc (fun b => { b with idle := b.idle + 1024 })
      | _ => s) s

/-- A quadrant chooses a fragment. The slot is idle where none is ready, and where the chosen one issues
nothing. -/
def execLaneIssueDecision (core quad : Nat) (s : State) : Result :=
  let cs := laneCands s core quad
  match decideAmong s core quad true cs with
  | (some c, s) =>
    let t := if s.slotIssues then s.countSlot core quad else s.countIdle cs
    .next (match c.party with
      | .lane fid sw b => t.updSwathAt fid sw (fun w => w.updFrag b (fun g => { g with charged := false }))
      | _ => t)
  | (none, s) => .next (s.countIdle cs)

/-- A candidate becomes aged: its mark is its place in the order of aging. -/
def execCandidateAges (p : PartyId) (s : State) : Result :=
  let (passed, aged) := match p with
    | .lane fid sw b =>
      (((s.swathAt fid sw).bind (fun w => w.lanes.get b)).map (fun (g : Frag) => (g.passed, g.aged))).getD (0, none)
    | p => ((s.swathOf p).map (fun (w : Swath) => (w.ctl.passed, w.ctl.aged))).getD (0, none)
  if passed < 32 || aged.isSome then .next s
  else .next { s.setCand p passed (some s.nextUid) with nextUid := s.nextUid + 1 }

/-! ### Candidates for placement (R115, R118, R125) -/

/-- A candidate: a swapped field (a meadow by its first field), or the next field of a launch. -/
inductive Waiter
  | back (fid : Nat)
  | fresh (launch : Nat)
  deriving DecidableEq, Repr

/-- A swapped group that may resume: none of its fields is stopped or waits for its slot, and one is
ready. A swath of it that is parked stays parked where the field resumes (R126, R292). -/
def groupReady (s : State) (fid : Nat) : Bool :=
  let grp := s.groupOf fid
  grp.all (fun (_, f) => f.status == FStatus.swapped && f.stop.isNone && !f.arena && !f.saving)
    && grp.any (fun (_, f) => f.ready)

/-- The first field of a field's group. -/
def groupHead (s : State) (fid : Nat) : Nat := ((s.groupOf fid).head?.map (·.1)).getD fid

/-- When the first of a group's fields became ready. -/
def groupSince (s : State) (fid : Nat) : Nat :=
  ((s.groupOf fid).filter (fun (_, f) => f.ready)).foldl (fun n (_, f) => Nat.min n f.readyAt) s.nextReady

/-- The next group of a launch has its image slots (R108). -/
def Launch.startable (l : Launch) : Bool :=
  !l.done && decide (l.next < l.lrec.count) && decide (l.slots.length + l.lrec.group ≤ l.lrec.imgslots)

/-- The candidates with their keys of R115. -/
def waiters (s : State) : List (Waiter × List Nat) :=
  (s.fields.filterMap (fun (fid, f) =>
    match mget s.launches f.launch with
    | none => none
    | some l =>
      if groupHead s fid == fid && groupReady s fid && s.places f.ctx then
        some (.back fid, [l.cls, 0, groupSince s fid])
      else none))
  ++ (s.launches.filterMap (fun (n, l) =>
    if l.startable && s.places l.ctx then some (.fresh n, [l.cls, 1, l.accNo]) else none))

/-- Insertion by key. -/
def insertKey {α : Type} (a : α × List Nat) : List (α × List Nat) → List (α × List Nat)
  | [] => [a]
  | b :: r => if keyLt b.2 a.2 then b :: insertKey a r else a :: b :: r

/-- The candidates, first to last. -/
def waitOrder (s : State) : List Waiter :=
  ((waiters s).foldl (fun l a => insertKey a l) []).map (·.1)

def Waiter.launch (s : State) : Waiter → Option Launch
  | .back fid => (s.field? fid).bind (fun f => mget s.launches f.launch)
  | .fresh n => mget s.launches n

/-- The class of a candidate; 4 when there is none. -/
def Waiter.cls (s : State) (w : Waiter) : Nat := ((w.launch s).map (·.cls)).getD 4

/-- The fields that stand on a core once some have left. -/
def standingBut (s : State) (gone : List Nat) (core : Nat) : List (Nat × Field) :=
  (s.residents core).filter (fun (fid, _) => !gone.contains fid)

/-- The seats of a candidate whose corner is `core`, some fields having left. -/
def seatsOf (s : State) (c : Waiter) (core : Nat) (standing : Nat → List (Nat × Field)) :
    Option (List Seat) :=
  match c.launch s with
  | none => none
  | some l =>
    match c with
    | .back fid => resumeSeats s l.lrec (s.groupOf fid) core standing
    | .fresh _ => newSeats s l core standing

def fitsOn (s : State) (c : Waiter) (gone : List Nat) (core : Nat) : Bool :=
  (seatsOf s c core (standingBut s gone)).isSome

/-- The cores of a die. -/
def dieCores (die : Nat) : List Nat := (List.range 48).map (48 * die + ·)

/-- It fits nowhere while others stand. -/
def cannotPlace (s : State) (c : Waiter) : Bool := allCores.all (fun k => !fitsOn s c [] k)

/-- It would fit nowhere with all other work absent, no unit under test and none still to be scrubbed or
zeroed (R118, R406). -/
def hopeless (s : State) (c : Waiter) : Bool :=
  let s := { s with heath := { s.heath with testing := [], released := [] },
                    ctxs := mmap s.ctxs (fun _ (x : Context) => { x with scrubHeld := [] }) }
  allCores.all (fun k => (seatsOf s c k (fun _ => [])).isNone)

/-- The end of a candidate that no placement could satisfy: `CAPACITY` (R118). The record of a field that
is swapped out names the field, no swath (31), lane 0 and the scalar PC of swath 0
(notes/assumptions/149.md). -/
def State.failCapacity (s : State) (c : Waiter) : State :=
  match c with
  | .back fid =>
    (s.groupOf fid).foldl (fun s (i, f) =>
      s.terminal i 0 { faultRec f 0 0 false 0 (raise .capacity) with coords := f.coords 31 0 }) s
  | .fresh n =>
    match mget s.launches n with
    | none => s
    | some l =>
      (s.updLaunch n (fun l => { l with done := true })).terminalRecord 0 l.ctx
        { cause := Cause.capacity.code, terminal := true, ctx := l.ctx, coords := noSwath,
          ltag := l.ltag }

/-- Place the fields of a group of a launch (R108, R114, R116). Each takes the lowest image slot that is
free; R108 leaves open which (notes/assumptions/148.md). -/
def State.placeFresh (s : State) (n : Nat) (l : Launch) (seats : List Seat) : State :=
  let one (s : State) (i : Nat) (seat : Seat) : State :=
    match (mget s.launches n).bind (fun m => lowestNot m.slots (m.slots.length + 1)) with
    | none => s
    | some slot =>
      let (mx, my) := if l.lrec.mw = 0 then (0, 0) else (i % l.lrec.mw, i / l.lrec.mw)
      let f := firstField l n l.next mx my slot seat
      let s := { s.setField s.nextFid f with nextFid := s.nextFid + 1 }
      (s.updLaunch n (fun l => { l with slots := l.slots ++ [slot] })).logField f 1
  (seats.zipIdx.foldl (fun s (seat, i) => one s i seat) s).updLaunch n (fun l => { l with next := l.next + 1 })

/-- Place or resume a candidate at its seats. -/
def State.seat (s : State) (c : Waiter) (seats : List Seat) : State :=
  match c with
  | .back fid => s.resumeGroup (((s.groupOf fid).map (·.1)).zip seats)
  | .fresh n =>
    match mget s.launches n with
    | some l => s.placeFresh n l seats
    | none => s

/-- No distributor places anything: a checkpoint runs, or fields stay halted (R315, R430). -/
def State.placing (s : State) : Bool := !s.ckptRuns && !s.heath.halted

/-- A distributor places the first candidate that fits its die, with its corner on one of the device's
cores; one that could never be placed ends (R9, R113-R118). -/
def execFieldPlace (core : Nat) (s : State) : Result :=
  if !s.placing || 192 ≤ core then .next s
  else match (waitOrder s).find? (hopeless s) with
    | some c => .next (s.failCapacity c)
    | none =>
      match (waitOrder s).find? (fun c => (dieCores (core / 48)).any (fitsOn s c [])) with
      | none => .next s
      | some c =>
        match seatsOf s c core (standingBut s []) with
        | some seats => .next (s.seat c seats)
        | none => .next s

/-! ### Swap-outs (R116, R125, R300, R415-R417) -/

/-- A swath that lets its field be swapped out. -/
def swathSwappable (w : Swath) : Bool :=
  w.ctl.exited || w.ctl.parked.isSome
    || (w.meet.hs != .running && (match w.ctl.wait with
        | .waitm .. => true
        | .exit => true
        | _ => false))

/-- A field and, in a meadow, every field of it is swappable. -/
def swappable (s : State) (fid : Nat) : Bool :=
  (s.groupOf fid).all (fun (_, f) => f.status == FStatus.resident && f.stop.isNone
    && f.sws.all (fun (_, w) => swathSwappable w))

/-- Every swath of a field has halted at the end of its slice. -/
def sliceOver (s : State) (fid : Nat) : Bool :=
  (s.groupOf fid).all (fun (_, f) => f.status == FStatus.resident && f.slicing
    && f.sws.all (fun (_, w) => w.ctl.exited || (w.lanes.reconverged && w.ctl.level == 0)))

/-- Leave out of a list, one after another, what is not needed for `ok`; `keep` is never left out. -/
def needed (ok : List Nat → Bool) (keep : Nat) : List Nat → List Nat → List Nat
  | [], acc => acc
  | x :: r, acc =>
    if x != keep && ok (acc ++ r) then needed ok keep r acc else needed ok keep r (acc ++ [x])

/-- Groups, by one field of each, that may be taken for a candidate: swappable, of its class or a less
urgent one. -/
def givers (s : State) (cls : Nat) : List Nat :=
  (s.fields.filter (fun (fid, f) =>
    f.status == FStatus.resident && groupHead s fid == fid && swappable s fid
      && decide (cls ≤ ((mget s.launches f.launch).map (·.cls)).getD 0))).map (·.1)

/-- The fields of a list of groups. -/
def fieldsOf (s : State) (groups : List Nat) : List Nat :=
  groups.flatMap (fun g => (s.groupOf g).map (·.1))

/-- The groups to swap out, `fid`'s among them, so that a candidate can be placed at once with its
corner on `core`. -/
def roomAt (s : State) (c : Waiter) (fid core : Nat) : Option (List Nat) :=
  let all := givers s (c.cls s)
  let ok (l : List Nat) : Bool := fitsOn s c (fieldsOf s l) core
  if !all.contains fid || !ok all then none
  else
    let l := needed ok fid all []
    if ok (l.filter (· != fid)) then none else some l

/-- The first candidate that gains by `fid`'s going, its corner, and the groups to swap out. -/
def roomFor (s : State) (fid : Nat) : Option (Waiter × Nat × List Nat) :=
  let die := ((s.field? fid).map (fun f => f.core / 48)).getD 0
  (waitOrder s).findSome? (fun c =>
    if cannotPlace s c then
      (dieCores die).findSome? (fun core => (roomAt s c (groupHead s fid) core).map (c, core, ·))
    else none)

/-- What the fields that have left released goes to the candidate for which they left: it is placed at
once (R125). -/
def State.giveRoom (s : State) (c : Waiter) (core : Nat) : State :=
  match seatsOf s c core (standingBut s []) with
  | some seats => s.seat c seats
  | none => s

/-- The dump of a barrier in a stop record (R417). -/
def barDump (f : Field) (b : Nat) (v : Bar) : W64 :=
  let tok (t : BitVec 32) : Bool := tokHas t b && tokPhase t b == v.phase
  let scal := f.sws.foldl (fun n (i, w) => n + b2n (tok w.eng.stok) * 2 ^ (32 + i)) 0
  let frag := f.sws.any (fun (_, w) =>
    w.lanes.f0.any (fun g => tok g.tok) || w.lanes.f1.any (fun g => tok g.tok))
  -- bit 63 is set by a token of swath 31's scalar stream or of any fragment
  w64 (v.expected + v.pending * 2 ^ 12 + b2n v.phase * 2 ^ 24 + scal) ||| w64 (b2n frag * 2 ^ 63)

/-- The 32 dwords of a stop record (R416). -/
def stopWords (s : State) (f : Field) (t : Stop) (seq : Nat) : List W64 :=
  let ltag := ((mget s.launches f.launch).map (·.ltag)).getD 0
  let head := [w64 (b2n t.brk + b2n t.cmd * 2 + b2n (f.status == FStatus.faulted) * 4 + t.code * 256 + f.ctx * 2 ^ 32),
               w64 (t.mask.toNat + ltag.toNat * 2 ^ 32), f.coords 31 0, w64 seq]
  let dumps := f.bars.zipIdx.map (fun (v, b) => barDump f b v)
  head ++ dumps ++ List.replicate (28 - dumps.length) 0

/-- A stop is complete: READY of its slot is 0, and its record enters the log and goes to the debugger
(R415, R416). -/
def State.stopDone (s : State) (fid : Nat) : State :=
  match s.field? fid with
  | none => s
  | some f =>
    match f.stop with
    | none => s
    | some t =>
      let seq := ((s.bankOf f.ctx).map (·.logSeq)).getD 0
      let s := s.logField f 6
      ((s.send (.stopRec (stopWords s f t seq))).setField fid
        { f with ready := false, stop := some { t with halted := true } }).putStatus fid

/-- A distributor swaps a field out: for a stop, at the end of its slice, or for a candidate. -/
def execFieldSwapOut (fid : Nat) (s : State) : Result :=
  match s.field? fid with
  | none => .next s
  | some f =>
    if f.stop.any (fun t => !t.halted) then
      let s := s.swapGroup fid
      -- the record is made once the slots hold the state (R416)
      .next (if (s.groupOf fid).any (fun (_, f) => f.saving) then s else s.stopDone fid)
    else if sliceOver s fid then .next (s.swapGroup fid)
    else match (if s.placing then roomFor s fid else none) with
      | some (c, core, l) => .next ((l.foldl (fun s g => s.swapGroup g) s).giveRoom c core)
      | none => .next s

/-! ### Urgent claims and slices (R297-R300, R400) -/

/-- A field has a swath or its tiles on a quadrant. -/
def usesQuad (f : Field) (q : Nat) : Bool :=
  f.sws.any (fun (_, w) => w.quad == q && !w.ctl.exited) || (f.tiles != 0 && f.mquad == q)

/-- The groups with something on a quadrant, numbered over the device. -/
def quadGroups (s : State) (q : Nat) : List Nat :=
  (((s.residents (q / 4)).filter (fun (_, f) => usesQuad f (q % 4))).map (fun (i, _) => groupHead s i)).eraseDups

/-- A quadrant that a context owns holds something of a less urgent class than `cls`. -/
def claimable (s : State) (c cls q : Nat) : Bool :=
  (ownedQuads s c (q / 4)).contains (q % 4)
    && (s.residents (q / 4)).any (fun (_, f) =>
          usesQuad f (q % 4) && decide (cls < ((mget s.launches f.launch).map (·.cls)).getD 0))

/-- The quadrants to claim, `q` among them, so that a candidate can be placed at once. -/
def claimAt (s : State) (c : Waiter) (ctx q core : Nat) : Option (List Nat) :=
  let all := ((List.range 192).filter (fun k => k / 48 == core / 48)).flatMap (fun k =>
    ((List.range 4).map (4 * k + ·)).filter (claimable s ctx 0))
  let ok (l : List Nat) : Bool := fitsOn s c (fieldsOf s (l.flatMap (quadGroups s))) core
  if !all.contains q || !ok all then none
  else
    let l := needed ok q all []
    if ok (l.filter (· != q)) then none else some l

/-- The quadrants of the first class-0 candidate that claims a quadrant. -/
def claimFor (s : State) (q : Nat) : Option (List Nat) :=
  (waitOrder s).findSome? (fun c =>
    match c.launch s with
    | none => none
    | some l =>
      if l.cls = 0 && cannotPlace s c then
        (dieCores (q / 4 / 48)).findSome? (claimAt s c l.ctx q)
      else none)

/-- A class-0 candidate claims a quadrant, with those that it needs beside it: the fields there are
halted and leave (R297). -/
def execUrgentClaim (core quad : Nat) (s : State) : Result :=
  match (if s.placing then claimFor s (4 * core + quad) else none) with
  | some qs => .next ((qs.flatMap (quadGroups s)).eraseDups.foldl (fun s g => s.swapGroup g) s)
  | none => .next s

/-- The lines that a quadrant's register cache holds (R11). -/
def registerCacheLines : Nat := 2048

/-- The image lines of the swaths that stand on a quadrant. -/
def quadLines (s : State) (core quad : Nat) : Nat :=
  (swathsAt s core quad).foldl (fun n (_, _, _, w) => n + imageSize w.vregs w.ng / 128) 0

/-- A line of a resident swath's image is written back or filled: where its quadrant's swaths have more lines
than the register cache holds, some line of it, which is free. Its bytes are those that the swath holds;
what can be seen is a line that cannot be translated or read, which ends the field, and a lease fault, for
which the swath waits (R11, R285; notes/assumptions/111.md). -/
def State.scanLine (s : State) (fid sw : Nat) (f : Field) (w : Swath) : State :=
  match mget s.launches f.launch with
  | none => s
  | some l =>
    if w.ctl.lineWait || quadLines s f.core w.quad ≤ registerCacheLines then s
    else
      let n := imageSize w.vregs w.ng / 128
      let o := 0x14_1000 + l.lrec.zPrime * sw + 128 * (Config.freeNat s.freeCtr % n)
      match arenaMap s (f.core / 48) f.ctx (slotVa l.lrec f) false [(o, 128)] with
      | .ok _ => s.tick
      | .error (e, va) =>
        if e.gate.isSome then s.tick
        else if e.cause.parks then
          (s.tick.updSwathAt fid sw (fun w => { w with ctl := { w.ctl with lineWait := true } })).toServicer
            (f.core / 48) f.ctx (f.coords sw 0) 0 (.line fid sw) (e.raise va)
            { arenaRec s f e va with coords := f.coords sw 0, spc := w.regs.pc }
        else s.tick.imageInvalid fid f sw

/-- Register lines of a field that has left are written back to its slot (R298). Where the swap-out has
written them already, the same bytes are written again; where its slot could not be reached then, it is
written now, once the fault on it has been served (R285). Of a resident field, one line is written back or
filled. -/
def execRegisterLineScanOut (fid sw : Nat) (s : State) : Result :=
  match s.field? fid, s.swathAt fid sw with
  | some f, some w =>
    if f.status == FStatus.resident && !f.saving then .next (s.scanLine fid sw f w)
    else if f.arena || !(f.status == FStatus.swapped || f.saving) then .next s
    else match s.saveSlot fid with
      | .done s => .next s
      | .waits s => .next s
      | .bad => .next (if f.saving then s.imageInvalid fid f f.firstSw else s)
  | _, _ => .next s

/-- A context's quantum on a quadrant ends, for a candidate of another context that waits for it: its
fields there end their slice (R300). -/
def execTenantSliceEnd (ctx core quad : Nat) (s : State) : Result :=
  let gain (c : Waiter) : Option Nat :=
    match c.launch s with
    | some l =>
      if l.ctx != ctx && (ownedQuads s l.ctx core).contains quad && cannotPlace s c then some l.cls else none
    | none => none
  match (waitOrder s).findSome? gain with
  | none => .next s
  | some cls =>
    let gs := (quadGroups s (4 * core + quad)).filter (fun g => (s.field? g).any (fun f =>
      f.ctx == ctx && decide (cls ≤ ((mget s.launches f.launch).map (·.cls)).getD 0)))
    .next ((fieldsOf s gs).foldl (fun s i => s.updField i (fun f => { f with slicing := true })) s)

/-- The reconvergence wait of a slice runs out: the field is halted as it stands (R300). -/
def execReconvWaitExpire (fid : Nat) (s : State) : Result :=
  if (s.field? fid).any (fun f => f.slicing && f.status == FStatus.resident) then .next (s.swapGroup fid)
  else .next s

/-! ### Budget periods (R273, R303, R306, R378, R397, R430) -/

/-- A millisecond passes for a lease: REMAIN falls, and the lease expires or warns. -/
def State.leaseMs (s : State) (n : Nat) (l : Lease) : State :=
  if l.st != LeaseState.live then s
  else
    let r := l.remain - 1
    let s := s.setLease n { l with remain := r }
    let next : List Pending :=
      if r = 0 then [.leaseExpire n]
      else if l.ack || 10000 < r then []
      else if l.warn then [.leaseWarnRepeat n] else [.leaseWarn n]
    { s with agenda := s.agenda ++ next }

/-- The average power, in milliwatts. -/
def Heath.average (h : Heath) : Nat := h.power.foldl (· + ·) 0 / Nat.max 1 h.power.length

/-- The average or a junction exceeds its limit; every reading, the coolant inlet's with them, is at least
5% below its limit of 3,200 W, 95 °C or 45 °C (R430). -/
def Heath.hot (h : Heath) : Bool := decide (3200000 < h.average) || h.temps.any (95 < ·)
def Heath.cool (h : Heath) : Bool :=
  decide (h.average ≤ 3040000) && decide (h.inlet ≤ 42) && h.temps.all (· ≤ 90)

/-- The core clock of the next period (R430). -/
def Heath.nextClock (h : Heath) : Nat :=
  if h.hot then Nat.max 1000 (h.clockMhz - 125)
  else if h.cool then Nat.min 2000 (h.clockMhz + 125)
  else h.clockMhz

/-- A 20 µs boundary: use resets, pending budgets govern, COUNTs halve, the clock follows, every armed
`WAITM` looks at its word again (R67), and the ring records that wait are tried again (R393). -/
def execBudgetPeriodBoundary (s : State) : Result :=
  let t := s.time.toNat / 20 * 20 + 20
  let s' := { s with
    time := w64 t,
    ctxs := mmap s.ctxs (fun _ (x : Context) =>
      { x with budgets := x.pending.getD x.budgets, pending := none, usedW := [] }),
    used := [],
    frames := mmap s.frames (fun _ (e : Frame) => { e with count := e.count / 2 }),
    heath := { s.heath with clockMhz := s.heath.nextClock } }
  let s' := if s.heath.nextClock < s.heath.clockMhz then s'.heathLog 8 0 0 0 (w64 s.heath.nextClock) else s'
  let s' : State := { s' with agenda := s'.agenda ++ (waitms s').map (fun (F, _) => Pending.reread F.party) }
  -- contexts without a share of the reporting ports come last (R288, R397)
  let cs := s'.ctxs.map (·.1)
  let s' : State := (cs.filter (faultShare s' · != 0) ++ cs.filter (faultShare s' · == 0)).foldl State.retryRings s'
  if t / 1000 = s.time.toNat / 1000 then .next s'
  else .next (s'.leases.foldl (fun s (n, l) => s.leaseMs n l) s')

/-! ### What the device does to copies and translations (R221, R222, R267) -/

/-- A walk completes and fills the TLB of its gateway, or faults. -/
def execWalkComplete (gateway ctx : Nat) (va : W64) (s : State) : Result :=
  if 36 ≤ gateway then .next s
  else match compose s gateway ctx va.toNat with
  | .ok e => .next ((s.countFor ctx cWALKS 1).walked gateway ctx va.toNat e)
  | .error _ => .next s

/-- The copy of a line in a unit. -/
def isCopy (unit ctx vaLine : Nat) (c : Copy) : Bool :=
  c.unit == unit && c.ctx == ctx && c.va == vaLine

/-- The dirty bytes of a copy go to the next level out. -/
def execCacheWriteback (l2 : Bool) (unit ctx vaLine : Nat) (s : State) : Result :=
  let p := isCopy unit ctx vaLine
  if l2 then
    match linesHold s (dirtyLines s (fun _ => false) p) with
    | some s' => .next s'
    | none => .next (s.wbL2s p)
  else .next (s.wbL1s p)

/-- The clean bytes of a copy go. -/
def execCacheEvict (l2 : Bool) (unit ctx vaLine : Nat) (s : State) : Result :=
  let p := isCopy unit ctx vaLine
  if l2 then .next { s with l2 := dropCleanOf p s.l2 } else .next { s with l1 := dropCleanOf p s.l1 }

end Sys2Proof.Machine
end

