-- ==== Sys2Proof/Machine/Submit.lean ====
section
/-! DEFINITION. The queue port, the firmware agents' claims and checks, the management queue and the
completion of launches (R105-R107, R265, R275, R408-R414). -/

namespace Sys2Proof.Machine
open Sys2Proof

/-! ### The queue port (R408, R409) -/

/-- How the port answers a write. -/
def cplDone : Nat := 0
def cplUnsupported : Nat := 1
def cplBusy : Nat := 2

/-- The management queue's page. -/
def managePage : Nat := 1024

/-- The sets of the page cache are fixed when the first launch is accepted (R275). -/
def State.fixSets (s : State) : State :=
  if s.setsFixed then s
  else { s with setsFixed := true,
                frames := mmap s.frames (fun _ (e : Frame) => { e with inSet := e.role == .cache }) }

/-- The context and class under which a page takes a write of a function; none is refused. -/
def enqueueAs (s : State) (vf : Option Nat) (page : Nat) (pasid : Option Nat) : Option (Nat × Nat) :=
  if page = managePage then
    if vf.isNone && pasid.getD 0 == 0 then some (0, 0) else none
  else if managePage < page then none
  else match (s.queue page).binding, pasid with
    | some b, some p => if b.pasid = p then some (b.ctx, b.cls) else none
    | _, _ => none

/-- An enqueue write at an offset of a page: refused, busy or accepted. -/
def execEnqueue (vf : Option Nat) (page off : Nat) (pasid : Option Nat) (record : List W64) (s : State) :
    Result :=
  let refuse : Result :=
    .next ((s.heathLog 7 0 0 0 (w64 (page + pasid.getD 0 * 2 ^ 16 + (vf.map (· + 1)).getD 0 * 2 ^ 40))).send
      (.completion cplUnsupported))
  if s.heath.bootStep < 6 || off ≠ 0 || record.length ≠ 16 then refuse
  else match enqueueAs s vf page pasid with
    | none => refuse
    | some (c, cls) =>
      let q := s.queue page
      if 64 ≤ q.recs.length then .next (s.send (.completion cplBusy))
      else
        let r : Claim := { queue := page, words := record, accNo := s.accNo, ctx := c, cls := cls,
                           vf := (s.ctx? c).bind (·.vf), waiting := false }
        let s := if page ≠ managePage && fld (record.headD 0) 3 0 = 1 then s.fixSets else s
        .next ({ s with
          accNo := s.accNo + 1,
          queues := mput s.queues page
            { q with tail := q.tail + 1, accepted := q.accepted + 1, recs := q.recs ++ [r] } }.send
          (.completion cplDone))

/-- The status word of a queue's page, at offset 0x80: ACCEPTED and OCC (R408). -/
def queueStatus (s : State) (q : Nat) : W64 :=
  w64 ((s.queue q).accepted.toNat * 2 ^ 32 + (s.queue q).recs.length)

/-- Any other access to the port, or to a counter bank, receives Unsupported Request. -/
def execBarUnsupportedAccess (vf : Option Nat) (bar off : Nat) (s : State) : Result :=
  let _ := (vf, bar, off)
  .next (s.send (.completion cplUnsupported))

/-! ### Claims (R412, R413) -/

/-- The queue from which an idle agent claims: the management queue, else the lowest of the most urgent
class. -/
def chooseQueue (s : State) : Option Nat :=
  if !(s.queue managePage).recs.isEmpty then some managePage
  else
    let qs := s.queues.filterMap (fun (n, q) =>
      match q.recs with
      | [] => none
      | r :: _ => some (n, [(q.binding.map (·.cls)).getD r.cls, n]))
    (leastBy (·.2) qs).map (·.1)

/-- An idle agent claims the oldest record of the queue that it chooses. -/
def execAgentClaim (core : Nat) (s : State) : Result :=
  if 192 ≤ core || s.heath.bootStep < 6 || (mget s.claims core).isSome then .next s
  else match chooseQueue s with
    | none => .next s
    | some n =>
      let q := s.queue n
      match q.recs with
      | [] => .next s
      | r :: rest =>
        .next { s with
          queues := mput s.queues n { q with head := q.head + 1, recs := rest },
          claims := mput s.claims core r }

/-- The lock-step results differ: the agent of a core, which runs from boot step 6 on, stops, is logged, and
restarts with its claims (R412; notes/assumptions/157.md). -/
def execAgentMismatch (core : Nat) (s : State) : Result :=
  if 192 ≤ core || s.heath.bootStep < 6 then .next s else .next (s.heathLog 11 0 core 0 0)

/-! ### The launch record (R106, R107) -/

/-- The record of the dwords read at LREC, with COUNT and the rest as they stand there. -/
def readLaunch (w : List W64) : LaunchRec :=
  let d (i : Nat) : W64 := w.getD i 0
  let role (i : Nat) : Nat × Nat := (fld (d 7) (16 * i + 5) (16 * i), fld (d 7) (16 * i + 15) (16 * i + 8) + 1)
  { scode := d 0, lcode := d 1, llen := fld (d 2) 31 0, const := d 3, clen := fld (d 4) 19 0,
    count := fld (d 5) 23 0, swaths := fld (d 5) 32 28 + 1, lanes := fld (d 5) 37 33 + 1,
    acc := fld (d 5) 42 38, barr := fld (d 5) 47 43, vregs := fld (d 5) 55 48 + 1, scr := fld (d 6) 10 0,
    mw := fld (d 6) 20 16, mh := fld (d 6) 25 21, cls := fld (d 6) 27 26,
    roles := [role 0, role 1, role 2, role 3], chk := (d 8).setWidth 2, seed := d 9, compl := d 10,
    imgva := d 11, imgslots := fld (d 12) 31 0 }

/-- No reserved field of a launch record is set, and no field holds a reserved value. -/
def launchFields (w : List W64) : Bool :=
  let d (i : Nat) : W64 := w.getD i 0
  let r := readLaunch w
  fld (d 2) 63 32 == 0 && fld (d 4) 63 20 == 0 && fld (d 5) 27 24 == 0 && fld (d 5) 63 56 == 0
    && fld (d 6) 15 11 == 0 && fld (d 6) 63 28 == 0
    && (List.range 4).all (fun i => fld (d 7) (16 * i + 7) (16 * i + 6) == 0)
    && fld (d 8) 63 2 == 0 && fld (d 12) 63 32 == 0 && d 13 == 0 && d 14 == 0 && d 15 == 0
    && decide (r.acc ≤ 16) && decide (r.barr ≤ 16) && decide (r.scr ≤ 1024) && decide (r.clen ≤ 524288)

/-- The alignments of R106 and the counts of R107. -/
def launchShape (r : LaunchRec) : Bool :=
  let n := r.roles.foldl (fun n (c, _) => n + c) 0
  r.scode.toNat % 4 == 0 && (r.llen == 0 || r.lcode.toNat % 128 == 0)
    && (r.clen == 0 || r.const.toNat % 8 == 0) && r.clen % 8 == 0 && r.imgva.toNat % 128 == 0
    && r.count != 0 && r.imgslots != 0 && decide (r.mw * r.mh ≤ 24) && decide (r.mw ≤ 8)
    && decide (r.mh ≤ 6) && ((r.mw == 0) == (r.mh == 0)) && r.compl.toNat % 8 == 0
    && (n == 0 || n == r.swaths) && decide (r.mw * r.mh ≤ r.imgslots)

/-- What a judgement of a range says: it can be reached, it cannot, or an owner must answer first. -/
inductive Judged
  | can
  | cannot
  | wait (e : XErr) (va : Nat)
  deriving DecidableEq, Repr

/-- A page whose bytes are judged alike: not of class CONTENT, not in a pinned part of an SRAM, and in no
unit of a content store. Elsewhere the bytes of one line are judged alike (R255, R256, R354, R361). -/
def evenPage (s : State) (e : TlbEnt) : Bool :=
  e.cls != 3
    && (match dregion e.dpa with
        | .sram _ _ => false
        | _ => true)
    && !s.regions.any (fun (_, g) => g.st != .free && decide (g.store < e.dpa + 65536)
        && decide (e.dpa < g.store + 128 * (1024 * g.capk) + 128 * (512 * g.capk)))

/-- What the walk of the tables meets before a page can be judged: an owner or a pager must serve it
first, or there is no translation (notes/assumptions/135.md). -/
def walkJudged (e : XErr) (va : Nat) : Judged :=
  if e.cause.parks || e.gate.isSome then .wait e va else .cannot

/-- A byte passes checks 5 to 7 for an access of the kind: a `SHARED_WRITE` does not mean cannot, checks 9
to 11 are not judged, and what the walk of a content window meets comes after check 7 (R107, R361). -/
def passes (s : State) (ctx va : Nat) (wr : Bool) (e : TlbEnt) : Bool :=
  match judge s ctx va { rd := !wr, wr := wr, ex := false, super := false, ignoreS := true } e with
  | .ok _ => true
  | .error x =>
    match x.cause with
    | .sharedWrite | .firstTouch | .poolMiss | .leaseExpired | .leaseRevoked | .nodeLost | .poisoned
    | .contentMalformed | .notMapped => true
    | _ => false

/-- Judge every byte of `[va, va + n)`; `k` bounds the steps. -/
def judgeFrom (s : State) (ctx : Nat) (wr : Bool) : Nat → Nat → Nat → Judged
  | 0, _, _ => .can
  | k + 1, va, n =>
    if n = 0 then .can
    else
      match entryFor s (diePort 0) ctx (va % 2 ^ 64) with
      | .error e => walkJudged e va
      | .ok e =>
        let grain := if evenPage s e then 65536 else 128
        let step := Nat.min n (grain - va % grain)
        if passes s ctx (va % 2 ^ 64) wr e then judgeFrom s ctx wr k (va + step) (n - step) else .cannot

def judge1 (s : State) (ctx : Nat) (wr : Bool) (va n : Nat) : Judged :=
  judgeFrom s ctx wr (n / 128 + 2) va n

/-- Judge ranges one after another. -/
def judgeAll (s : State) (ctx : Nat) : List (Bool × Nat × Nat) → Judged
  | [] => .can
  | (wr, va, n) :: rest =>
    match judge1 s ctx wr va n with
    | .can => judgeAll s ctx rest
    | j => j

/-- The ranges of R107. -/
def launchRanges (r : LaunchRec) : List (Bool × Nat × Nat) :=
  (if r.compl = 0 then [] else [(true, r.compl.toNat, 8)])
    ++ [(false, r.scode.toNat, 4), (false, r.lcode.toNat, 12 * r.llen), (false, r.const.toNat, r.clen),
        (false, r.imgva.toNat, r.slotSize * r.imgslots), (true, r.imgva.toNat, r.slotSize * r.imgslots)]

/-- The launch record at its home, or the first error. -/
def fetchLaunch (s : State) (ctx va : Nat) : Except XErr (List W64) :=
  match forContext s 0 ctx va false with
  | .error e => .error e
  | .ok xl => .ok ((List.range 16).map (fun i => if xl.zero then 0 else w64 (homeRd s (xl.dpa + 8 * i) 8)))

/-! ### Checking and handing over a launch (R107, R410, R411) -/

/-- The enqueue record of a launch: XA, XB and RESULT are of a MANAGE record, and not reserved (R410, R411;
notes/assumptions/142.md). -/
def enqueueOk (s : State) (c : Claim) : Bool :=
  let d (i : Nat) : W64 := c.words.getD i 0
  let vec := fld (d 0) 15 8
  fld (d 0) 3 0 == 1 && fld (d 0) 7 5 == 0 && fld (d 0) 63 16 == 0 && fld (d 1) 63 32 == 0
    && d 3 == 0 && d 4 == 0 && (c.words.drop 8).all (· == 0) && (d 2).toNat % 128 == 0
    && (if bitAt (d 0) 4 then decide (2 ≤ vec) && ((s.ctx? c.ctx).bind (·.vf)).isSome else vec == 0)

/-- A launch tag. -/
def Claim.ltag (c : Claim) : W32 := (c.words.getD 1 0).setWidth 32

/-- The launch that a checked record makes. -/
def newLaunch (s : State) (c : Claim) (r : LaunchRec) : Launch :=
  let max := ((s.ctx? c.ctx).map (·.policy.maxClass)).getD 3
  let w0 := c.words.headD 0
  { ctx := c.ctx, ltag := c.ltag, irq := bitAt w0 4, vec := fld w0 15 8, vf := c.vf, lrec := r,
    cls := Nat.max r.cls (Nat.max c.cls max), accNo := c.accNo, next := 0, finished := 0, faulted := 0,
    slots := [], completing := false, complWait := false, done := false }

/-- The agent of a core gives its claim up, or waits for a service. -/
def State.endClaim (s : State) (core : Nat) : State := { s with claims := mdel s.claims core }

def State.refuseClaim (s : State) (core : Nat) (c : Claim) : State :=
  (s.refuseLaunch (core / 48) c.ctx c.ltag .launchInvalid).endClaim core

/-- An agent waits for the owner of a range table or for a pager. -/
def State.agentWaits (s : State) (ctx : Nat) (ltag : W32) (who : Nat) (e : XErr) (va : Nat) :
    State :=
  let r := e.raise va
  s.toServicer 0 ctx noSwath 5 (.agent who) r
    { cause := r.cause.code, terminal := false, ctx := ctx, va := r.va, coords := noSwath, ltag := ltag }

/-- The claim waits for a service; what a fenced port or a rebuilding entry keeps back is tried again
(R332, R334). -/
def State.claimWaits (s : State) (core : Nat) (c : Claim) (e : XErr) (va : Nat) : State :=
  if e.gate.isSome then s
  else
    { s with claims := mput s.claims core { c with waiting := true } }.agentWaits c.ctx c.ltag core e va

/-- The checks of a launch record that has been read, and the hand-over of its launch (R107, R411). -/
def State.checkLaunch (s : State) (core : Nat) (c : Claim) (w : List W64) : State :=
  let r := readLaunch w
  if !launchFields w || !launchShape r then s.refuseClaim core c
  else match judgeAll s c.ctx (launchRanges r) with
    | .cannot => s.refuseClaim core c
    | .wait e a => s.claimWaits core c e a
    | .can => { s with launches := mput s.launches (192 + c.accNo) (newLaunch s c r) }.endClaim core

/-- The agent checks a LAUNCH record and hands the launch to the distributors, or refuses it. It reads the
launch record once: while a range of it waits to be judged, the claim keeps what was read (R105). -/
def execLaunchCheck (core : Nat) (s : State) : Result :=
  match mget s.claims core with
  | none => .next s
  | some c =>
    if c.waiting || c.queue = managePage then .next s
    else if !enqueueOk s c then .next (s.refuseClaim core c)
    else match c.lrec with
    | some w => .next (s.checkLaunch core c w)
    | none =>
      let va := (c.words.getD 2 0).toNat
      match judge1 s c.ctx false va 128 with
      | .cannot => .next (s.refuseClaim core c)
      | .wait e a => .next (s.claimWaits core c e a)
      | .can =>
        match fetchLaunch s c.ctx va with
        | .error e =>
          if e.cause.parks || e.gate.isSome then .next (s.claimWaits core c e va)
          else .next (s.refuseClaim core c)
        | .ok w =>
          let c := { c with lrec := some w }
          .next ({ s with claims := mput s.claims core c }.checkLaunch core c w)

/-! ### The management queue (R392, R411) -/

/-- The record is well formed: OP 2, no reserved field set, a form, a result pair that can be aligned. IRQ,
VEC and LTAG name no reserved field, and a MANAGE record has no use for them
(notes/assumptions/136.md). -/
def manageOk (d : List W64) : Bool :=
  let w (i : Nat) : W64 := d.getD i 0
  fld (w 0) 3 0 == 2 && fld (w 0) 7 5 == 0 && fld (w 0) 63 16 == 0 && fld (w 1) 63 32 == 0
    && w 2 == 0 && w 3 == 0 && decide ((w 4).toNat < 8)
    && (w 7).toNat % 16 == 0 && (d.drop 8).all (· == 0)

/-- The context form of a record, as context 0. -/
def manageForm (d : List W64) (s : State) : CtxOut :=
  let a := d.getD 5 0
  let b := d.getD 6 0
  match (d.getD 4 0).toNat with
  | 0 => ctxNew dpaCaller a.toNat s
  | 1 => ctxGrant dpaCaller a b.toNat s
  | 2 => ctxRevoke dpaCaller a b s
  | 3 => ctxBudg dpaCaller a b.toNat s
  | 4 => ctxQ dpaCaller a b s
  | 5 => ctxInfo dpaCaller (w64 (fld a 31 0)) (w64 (fld a 63 32)) b.toNat s
  | 6 => ctxKill dpaCaller a s
  | _ => rflt dpaCaller a.toNat b s

/-- The result pair is written and vector 2 of the physical function goes out; none while the host must
answer first. -/
def State.manageDone (s : State) (core : Nat) (d : List W64) (x y : W64) : Option State :=
  match dpaCaller.wrs (d.getD 7 0).toNat [x, y] s with
  | .ok _ s => some ((s.send (.msix none 2)).endClaim core)
  | _ => none

/-- The halves of the host that a result pair needs are asked for. -/
def resultHold (s : State) (d : List W64) : Option State :=
  match forContext s 0 0 (d.getD 7 0).toNat true with
  | .ok xl => writeHold s (xl.dpa / 128) (byteMask (xl.dpa % 128) 16)
  | .error _ => none

/-- An agent executes a MANAGE record. -/
def execManageExecute (core : Nat) (s : State) : Result :=
  match mget s.claims core with
  | none => .next s
  | some c =>
    if c.queue ≠ managePage then .next s
    else
      let d := c.words
      let drop : Result := .next ((s.heathLog 7 0 core 0 (d.headD 0)).endClaim core)
      if !manageOk d then drop
      else match forContext s 0 0 (d.getD 7 0).toNat true, resultHold s d with
        | .error e, _ => if e.gate.isSome then .next s else drop
        | _, some s' => .next s'
        | .ok _, none =>
          match manageForm d s with
          | .hold s' => .next s'
          | .trap r => .next ((s.manageDone core d (w64 (2 ^ 63 + r.cause.code.toNat)) 0).getD s)
          | .done s' k v => .next (((s'.manageDone core d (w64 k) v).getD (s'.endClaim core)).evictDisplaced)

/-! ### Completion (R414) -/

/-- Every field of a launch has finished. -/
def Launch.over (l : Launch) : Bool := l.finished == l.lrec.count * l.lrec.group

/-- The completion word. -/
def Launch.word (l : Launch) : Nat := l.ltag.toNat + l.faulted % 2 ^ 24 * 2 ^ 32 + 2 ^ 63

/-- Every field has finished: the agent writes the completion word and sends the vector. -/
def execLaunchComplete (launch : Nat) (s : State) : Result :=
  match mget s.launches launch with
  | none => .next s
  | some l =>
    if l.done || l.complWait || !l.over then .next s
    else
      let done (s : State) : State := (s.updLaunch launch (fun l => { l with done := true })).launchVector l
      if l.lrec.compl = 0 then .next (done s)
      else match forContext s 0 l.ctx l.lrec.compl.toNat true with
        | .ok xl =>
          match homePutHold s xl.dpa l.word 8 with
          | .ok _ s => .next (done s)
          | .hold s => .next s
          | .fault e => .next (s.agentFault launch e.cause.code)
        | .error e =>
          if e.gate.isSome then .next s
          else if e.cause.parks then
            .next ((s.updLaunch launch (fun l => { l with complWait := true })).agentWaits l.ctx l.ltag launch
              e l.lrec.compl.toNat)
          else .next (s.agentFault launch e.cause.code)

end Sys2Proof.Machine
end

