-- ==== Sys2Proof/Machine/Debug.lean ====
section
/-! DEFINITION. Debugger commands, and writes to a counter bank's registers (R415, R420, R423). -/

namespace Sys2Proof.Machine
open Sys2Proof

/-! ### Stopping a field (R415) -/

/-- The fields that a debugger command names: a field, or the fields of a meadow. -/
def namedFields (s : State) (ctx ltag field : Nat) : List Nat :=
  (s.fields.filter (fun (_, f) => f.ctx == ctx && f.num == field
    && (mget s.launches f.launch).any (fun l => l.ltag.toNat == ltag))).map (·.1)

/-- A stop of one field: a resident one halts; one that is out is stopped at once. -/
def State.stopField (s : State) (fid : Nat) : State :=
  match s.field? fid with
  | none => s
  | some f =>
    match f.status with
    | .resident => s.setField fid f.cmdStop
    | .swapped => if f.stop.isSome then s else (s.setField fid f.cmdStop).stopDone fid
    | _ => s

/-- A debugger command stops a field. -/
def execDebugStop (via : Via) (ctx ltag field : Nat) (s : State) : Result :=
  s.managed via <| .next ((namedFields s ctx ltag field).foldl State.stopField s)

/-- A stopped field enters the placement order again. -/
def State.releaseField (s : State) (fid : Nat) : State :=
  match s.field? fid with
  | none => s
  | some f =>
    if !f.stop.any (·.halted) then s
    else
      let g := { f with stop := none }
      if g.resumable then (s.setField fid g).makeReady fid else s.setField fid g

/-- A debugger command releases a stopped field. -/
def execDebugRelease (via : Via) (ctx ltag field : Nat) (s : State) : Result :=
  s.managed via <| .next ((namedFields s ctx ltag field).foldl State.releaseField s)

/-! ### Counter banks (R420) -/

/-- The bank of a function. -/
def bankNoOf (vf : Option Nat) : Nat := (vf.map (· + 1)).getD 0

def State.updBank (s : State) (vf : Option Nat) (g : Bank → Bank) : State :=
  s.setBank (bankNoOf vf) (g (mgetD s.banks (bankNoOf vf) .zero))

/-- Every counter of a bank is zeroed; the ranges of the bins stay. -/
def Bank.clear (b : Bank) : Bank :=
  { b with counters := [], ran := none,
           bins := mmap b.bins (fun _ (x : Bin) => { x with
             active := 0, masked := 0, predOff := 0, absent := 0, idle := 0, passes := 0 }) }

/-- A write of CLR = 1. -/
def execCounterClear (vf : Option Nat) (s : State) : Result := .next (s.updBank vf Bank.clear)

/-- A write of LOGBASE or of the modes, ignored while a log is in progress. -/
def Bank.logWrite (b : Bank) (off : Nat) (v : W64) : Bank :=
  if !b.nr && b.logProd != 0 then b
  else if off = 0x600 then { b with logBase := v &&& ~~~(0x3F : W64) }
  else if off = 0x608 then
    { b with logSz := fld v 4 0, trace := bitAt v 8, record := bitAt v 9, replay := bitAt v 10, logSeq := 0 }
  else b

def execLogModeWrite (vf : Option Nat) (off : Nat) (value : W64) (s : State) : Result :=
  .next (s.updBank vf (fun b => b.logWrite off value))

/-- A write of a register of a bank: the enables, a bin's range, the registers of the log; every other
offset ignores it. `now` is where the free counter stands. -/
def Bank.write (b : Bank) (now off : Nat) (v : W64) : Bank :=
  if off = 0 then
    let b := if bitAt v 1 then b.clear else b
    { b with en := bitAt v 0, lcen := bitAt v 2, ran := if b.en && !bitAt v 0 then some now else b.ran }
  else if 0x100 ≤ off && off < 0x200 && off % 16 = 0 then
    let i := (off - 0x100) / 16
    let x := mgetD b.bins i
      { lo := 0, hi := 0, active := 0, masked := 0, predOff := 0, absent := 0, idle := 0, passes := 0 }
    { b with bins := mput b.bins i { x with lo := v.setWidth 32, hi := w32 (fld v 63 32) } }
  else b.logWrite off v

/-- The counters of what timing decides, and the contents of the LLC slices, which the model does not hold:
interference cycles, the misses of the LLC, and the lines that it evicts. What such events add to them is
free (R420, R422; notes/assumptions/80.md, 111.md). -/
def freeCounter (i : Nat) : Bool := i == cINTERF || i == cFEVICT || i == cLLC || i == cCEVICT

/-- What a bank has counted of such events: nothing unless it has been enabled since its counters were
zeroed, and no more once it has stopped. -/
def Bank.freePart (b : Bank) (now i : Nat) : W64 :=
  if !freeCounter i then 0
  else if b.en then w64 (Config.freeNat (now + i))
  else match b.ran with
    | some k => w64 (Config.freeNat (k + i))
    | none => 0

/-- An aligned 8-byte read of a register of a bank (R420). -/
def Bank.read (b : Bank) (now off : Nat) : W64 :=
  let bin (i : Nat) : Bin := mgetD b.bins i
    { lo := 0, hi := 0, active := 0, masked := 0, predOff := 0, absent := 0, idle := 0, passes := 0 }
  if off = 0 then w64 (b2n b.en + 4 * b2n b.lcen)
  else if off % 8 ≠ 0 then 0
  else if off ≤ 0x60 then mgetD b.counters (off / 8) 0 + b.freePart now (off / 8)
  else if 0x100 ≤ off && off < 0x200 then
    let x := bin ((off - 0x100) / 16)
    if off % 16 = 0 then w64 (x.lo.toNat + x.hi.toNat * 2 ^ 32) else 0
  else if 0x200 ≤ off && off < 0x600 then
    let x := bin ((off - 0x200) / 64)
    [x.active, x.masked, x.predOff, x.absent, x.idle, x.passes].getD (off % 64 / 8) 0
  else if off = 0x600 then b.logBase
  else if off = 0x608 then
    w64 (b.logSz + b2n b.trace * 2 ^ 8 + b2n b.record * 2 ^ 9 + b2n b.replay * 2 ^ 10)
  else if off = 0x610 then b.logProd
  else if off = 0x618 then w64 (b.nrseq % 2 ^ 63 + b2n b.nr * 2 ^ 63)
  else 0

/-- What the bank of a function shows at an offset. A read is no event of the opcode table, and changes
nothing. -/
def bankRead (s : State) (vf : Option Nat) (off : Nat) : W64 :=
  (mgetD s.banks (bankNoOf vf) .zero).read s.freeCtr off

/-- A write of 8 bytes; one that is not aligned receives Unsupported Request. -/
def execCounterBankWrite (vf : Option Nat) (off : Nat) (value : W64) (s : State) : Result :=
  if off % 8 ≠ 0 then .next (s.send (.completion cplUnsupported))
  else .next { s.updBank vf (fun b => b.write s.freeCtr off value) with freeCtr := s.freeCtr + 16 }

end Sys2Proof.Machine
end

