-- ==== Sys2Proof/Machine/Heath.lean ====
section
/-! DEFINITION. Heath: boot and reset, the management requests, power and temperature, errors,
self-test and retirement (R255, R256, R275, R402, R404, R407, R426-R435). -/

namespace Sys2Proof.Machine
open Sys2Proof

/-! ### Reset and boot (R407, R427, R428, R430) -/

def ImageSlots.zero : ImageSlots := { active := 0, other := 0, staged := false, fresh := false }

/-- The slots of an image: 0 Heath, 1 pager, 2 agent. -/
def Heath.image (h : Heath) (i : Nat) : ImageSlots := mgetD h.images i .zero

def Heath.updImage (h : Heath) (i : Nat) (g : ImageSlots → ImageSlots) : Heath :=
  { h with images := mput h.images i (g (h.image i)) }

/-- A staged image becomes active at a reset. -/
def ImageSlots.atReset (x : ImageSlots) : ImageSlots :=
  if x.staged then { active := x.other, other := x.active, staged := false, fresh := true } else x

/-- The other slot is used again. -/
def ImageSlots.fallBack (x : ImageSlots) : ImageSlots :=
  if x.fresh then { active := x.other, other := x.active, staged := false, fresh := false } else x

/-- What a reset keeps of Heath: the log, the scrub-pending mark, the image slots, and which units are
retired, but for frames, whose ROLE has a reset value (R271, R432; notes/assumptions/143.md). -/
def Heath.kept (h : Heath) : Heath :=
  { Heath.reset with log := h.log, scrubMark := h.scrubMark,
                     retired := h.retired.filter (fun u => u.1 != 5), lostShares := h.lostShares,
                     shutSlices := h.shutSlices,
                     images := mmap h.images (fun _ (x : ImageSlots) => x.atReset) }

/-- HBM as a reset leaves it: kept or not, which is free; without the frames that a scrub takes when
the mark is set (R407). -/
def hbmAfterReset (s : State) : Mem :=
  if Config.freeBool s.freeCtr then
    s.mem.filter (fun c => c.1 < 4 * hbmPerDie &&
      !(s.heath.scrubMark && (match (s.frame (frameOf c.1)).role with
          | .cache | .local_ | .reserve => true
          | _ => false)))
  else []

/-- The device after a reset: what lies outside it, and what is not volatile, stays. -/
def State.deviceReset (s : State) : State :=
  { State.reset with
    heath := s.heath.kept, mem := hbmAfterReset s, pool := s.pool,
    nextUid := s.nextUid, freeCtr := s.freeCtr + 1, outbox := s.outbox }

/-- The device is reset, and the boot sequence begins. -/
def execDeviceReset (s : State) : Result := .next s.deviceReset

/-- Power is removed: every volatile state is gone, and nothing runs until a reset. -/
def execPowerLoss (s : State) : Result :=
  let t := s.deviceReset
  .next { t with mem := [], heath := { t.heath with held := true } }

/-- The sharer agent table that Heath fills (R320). -/
def sharerTable : NMap Nat := (List.range 48).filterMap (fun i =>
  if i = 0 then none else (Config.sharerNode i).map (i, ·))

/-- Images that a boot step verifies. -/
def stepImages (step : Nat) : List Nat := if step = 0 then [0] else [1, 2]

/-- The images that fail in a boot step: in the first the Heath image, in the second the pager's, the agents'
or both, which is free (notes/assumptions/155.md). -/
def failedImages (step n : Nat) : List Nat :=
  if step = 0 then [0] else if n % 3 = 0 then [1] else if n % 3 = 1 then [2] else [1, 2]

/-- The next boot step completes, or fails: an image that fails, newly active, gives way to its other slot
(R428). -/
def execBootStepComplete (ok : Bool) (s : State) : Result :=
  let h := s.heath
  let n := h.bootStep
  if h.held || 6 ≤ n then .next s
  else if !ok then
    if 2 ≤ n then .next s
    else
      let bad := failedImages n (Config.freeNat s.freeCtr)
      let back := bad.any (fun i => (h.image i).fresh)
      let h' := bad.foldl (fun h i => h.updImage i ImageSlots.fallBack) h
      .next ({ s with heath := { h' with held := decide (n = 0) && !back } }.heathLog 10 0 n 0 0).tick
  else
    let up (s : State) : State := { s with heath := { s.heath with bootStep := n + 1 } }
    let booted (h : Heath) : Heath :=
      (stepImages n).foldl (fun h i => h.updImage i (fun x => { x with fresh := false })) h
    match n with
    | 0 => .next (up { s with heath := booted h })
    -- the host link trains as CXL or as PCIe (R319)
    | 1 => .next (up { s with heath := { booted h with hostPcie := Config.freeBool s.freeCtr },
                              freeCtr := s.freeCtr + 1, sharers := sharerTable, keys := [] })
    | 2 => .next (up { s with heath := { h with scrubMark := false } })
    | 3 =>
      let carve := (List.range 4).filterMap (fun d =>
        if Config.bootCarve d % 9 = 0 then none else some (d, 16 * (Config.bootCarve d % 9)))
      .next (up { s with heath := { h with llcCarve := carve } })
    | 4 => .next (up { s with pagers := mmap s.pagers (fun d (p : Pager) => p.load (Config.pagerImage d)) })
    | _ => .next (up s)

/-! ### Requests (R426) -/

/-- An answer whose contents the specification leaves to DSP0236 and DSP0274. -/
def State.spdm (s : State) (kind : Nat) (head : List Byte) : State :=
  (s.reply kind (head ++ Config.spdmAnswer s.freeCtr)).tick

def execMctpControl (s : State) : Result := .next (s.spdm 16 [])
def execGetVersion (s : State) : Result := .next (s.spdm 17 [])
def execGetCapabilities (s : State) : Result := .next (s.spdm 18 [])

/-- The only signing algorithm offered is ML-DSA-44 over SHA3-256 digests (R14). -/
def execNegotiateAlgorithms (s : State) : Result := .next (s.spdm 19 Config.mlDsa44Sha3)
def execGetDigests (s : State) : Result := .next (s.spdm 20 [])
def execGetCertificate (s : State) : Result := .next (s.spdm 21 [])
def execChallenge (s : State) : Result := .next (s.spdm 22 [])

/-- Measurements cover the Heath, pager and agent images and their versions. -/
def execGetMeasurements (s : State) : Result :=
  .next (s.spdm 23 ([0, 1, 2].flatMap (fun i => leBytes 4 (s.heath.image i).active.toNat)))

/-- A session opens. -/
def execKeyExchange (s : State) : Result :=
  if s.heath.bootStep = 0 then .next s
  else .next ({ s with heath := { s.heath with session := true } }.spdm 24 [])

def execFinish (s : State) : Result := .next (s.spdm 25 [])

/-- The session ends. -/
def execEndSession (s : State) : Result :=
  if s.heath.bootStep = 0 then .next s
  else .next ({ s with heath := { s.heath with session := false } }.spdm 26 [])

/-- A virtual function is bound to at most one context, and a context takes at most one (R402). -/
def execVfBind (via : Via) (vf : Nat) (ctx : Option Nat) (s : State) : Result :=
  s.managed via <|
  match ctx with
  | none =>
    .next { s with ctxs := mmap s.ctxs (fun _ (x : Context) => if x.vf = some vf then { x with vf := none } else x) }
  | some c =>
    if decide (vf < 512) && (s.ctx? c).any (fun x => x.state == CtxState.live && x.vf.isNone)
        && !s.ctxs.any (fun (_, x) => x.vf == some vf) then
      .next (s.updCtx c (fun x => { x with vf := some vf }))
    else .next (s.refuse c vf)

/-- Carve the pinned LLC part of a die (R255): not before boot step 4, which carves the parts first
(R427; notes/assumptions/154.md). -/
def execLlcCarve (via : Via) (die mib : Nat) (s : State) : Result :=
  s.managed via <|
  if s.heath.bootStep < 4 || 4 ≤ die || 128 < mib || mib % 16 ≠ 0 then .next (s.refuse 0 die)
  else
    let old := mgetD s.heath.llcCarve die 0
    let base := llcBase + die * 0x800_0000
    let s := if mib < old then { s with mem := s.mem.zero (base + mib * 0x10_0000) ((old - mib) * 0x10_0000) } else s
    .next { s with heath := { s.heath with llcCarve := mput s.heath.llcCarve die mib } }

/-- Ones of a bank mask. -/
def bankList (m : W64) : List Nat := (List.range 64).filter (fun b => m.getLsbD b)

/-- Carve banks of a core for SRAM pinning, ascending after those carved before, or release them from
the end of that order (R256; notes/assumptions/92.md). -/
def execBankCarve (via : Via) (core : Nat) (mask : W64) (release : Bool) (s : State) : Result :=
  s.managed via <|
  let old := s.carvedBanks core
  let n := old.length
  let k := (bankList mask).length
  let base := sramBase + core * 0x10_0000
  if s.heath.bootStep < 4 || 192 ≤ core then .next (s.refuse 0 core)
  else if release then
    let lo := base + 16384 * (n - k)
    let covered := s.ctxs.any (fun (_, x) => x.ranges.any (fun e =>
      decide (e.dbase < base + 16384 * n) && decide (lo < e.dbase + e.len * 65536)))
    if n < k || !(old.drop (n - k)).all mask.getLsbD || (covered && k != 0) then .next (s.refuse 0 core)
    else
      .next { s with
        mem := s.mem.zero lo (16384 * k),
        heath := { s.heath with carved := mput s.heath.carved core (old.take (n - k)),
                                released := s.heath.released ++ (bankList mask).map (core, ·) } }
  else if (bankList mask).all (fun b =>
      !old.contains b && !unitBarred s 2 (64 * core + b)
        && (s.children 0).all (fun (_, x) => !(bankMask x.grants core).getLsbD b)) then
    .next { s with
      mem := s.mem.zero (base + 16384 * n) (16384 * k),
      heath := { s.heath with carved := mput s.heath.carved core (old ++ bankList mask),
                              released := s.heath.released.filter (fun (c, b) => !(c == core && mask.getLsbD b)) } }
  else .next (s.refuse 0 core)

/-- Teasel has zeroed a released bank. -/
def execReleasedBankZero (core bank : Nat) (s : State) : Result :=
  .next { s with heath := { s.heath with released := s.heath.released.filter (· != (core, bank)) } }

/-- The 32 bytes of a log entry (R429). -/
def LogEnt.bytes (e : LogEnt) : List Byte :=
  leBytes 8 (e.event + e.uclass * 2 ^ 16 + e.uindex * 2 ^ 32) ++ leBytes 8 e.time.toNat ++ leBytes 8 e.ctx
    ++ leBytes 8 e.detail.toNat

/-- An entry of the log, oldest first, is read. -/
def execLogRead (via : Via) (index : Nat) (s : State) : Result :=
  s.managed via <| .next (s.reply 27 ((((s.heath.log.drop index).head?).map LogEnt.bytes).getD []))

/-- An update image is staged into the inactive slot and verified; only inside a session, and not of a
lower version than the active one (R428). -/
def execUpdateStage (via : Via) (image : Nat) (version : W32) (verified : Bool) (s : State) : Result :=
  s.managed via <|
  if !s.heath.session || 3 ≤ image || version < (s.heath.image image).active then
    .next (s.refuse 0 version.toNat)
  else
    let h := s.heath.updImage image (fun x => { x with other := version, staged := verified })
    .next ({ s with heath := h }.heathLog 10 0 image 0 (zx64 version))

/-- A sensor is read. -/
def execSensorRead (via : Via) (index : Nat) (s : State) : Result :=
  s.managed via <| .next (s.reply 28 (leBytes 8 (Config.sensor (s.freeCtr + index)))).tick

/-- The key of a protected context is replaced, inside a session and before its first pool access
(R404). -/
def execKeyReplace (via : Via) (ctx : Nat) (key : BitVec 512) (s : State) : Result :=
  s.managed via <|
  match s.ctx? ctx with
  | some x =>
    match x.key with
    | some slot =>
      if s.heath.session && x.policy.prot && !x.poolUsed then
        .next { s with keys := mput s.keys slot key }
      else .next (s.refuse ctx slot)
    | none => .next (s.refuse ctx 0)
  | none => .next (s.refuse 0 ctx)

/-- The host driver sets the rings of context 0 (R393). -/
def execContext0RingsSet (rbase tbase : W64) (rsize tsize : Nat) (s : State) : Result :=
  .next (s.updCtx 0 (fun x => { x with
    retry := { base := rbase, size := rsize, prod := 0, lost := 0 },
    terminal := { base := tbase, size := tsize, prod := 0, lost := 0 } }))

/-! ### Power and cooling (R430) -/

/-- A power sample enters the average of the last millisecond: ten samples. -/
def execPowerSample (milliwatt : Nat) (s : State) : Result :=
  let l := s.heath.power ++ [milliwatt]
  .next { s with heath := { s.heath with power := l.drop (l.length - 10) } }

/-- The temperatures are sampled, the coolant inlet's beside them (notes/assumptions/146.md); a junction at
105 °C halts every field, is logged, and resets. -/
def execTemperatureSample (readings : List Nat) (s : State) : Result :=
  if readings.any (105 ≤ ·) then
    .next ((s.haltAll.heathLog 9 0 0 0 (w64 (readings.foldl Nat.max 0))).deviceReset)
  else .next { s with heath := { s.heath with temps := readings, inlet := Config.freeNat s.freeCtr },
                      freeCtr := s.freeCtr + 1 }

/-! ### Errors, self-test and retirement (R275, R432-R434) -/

/-- Fields that stand on a unit: a quadrant, a bank, or a quadrant's split table. -/
def onUnit (cls idx : Nat) (f : Field) : Bool :=
  f.status == FStatus.resident &&
    (match cls with
     | 1 => f.core == idx / 4 && usesQuad f (idx % 4)
     | 2 => f.core == idx / 64 && f.banks.contains (idx % 64)
     | 3 => f.core == idx / 128 && f.sws.any (fun (_, w) => w.quad == idx / 32 % 4 && !w.ctl.exited)
     | _ => false)

def fieldsOn (s : State) (cls idx : Nat) : List Nat :=
  (s.fields.filter (fun (_, f) => onUnit cls idx f)).map (·.1)

/-- A record with no swath. -/
def State.dataLoss (s : State) (c : Nat) : State :=
  s.terminalRecord 0 c { cause := Cause.dataLoss.code, terminal := true, ctx := c, coords := noSwath }

/-- Contexts whose range table reaches a unit. -/
def reachers (s : State) (unit : Nat) : List Nat :=
  (s.ctxs.filter (fun (_, x) => x.ranges.any (fun e => e.reaches unit))).map (·.1)

/-- A frame is retired: its unit leaves it first (R275). Where its write-back waits, the frame keeps its unit
and takes no other, and `State.settleRetired` ends it (R305, R332). -/
def State.retireFrame (s : State) (f : Nat) : State :=
  let e := s.frame f
  let gone (s : State) : State := s.setFrame f { s.frame f with role := .retired }
  match e.role with
  | .cache =>
    if e.st == FrState.free then gone s
    else if e.st == FrState.filling then gone ((s.freeFrame f).endFills e.unit 3)
    else if backShut s f then s
    else gone (s.evictFrame f)
  | .local_ =>
    let s := s.flushUnit e.unit
    let spare := (s.frames.filter (fun (g, x) =>
      g / framesPerDie == f / framesPerDie && x.role == FrRole.reserve && x.st == FrState.free
        && !frameFenced s g)).map (·.1)
    let bad := s.poisoned.any (fun l => l / 512 == e.unit)
    match spare, bad with
    | g0 :: rest, false =>
      let g := (g0 :: rest).getD (Config.freeNat s.freeCtr % (rest.length + 1)) g0
      let data := s.mem.slice (frameDpa f) 65536 (frameDpa g)
      let s := { s with mem := (s.mem.zero (frameDpa g) 65536).overlay data, freeCtr := s.freeCtr + 1 }
      gone ((s.setFrame g { e with inSet := (s.frame g).inSet }).freeFrame f)
    | _, _ =>
      let s := (reachers s e.unit).foldl State.dataLoss s
      gone ({ s with zeroUnits := s.zeroUnits ++ [e.unit],
                     poisoned := s.poisoned.filter (fun l => l / 512 != e.unit) }.freeFrame f)
  | _ => gone s

/-- Retired page-cache frames whose write-back waited are evicted once nothing keeps it back. -/
def State.settleRetired (s : State) : State :=
  s.heath.retired.foldl (fun s (c, f) =>
    let e := s.frame f
    if c == 5 && e.role == .cache && (e.st == .clean || e.st == .dirty || e.st == .shared) && !backShut s f then
      s.evictFrame f
    else s) s

/-- An LLC slice is out of use for good: retired, or fenced in place of that (R434). -/
def sliceGone (s : State) (slice : Nat) : Bool :=
  s.heath.retired.contains (4, slice) || s.heath.shutSlices.contains slice

/-- The first slice of a die after one, modulo 256, that satisfies `p`. -/
def nextSlice (slice : Nat) (p : Nat → Bool) : Option Nat :=
  ((List.range 255).map (fun i => slice / 256 * 256 + (slice + 1 + i) % 256)).find? p

/-- The successor of an LLC slice on its die: the next that is not retired, nor fenced (R434;
notes/assumptions/156.md). -/
def successor (s : State) (slice : Nat) : Option Nat := nextSlice slice (fun j => !sliceGone s j)

/-- The slice at which the ordinary lines of a slice are homed: its successor when it is retired or fenced,
which it is while it is tested (R433, R434; notes/assumptions/156.md). -/
def liveSlice (s : State) (slice : Nat) : Nat :=
  let out (j : Nat) : Bool := sliceGone s j || s.unitOut 4 j
  if out slice then (nextSlice slice (fun j => !out j)).getD slice else slice

/-- The slice that holds the pinned share of a slice of its die. -/
def shareAt (s : State) (slice : Nat) : Nat :=
  if s.heath.retired.contains (4, slice) then (successor s slice).getD slice else slice

/-- The slices whose pinned shares a slice holds: its own, and those of the retired slices whose successor
it is; a share that is lost is nowhere. -/
def sharesOf (s : State) (slice : Nat) : List Nat :=
  ((List.range 256).map (slice / 256 * 256 + ·)).filter (fun j =>
    !s.heath.lostShares.contains j && shareAt s j == slice)

/-- The home slice of a DPA (R257). -/
def homeSlice (dpa : Nat) : Nat :=
  256 * homeDie dpa + Nat.xor (dpa / 128 % 256) (Nat.xor (dpa / 32768 % 256) (dpa / 8388608 % 256))

/-- A successor can take the shares of a slice: it then holds at most two (R434). -/
def sliceFits (s : State) (slice : Nat) : Bool :=
  (successor s slice).any (fun j => decide ((sharesOf s j).length + (sharesOf s slice).length ≤ 2))

/-- A slice that no successor can take the shares of is fenced and not retired, and every line of the pinned
shares that it held is lost: each context whose range table reaches one, or that owns a region with a bucket
in one, receives `DATA_LOSS` (R434). -/
def State.shutSlice (s : State) (slice : Nat) : State :=
  let die := slice / 256
  let s := { s with heath := { s.heath with shutSlices := s.heath.shutSlices ++ [slice] } }
  if s.llcCarved die = 0 then s
  else
    let base := llcBase + die * 0x800_0000
    let gone := sharesOf s slice
    let lost := ((List.range (s.llcCarved die / 128)).map (fun i => base + 128 * i)).filter (fun a =>
      gone.contains (homeSlice a))
    let s := { s with poisoned := s.poisoned ++ lost.map (· / 128),
                      heath := { s.heath with lostShares := s.heath.lostShares ++ gone } }
    let hit := s.ctxs.filter (fun (i, x) =>
      x.ranges.any (fun e => lost.any (fun a => e.dbase ≤ a && a < e.dbase + e.len * 65536))
        || s.regions.any (fun (_, g) => g.st != RegionState.free && g.owner == i
            && (List.range (512 * g.capk)).any (fun b => gone.contains (bucketSlice g b))))
    (hit.map (·.1)).foldl State.dataLoss s

/-- The holder whose TLB has the entry of a unit number. -/
def tlbHolder (idx : Nat) : Nat :=
  if idx < 65536 then idx / 2048 else 32 + (idx - 65536) / 32768

/-- A unit leaves use for good (R432). -/
def State.retireUnit (s : State) (cls idx : Nat) : State :=
  if cls = 4 && !sliceFits s idx then (s.shutSlice idx).heathLog 4 4 idx 0 0
  else
  let s := if cls = 5 then s.retireFrame idx else s
  let s := { s with heath := { s.heath with retired := s.heath.retired ++ [(cls, idx)] } }.heathLog 4 cls idx 0 0
  if cls = 6 then s.tlbRoom (tlbHolder idx) (tlbSize s (tlbHolder idx)) else s

/-- A unit's failures so far while it is under test. -/
def underTest (s : State) (cls idx : Nat) : Option Nat :=
  (s.heath.testing.find? (fun (c, i, _) => c == cls && i == idx)).map (·.2.2)

def State.endTest (s : State) (cls idx : Nat) : State :=
  { s with heath := { s.heath with
      testing := s.heath.testing.filter (fun (c, i, _) => !(c == cls && i == idx)) } }

/-- A test has failed: once more, or the unit is retired (R433). -/
def State.testFails (s : State) (cls idx n : Nat) : State :=
  let s := s.endTest cls idx
  if 1 ≤ n then s.retireUnit cls idx
  else { s with heath := { s.heath with testing := s.heath.testing ++ [(cls, idx, n + 1)] } }

/-- A unit of a class of R432 that the device has; an array of no such class is of class 0. -/
def unitExists (cls idx : Nat) : Bool :=
  match cls with
  | 0 => true
  | 1 => decide (idx < 4 * 192)
  | 2 => decide (idx < 64 * 192)
  | 3 => decide (idx < 32 * 4 * 192)
  | 4 => decide (idx < 256 * 4)
  | 5 => decide (idx < 4 * framesPerDie)
  | 6 => decide (idx < tlbUnits)
  | _ => false

/-- After an error Heath tests the unit: it is fenced, and the fields on it leave. An error in a unit
under test is a failure of it (R432, R433). -/
def State.startTest (s : State) (cls idx : Nat) : State :=
  if cls = 0 || s.heath.retired.contains (cls, idx) || (cls = 4 && s.heath.shutSlices.contains idx) then s
  else match underTest s cls idx with
    | some n => s.testFails cls idx n
    | none =>
      let s := (fieldsOn s cls idx).foldl (fun s i => s.swapGroup i) s
      { s with heath := { s.heath with testing := s.heath.testing ++ [(cls, idx, 0)] } }

def execCorrectedError (uclass index : Nat) (s : State) : Result :=
  if !unitExists uclass index then .next s
  else .next ((s.heathLog 1 uclass index 0 0).startTest uclass index)

/-- The fields on a unit of a core whose data is lost end, and each of their contexts receives one record
with no swath (R287, R432; notes/assumptions/137.md). -/
def State.loseUnit (s : State) (cls idx : Nat) : State :=
  let fs := fieldsOn s cls idx
  let cs := (fs.filterMap (fun i => (s.field? i).map (·.ctx))).eraseDups
  cs.foldl State.dataLoss (fs.foldl State.faultField s)

/-- The data is lost: a line of global memory is poisoned; fields on a core's array end. -/
def execUncorrectableError (uclass index : Nat) (line : Option Nat) (s : State) : Result :=
  if !unitExists uclass index then .next s
  else
    let s := s.heathLog 2 uclass index 0 (w64 (line.getD 0))
    let s := match line with
      | some l => s.poison l
      | none => s.loseUnit uclass index
    .next (s.startTest uclass index)

/-- The test of a unit ends: back in use, tested once more, or retired. -/
def execUnitTestComplete (uclass index : Nat) (pass : Bool) (s : State) : Result :=
  match underTest s uclass index with
  | none => .next s
  | some n =>
    if pass then .next ((s.endTest uclass index).heathLog 3 uclass index 0 0)
    else .next (s.testFails uclass index n)

/-! ### Tag parity (R435) -/

/-- The summary of a set of an L2: the contexts with dirty lines in it; none when they are too many. -/
def summaryOf (s : State) (unit set : Nat) : Option (List Nat) :=
  let l := ((s.l2.filter (fun c => c.unit == unit && c.dirty != 0 && Config.cacheSet c.ctx c.va == set)).map
    (·.ctx)).eraseDups
  if 8 < l.length then none else some l

/-- The dirty lines of the LLC slices of a die, each with the context whose bytes it holds and the set it is
in, which is free: the model keeps no LLC of its own (notes/assumptions/111.md). -/
def llcDirty (s : State) (die : Nat) : List (Nat × Nat × Nat) :=
  (Config.llcDirtyLines s.freeCtr).filter (fun (l, c, _) =>
    decide (liveSlice s (homeSlice (l * 128)) / 256 = die) && (s.ctx? c).isSome)

/-- The dirty lines of a set of a slice. -/
def llcSet (s : State) (slice set : Nat) : List (Nat × Nat × Nat) :=
  (llcDirty s (slice / 256)).filter (fun (l, _, k) => k == set && liveSlice s (homeSlice (l * 128)) == slice)

/-- The summary of a set of a slice: the contexts with dirty lines in it; none when they are too many. -/
def llcSummary (s : State) (slice set : Nat) : Option (List Nat) :=
  let l := ((llcSet s slice set).map (·.2.1)).eraseDups
  if 8 < l.length then none else some l

/-- The contexts that any summary of a die names, of its L2s and of its LLC slices. -/
def dieSummary (s : State) (die : Nat) : List Nat :=
  ((s.l2.filter (fun c => c.unit / 8 == die && c.dirty != 0)).map (·.ctx)
    ++ (llcDirty s die).map (·.2.1)).eraseDups

/-- A tag parity error: the set's lines go without write-back, and the contexts in its summary receive
`DATA_LOSS`. Whether the summary can be read is free. -/
def execTagParityError (l2 : Bool) (unit set : Nat) (s : State) : Result :=
  if (if l2 then 32 else 1024) ≤ unit then .next s else
  let s := s.heathLog 5 (if l2 then 0 else 4) unit 0 (w64 set)
  if l2 then
    let sum := if Config.freeBool s.freeCtr then summaryOf s unit set else none
    let hit := sum.getD (dieSummary s (unit / 8))
    let s := { s.tick with l2 := s.l2.filter (fun c => !(c.unit == unit && Config.cacheSet c.ctx c.va == set)) }
    .next (hit.foldl State.dataLoss s)
  else
    let sum := if Config.freeBool s.freeCtr then llcSummary s unit set else none
    let hit := sum.getD (dieSummary s (unit / 256))
    let s' := (llcSet s unit set).foldl (fun t (l, _, _) =>
      t.homeWrite (l * 128) (BitVec.allOnes 128) (Config.olderLine s.freeCtr l)) s
    .next (hit.foldl State.dataLoss s'.tick)

end Sys2Proof.Machine
end

