-- ==== Sys2Proof/Machine/LaneMem.lean ====
section
/-! DEFINITION. Lane loads and stores, atomics, acquire and release, the tolerant gather and the
accumulator accesses, groups 0x6 to 0x9 (R98-R102, R199-R207). -/

namespace Sys2Proof.Machine
open Sys2Proof

/-! ### Accesses of several lanes (R99, R201, R239) -/

/-- What one lane's access comes to. -/
inductive LRes (α : Type)
  | ok (a : α) (s : State)
  | trap (r : Raise)
  | hold (s : State)

/-- A memory operation of a lane at an address in global memory. Between it and the next lane's the
device may write its line back or drop it (R218, R222; notes/assumptions/6.md). -/
def MRes.lane {α : Type} (r : MRes α) (F : Focus) (va : Nat) : LRes α :=
  match r with
  | .ok a s => .ok a (s.stirAt F.agent va)
  | .fault e => .trap (e.raise va)
  | .hold s => .hold s

/-- What follows a lane's access that is performed. -/
def LRes.bind {α β : Type} (r : LRes α) (k : α → State → LRes β) : LRes β :=
  match r with
  | .ok a s => k a s
  | .trap r => .trap r
  | .hold s => .hold s

/-- A datum of 16 bytes of a space of no location is read in two events of 8 bytes (R225). -/
def halvesRead (rd : Nat → Nat → State → LRes Nat) (a n : Nat) (s : State) : LRes Nat :=
  if n ≤ 8 then rd a n s
  else (rd a 8 s).bind fun lo s => (rd (a + 8) 8 s).bind fun hi s => .ok (lo + 2 ^ 64 * hi) s

/-- And written. -/
def halvesWrite (wr : Nat → Nat → Nat → State → LRes Unit) (a v n : Nat) (s : State) : LRes Unit :=
  if n ≤ 8 then wr a v n s
  else (wr a (v % 2 ^ 64) 8 s).bind fun _ s => wr (a + 8) (v / 2 ^ 64) 8 s

/-- A datum of 16 bytes is read in two events of 8 bytes (R225); `rd` reads at an address. -/
def wideRead (F : Focus) (rd : Nat → Nat → State → MRes Nat) (a n : Nat) (s : State) : MRes Nat :=
  if n ≤ 8 then rd a n s
  else (rd a 8 s).bind fun lo s =>
    (rd (a + 8) 8 (s.stirAt F.agent a)).bind fun hi s => .ok (lo + 2 ^ 64 * hi) s

/-- A datum of 16 bytes is written in two events of 8 bytes (R225). -/
def wideWrite (F : Focus) (wr : Nat → Nat → Nat → State → MRes Unit) (a v n : Nat) (s : State) :
    MRes Unit :=
  if n ≤ 8 then wr a v n s
  else (wr a (v % 2 ^ 64) 8 s).bind fun _ s => wr (a + 8) (v / 2 ^ 64) 8 (s.stirAt F.agent a)

/-- The accesses of a list of lanes, one after the other. -/
structure LaneRun (α : Type) where
  s : State
  out : List (Nat × α)
  fails : List (Nat × Raise)
  held : Option State

def LaneRun.step {α : Type} (one : Nat → State → LRes α) (x : LaneRun α) (l : Nat) : LaneRun α :=
  match one l x.s with
  | .ok a s => { x with s := s, out := x.out ++ [(l, a)] }
  | .trap r => { x with fails := x.fails ++ [(l, r)] }
  | .hold s => { x with held := x.held.or (some s) }

/-- The trap of an instruction whose lanes fail: the cause of the lowest, and every lane with that
cause (R239, R436). -/
def failRaise (fails : List (Nat × Raise)) : Option Raise :=
  match fails with
  | [] => none
  | (l, r) :: _ =>
    some { r with lane := l,
                  lanes := maskOf ((fails.filter (fun x => x.2.cause == r.cause)).map (·.1)) }

/-- The address that a lane's access translates: none in a space that has no page tables. -/
abbrev LaneVa := Nat → Option Nat

/-- The entry that the check of a lane's access finds: each lane draws its own where the old and the new
differ (R268). -/
def lanePin (F : Focus) (va : LaneVa) (s : State) (l : Nat) : Option TlbEnt :=
  match va l with
  | none => none
  | some a =>
    match freshEntry { s with freeCtr := s.freeCtr + 4 * l } F.agent.cluster F.ctx a with
    | .ok e => some e
    | .error _ => none

/-- A lane's access by the entry that its check found in `s0`. -/
def pinnedRun {α : Type} (F : Focus) (va : LaneVa) (s0 : State) (one : Nat → State → LRes α) (l : Nat)
    (s : State) : LRes α :=
  one l { s with pin := lanePin F va s0 l }

/-- The trap that a lane's access gives when it is checked in a state, by itself. -/
def checkLane {α : Type} (F : Focus) (va : LaneVa) (one : Nat → State → LRes α) (s : State) (l : Nat) :
    Option (Nat × Raise) :=
  match pinnedRun F va s one l { s with freeCtr := s.freeCtr + 4 * l } with
  | .trap r => some (l, r)
  | _ => none

/-- Every lane's access is checked, in the state before the instruction, before any takes effect; it is then
performed by the entry that its check found. One that fails, or waits, leaves memory as it was. What a
waiting access asked of the host, and a stop that a replay asked for, stand (R99). -/
def overLanes {α : Type} (F : Focus) (va : LaneVa) (m : LaneMask) (one : Nat → State → LRes α) (s : State)
    (k : List (Nat × α) → State → LOut) : LOut :=
  match failRaise ((lanesOf m).filterMap (checkLane F va one s)) with
  | some r => .trap r
  | none =>
    let run := (lanesOf m).foldl (LaneRun.step (pinnedRun F va s one))
      { s := s, out := [], fails := [], held := none }
    match failRaise run.fails, run.held with
    | some r, _ => .trap r
    | none, some s' => .hold { s with outbox := s'.outbox, fields := s'.fields }
    | none, none => k run.out { run.s with pin := none }

/-- Write each lane's value into `n` registers. -/
def Swath.putLanes (w : Swath) (vd n : Nat) (l : List (Nat × Nat)) : Swath :=
  l.foldl (fun w (i, v) => w.setVN vd i v n) w

/-! ### Widths (R24, R98) -/

/-- Bytes of a width code. -/
def szBytes (sz : BitVec 3) : Nat :=
  match sz.toNat with
  | 0 | 1 => 1
  | 2 | 3 => 2
  | 5 => 8
  | 6 => 16
  | _ => 4

/-- A loaded datum as registers hold it: narrow ones extended to 32 bits. -/
def szExtend (sz : BitVec 3) (v : Nat) : Nat :=
  if sz = 1 || sz = 3 then (sextN (8 * szBytes sz) v).toNat % 2 ^ 32 else v

/-- A misaligned address (R99). -/
def laneMisaligned {α : Type} (va : Nat) : LRes α := .trap { raise .misaligned with va := w64 va }

/-! ### Loads and stores (R98-R100) -/

/-- A load; `rd` reads a lane's datum at its address, which is translated where `maps`. -/
def laneLoad (o : LMem) (maps : Bool) (rd : Focus → Nat → Nat → State → LRes Nat) (s : State) : Result :=
  let n := szBytes o.sz
  let regs := memRegs o.sz
  laneIssue { h := o.h, reads := memNames o.m, writes := vregs o.reg.toNat regs }
    (fun F w _ m s =>
      overLanes F (fun l => if maps then some (memAddr o.m w l) else none) m (fun l s =>
        let a := memAddr o.m w l
        if a % n ≠ 0 then laneMisaligned a else rd F a n s) s
        (fun out s => .done (s.updSwath F.party (fun w =>
          w.putLanes o.reg.toNat regs (out.map (fun (l, v) => (l, szExtend o.sz v))))))) s

/-- A store; `wr` writes a lane's datum at its address, which is translated where `maps`. -/
def laneStore (o : LMem) (maps : Bool) (wr : Focus → Nat → Nat → Nat → State → LRes Unit) (s : State) : Result :=
  let n := szBytes o.sz
  let regs := memRegs o.sz
  laneIssue { h := o.h, reads := vregs o.reg.toNat regs ++ memNames o.m }
    (fun F w _ m s =>
      overLanes F (fun l => if maps then some (memAddr o.m w l) else none) m (fun l s =>
        let a := memAddr o.m w l
        if a % n ≠ 0 then laneMisaligned a
        else wr F a (w.vrN o.reg.toNat l regs % 2 ^ (8 * n)) n s) s
        (fun _ s => .done s)) s

def execLaneLds (o : LMem) (s : State) : Result :=
  laneLoad o false (fun F => halvesRead (fun a n s =>
    match scratchAt s F.fid a n false with
    | none => .trap (raise .range)
    | some (f, off) => .ok (scratchRd s f off n) s)) s

def execLaneSts (o : LMem) (s : State) : Result :=
  laneStore o false (fun F => halvesWrite (fun a v n s =>
    match scratchAt s F.fid a n false with
    | none => .trap (raise .range)
    | some (f, off) => .ok () (s.scratchWr f off v n))) s

def execLdg (o : LMem) (s : State) : Result :=
  laneLoad o true (fun F a n s =>
    (wideRead F (fun a n s => gLoad F .l1 false s a n) a n s).lane F a) s

def execStg (o : LMem) (s : State) : Result :=
  laneStore o true (fun F a v n s =>
    (wideWrite F (fun a v n s => plainStore F s a v n) a v n s).lane F a) s

/-- Read `n` bytes of the constant block at an offset, at most 8. -/
def constRead (F : Focus) (a n : Nat) (s : State) : LRes Nat :=
  match constRd s F a n with
  | none => .trap (raise .range)
  | some (.error r) => .trap r
  | some (.ok (v, s)) => .ok v s

def execLaneLdc (o : LMem) (s : State) : Result := laneLoad o false (fun F => halvesRead (constRead F)) s

/-! ### Atomics (R199-R202) -/

/-- A lane atomic; `f` gives the new value from the lane's register value and the old value. `n` is the
number of registers of va. -/
def laneAtomicWith (o : LAtom) (vaRegs : Nat) (f : Nat → Nat → Option Nat) (s : State) : Result :=
  let regs := tyRegs o.ty
  let n := 4 * regs
  laneIssue { h := o.h, reads := vregs o.va.toNat vaRegs ++ memNames o.m,
              writes := vregs o.vd.toNat regs, ends := true }
    (fun F w _ m s =>
      overLanes F (fun l => some (memAddr o.m w l)) m (fun l s =>
        let a := memAddr o.m w l
        if a % n ≠ 0 then laneMisaligned a
        else if acquireClamped s F o.scope.toNat then .trap (raise .scopeClamp)
        else (loggedAtomic F l (scopeLevel s F.launch o.scope.toNat) (o.scope = 6) s a n
          (f (w.vrN o.va.toNat l vaRegs))).lane F a) s
        (fun out s => .done (s.updSwath F.party (fun w => w.putLanes o.vd.toNat regs out)))) s

def laneAtomic (op : AOp) (o : LAtom) (s : State) : Result :=
  laneAtomicWith o (tyRegs o.ty) (fun b m => some (op.new (tyBits o.ty) m b)) s

def execLaneAtomAdd (o : LAtom) (s : State) : Result := laneAtomic .add o s
def execLaneAtomMin (o : LAtom) (s : State) : Result := laneAtomic .min o s
def execLaneAtomMax (o : LAtom) (s : State) : Result := laneAtomic .max o s
def execLaneAtomUmin (o : LAtom) (s : State) : Result := laneAtomic .umin o s
def execLaneAtomUmax (o : LAtom) (s : State) : Result := laneAtomic .umax o s
def execLaneAtomAnd (o : LAtom) (s : State) : Result := laneAtomic .and o s
def execLaneAtomOr (o : LAtom) (s : State) : Result := laneAtomic .or o s
def execLaneAtomXor (o : LAtom) (s : State) : Result := laneAtomic .xor o s
def execLaneAtomXchg (o : LAtom) (s : State) : Result := laneAtomic .xchg o s

/-- `ATOM.cas`: the compare value in the first registers of va, the new value in the next (R199). -/
def execLaneAtomCas (o : LAtom) (s : State) : Result :=
  let bits := tyBits o.ty
  laneAtomicWith o (2 * tyRegs o.ty)
    (fun b m => if m = b % 2 ^ bits then some (b / 2 ^ bits) else none) s

/-- `ATOM.fadd` rounds to nearest and sets no flag (R200). -/
def execLaneAtomFadd (o : LAtom) (s : State) : Result :=
  laneAtomicWith o 1 (fun b m => some (binary32.add RNE 0 m b).1) s

/-! ### Acquire, release and fences (R203, R204) -/

def execLaneLdacq (o : LAtom) (s : State) : Result :=
  let regs := tyRegs o.ty
  let n := 4 * regs
  laneIssue { h := o.h, reads := memNames o.m, writes := vregs o.vd.toNat regs }
    (fun F w _ m s =>
      if m = 0 then .done s
      else overLanes F (fun l => some (memAddr o.m w l)) m (fun l s =>
        let a := memAddr o.m w l
        if a % n ≠ 0 then laneMisaligned a
        else if acquireClamped s F o.scope.toNat then .trap (raise .scopeClamp)
        else (scopedLoad F s o.scope.toNat a n).lane F a) s
        (fun out s => .done ((partyAcquire F s o.scope.toNat).updSwath F.party (fun w =>
          w.putLanes o.vd.toNat regs out)))) s

/-- The flag of a lane form that was clamped (R197). -/
def State.laneClamp (s : State) (F : Focus) (clamped : Bool) : State :=
  if clamped then s.updSwath F.party (fun w => w.addLaneFlags flSCOPE) else s

def execLaneStrel (o : LAtom) (s : State) : Result :=
  let regs := tyRegs o.ty
  let n := 4 * regs
  laneIssue { h := o.h, reads := vregs o.va.toNat regs ++ memNames o.m }
    (fun F w _ m s =>
      let scope := releaseScope s F o.scope.toNat
      let wide := (scope.map (·.1)).getD 0
      if m = 0 then .done s
      else match partyRelease F s wide with
        | .hold s' => .hold s'
        | .fault e => .trap (e.raise 0)
        | .ok _ s =>
          overLanes F (fun l => some (memAddr o.m w l)) m (fun l s =>
            let a := memAddr o.m w l
            if a % n ≠ 0 then laneMisaligned a
            else if scope.isNone then .trap (raise .scopeClamp)
            else (gStore F (scopeLevel s F.launch wide) (wide = 6) s a (w.vrN o.va.toNat l regs) n).lane F a)
            s
            (fun _ s => .done (s.laneClamp F ((scope.map (·.2)).getD false)))) s

/-- A fence of a fragment; with M empty it does nothing. -/
def laneFence (rel acq : Bool) (h : LHdr) (p : BitVec 3) (s : State) : Result :=
  laneIssue { h := h }
    (fun F _ _ m s =>
      if m = 0 then .done s
      else match releaseScope s F p.toNat with
        | none => .trap (raise .scopeClamp)
        | some (scope, clamped) =>
          match (if rel then partyRelease F s scope else .ok () s) with
          | .hold s' => .hold s'
          | .fault e => .trap (e.raise 0)
          | .ok _ s =>
            let s := if acq then partyAcquire F s scope else s
            .done (s.laneClamp F clamped)) s

def execLaneFenceFull (h : LHdr) (p : BitVec 3) (s : State) : Result := laneFence true true h p s
def execLaneFenceAcq (h : LHdr) (p : BitVec 3) (s : State) : Result := laneFence false true h p s
def execLaneFenceRel (h : LHdr) (p : BitVec 3) (s : State) : Result := laneFence true false h p s

/-! ### The tolerant gather (R206, R207) -/

/-- One lane of `LDG.T`: the datum, or why its access is absent. -/
def tolerantLoad (F : Focus) (a n : Nat) (s : State) : LRes (Except XErr Nat) :=
  match wideRead F (fun a n s => gLoad F .l1 false s a n) a n s with
  | .ok v s => .ok (.ok v) (s.stirAt F.agent a)
  | .hold s => .hold s
  | .fault e => if e.absent then .ok (.error e) s else .trap (e.raise a)

/-- The error of an absent access. -/
def absentErr : Except XErr Nat → Option XErr
  | .error e => some e
  | .ok _ => none

def execLdgT (o : LMem) (kd : BitVec 4) (s : State) : Result :=
  let n := szBytes o.sz
  let regs := memRegs o.sz
  laneIssue { h := o.h, reads := memNames o.m, writes := .k kd.toNat :: vregs o.reg.toNat regs,
              loose := vregs o.reg.toNat regs }
    (fun F w _ m s =>
      overLanes F (fun l => some (memAddr o.m w l)) m (fun l s =>
        let a := memAddr o.m w l
        if a % n ≠ 0 then laneMisaligned a else tolerantLoad F a n s) s
        (fun out s =>
          let gone := (out.filter (fun x => (absentErr x.2).isSome)).map (·.1)
          let got := out.filterMap (fun (l, r) =>
            match r with
            | .ok v => some (l, szExtend o.sz v)
            | .error _ => none)
          let s := s.askFills (out.filterMap (fun x => absentErr x.2)) F.ctx 3
          .done (s.updSwath F.party (fun w =>
            (w.putLanes o.reg.toNat regs got).setK kd m (maskOf gone))))) s

/-! ### Accumulator tiles (R101, R102) -/

/-- A matrix operation that names a tile. -/
def MatOp.names (o : MatOp) (t : Nat) : Bool :=
  decide (5 ≤ o.kind) && (o.tile == t || (o.kind == 6 && o.tile + 1 == t))

/-- A matrix operation of the field that is not complete names the tile. -/
def tileBusy (f : Field) (t : Nat) : Bool := f.sws.any (fun (_, w) => w.eng.mq.any (·.names t))

/-- An accumulator access: the tile and the elements are checked, then `k` acts with each lane's
element. -/
def laneAcc (o : LAcc) (f : LForm)
    (k : Focus → Swath → Frag → List (Nat × Nat) → State → State) (s : State) : Result :=
  laneIssue f
    (fun F w g m s =>
      match s.field? F.fid with
      | none => .trap (raise .illegal)
      | some fd =>
        if fd.tiles ≤ o.tile.toNat then .trap (raise .illegal)
        else
          let es := (lanesOf m).map (fun l => (l, opVal o.e w .n32 l))
          match failRaise ((es.filter (fun x => decide (4096 ≤ x.2))).map (fun x =>
              (x.1, raise .range))) with
          | some r => .trap r
          | none => if tileBusy fd o.tile.toNat then .hold s else .done (k F w g es s)) s

def execAccrd (o : LAcc) (s : State) : Result :=
  laneAcc o { h := o.h, reads := opNames o.e .n32, writes := [.v o.reg.toNat] }
    (fun F _ _ es s =>
      match s.field? F.fid with
      | none => s
      | some f => s.updSwath F.party (fun w =>
          w.putLanes o.reg.toNat 1 (es.map (fun (l, e) =>
            (l, (mgetD f.acc (o.tile.toNat * 4096 + e) 0).toNat))))) s

def execAccwr (o : LAcc) (s : State) : Result :=
  laneAcc o { h := o.h, reads := .v o.reg.toNat :: opNames o.e .n32 }
    (fun F w _ es s => s.updField F.fid (fun f =>
      { f with acc := es.foldl (fun a (l, e) =>
          mput a (o.tile.toNat * 4096 + e) (w32 (w.vr o.reg.toNat l))) f.acc })) s

/-- One lane's addition: the tile, the flags so far. -/
def accAddStep (o : LAcc) (w : Swath) (g : Frag) (x : NMap W32 × Flags) (le : Nat × Nat) :
    NMap W32 × Flags :=
  let (l, e) := le
  let key := o.tile.toNat * 4096 + e
  let old := mgetD x.1 key 0
  let b := w.vr o.reg.toNat l
  if fmtACC g.fmt = 8 then (mput x.1 key (old + w32 b), x.2)
  else
    let (v, fl) := binary32.add (effMode o.sub g) (nthDraw (w.eng.laneGen l) 0).toNat old.toNat b
    (mput x.1 key (w32 v), x.2 ||| fl)

def execAccadd (o : LAcc) (s : State) : Result :=
  laneAcc o { h := o.h, reads := .v o.reg.toNat :: opNames o.e .n32, ends := true }
    (fun F w g es s =>
      match s.field? F.fid with
      | none => s
      | some f =>
        let (acc, fl) := es.foldl (accAddStep o w g) (f.acc, 0)
        let draws := if fmtACC g.fmt = 8 then 0 else drawsIf 1 o.sub g
        (s.updField F.fid (fun f => { f with acc := acc })).updSwath F.party (fun w =>
          (es.foldl (fun w (l, _) => w.advance l draws) w).addLaneFlags fl)) s

end Sys2Proof.Machine
end

