-- ==== Sys2Proof/Machine/ScalarLit.lean ====
section
/-! DEFINITION. The `LIT` prefix: it and the word that follows issue as one instruction (R19). -/

namespace Sys2Proof.Machine
open Sys2Proof

/-- The extended immediate of a pair (R19). -/
def litValue (i : BitVec 25) (j : BitVec 11) : W64 := sx64 (i ++ j)

/-- The meaning of the word that a `LIT` may extend, with its 36-bit immediate; none for any other
word. -/
def litMeaning (i : BitVec 25) : Instr → Option (State → Result)
  | .addi d a j st => some (addiWith st d a (litValue i j) 8)
  | .andi d a j st => some (andiWith st d a (litValue i j) 8)
  | .ori d a j st => some (oriWith st d a (litValue i j) 8)
  | .xori d a j st => some (xoriWith st d a (litValue i j) 8)
  | .slti d a j st => some (sltiWith st d a (litValue i j) 8)
  | .sltiu d a j st => some (sltiuWith st d a (litValue i j) 8)
  | .muli d a j st => some (muliWith st d a (litValue i j) 8)
  | .ldb d a j st => some (scalarLoad 1 true st d a (litValue i j) 8)
  | .ldbu d a j st => some (scalarLoad 1 false st d a (litValue i j) 8)
  | .ldh d a j st => some (scalarLoad 2 true st d a (litValue i j) 8)
  | .ldhu d a j st => some (scalarLoad 2 false st d a (litValue i j) 8)
  | .ldw d a j st => some (scalarLoad 4 true st d a (litValue i j) 8)
  | .ldwu d a j st => some (scalarLoad 4 false st d a (litValue i j) 8)
  | .ldd d a j st => some (scalarLoad 8 false st d a (litValue i j) 8)
  | .stb d a j st => some (scalarStore 1 st d a (litValue i j) 8)
  | .sth d a j st => some (scalarStore 2 st d a (litValue i j) 8)
  | .stw d a j st => some (scalarStore 4 st d a (litValue i j) 8)
  | .std d a j st => some (scalarStore 8 st d a (litValue i j) 8)
  | .lds d a j st => some (scratchLoadWith st d a (litValue i j) 8)
  | .sts d a j st => some (scratchStoreWith st d a (litValue i j) 8)
  | .ldc d a j st => some (constLoadWith st d a (litValue i j) 8)
  | .jalr d a j st => some (jalrWith st d a (litValue i j) 8)
  | _ => none

/-- `LIT`: the next word is fetched and runs with the extended immediate, or `ILLEGAL` is raised at
the `LIT` (R19). -/
def execLit (i : BitVec 25) (s : State) : Result :=
  match s.scalarFocus with
  | none => .fault .noStream
  | some (F, w) =>
    match fetchScalar s F w 4 with
    | .trap r => .next (s.scalarFault F r)
    | .hold s => .next s
    | .word v s' =>
      match decodeScalar v with
      | .error _ => .next (s'.scalarFault F (raise .illegal))
      | .ok j =>
        match litMeaning i j with
        | some m => m s'
        | none => .next (s'.scalarFault F (raise .illegal))

end Sys2Proof.Machine
end

