-- ==== Sys2Proof/Machine/Dispatch.lean ====
section
/-! DEFINITION. One arm for each instruction: a direct call of its meaning. -/

namespace Sys2Proof.Machine
open Sys2Proof

/-- The meaning of each instruction and of each step of the device. -/
def exec (i : Instr) (s : State) : Host.Outcome State Fault Refusal :=
  match i with
  | .add d a b st => Sys2Proof.Machine.execAdd d a b st s
  | .sub d a b st => Sys2Proof.Machine.execSub d a b st s
  | .mul d a b st => Sys2Proof.Machine.execMul d a b st s
  | .mulh d a b st => Sys2Proof.Machine.execMulh d a b st s
  | .mulhu d a b st => Sys2Proof.Machine.execMulhu d a b st s
  | .div d a b st => Sys2Proof.Machine.execDiv d a b st s
  | .divu d a b st => Sys2Proof.Machine.execDivu d a b st s
  | .rem d a b st => Sys2Proof.Machine.execRem d a b st s
  | .remu d a b st => Sys2Proof.Machine.execRemu d a b st s
  | .and d a b st => Sys2Proof.Machine.execAnd d a b st s
  | .or d a b st => Sys2Proof.Machine.execOr d a b st s
  | .xor d a b st => Sys2Proof.Machine.execXor d a b st s
  | .shl d a b st => Sys2Proof.Machine.execShl d a b st s
  | .shr d a b st => Sys2Proof.Machine.execShr d a b st s
  | .sar d a b st => Sys2Proof.Machine.execSar d a b st s
  | .min d a b st => Sys2Proof.Machine.execMin d a b st s
  | .minu d a b st => Sys2Proof.Machine.execMinu d a b st s
  | .max d a b st => Sys2Proof.Machine.execMax d a b st s
  | .maxu d a b st => Sys2Proof.Machine.execMaxu d a b st s
  | .cmp d a b c st => Sys2Proof.Machine.execCmp d a b c st s
  | .sel d a b c st => Sys2Proof.Machine.execSel d a b c st s
  | .clz d a st => Sys2Proof.Machine.execClz d a st s
  | .ctz d a st => Sys2Proof.Machine.execCtz d a st s
  | .popc d a st => Sys2Proof.Machine.execPopc d a st s
  | .addi d a im st => Sys2Proof.Machine.execAddi d a im st s
  | .andi d a im st => Sys2Proof.Machine.execAndi d a im st s
  | .ori d a im st => Sys2Proof.Machine.execOri d a im st s
  | .xori d a im st => Sys2Proof.Machine.execXori d a im st s
  | .shli d a h st => Sys2Proof.Machine.execShli d a h st s
  | .shri d a h st => Sys2Proof.Machine.execShri d a h st s
  | .sari d a h st => Sys2Proof.Machine.execSari d a h st s
  | .slti d a im st => Sys2Proof.Machine.execSlti d a im st s
  | .sltiu d a im st => Sys2Proof.Machine.execSltiu d a im st s
  | .muli d a im st => Sys2Proof.Machine.execMuli d a im st s
  | .movpc d im st => Sys2Proof.Machine.execMovpc d im st s
  | .ldb d a im st => Sys2Proof.Machine.execLdb d a im st s
  | .ldbu d a im st => Sys2Proof.Machine.execLdbu d a im st s
  | .ldh d a im st => Sys2Proof.Machine.execLdh d a im st s
  | .ldhu d a im st => Sys2Proof.Machine.execLdhu d a im st s
  | .ldw d a im st => Sys2Proof.Machine.execLdw d a im st s
  | .ldwu d a im st => Sys2Proof.Machine.execLdwu d a im st s
  | .ldd d a im st => Sys2Proof.Machine.execLdd d a im st s
  | .stb d a im st => Sys2Proof.Machine.execStb d a im st s
  | .sth d a im st => Sys2Proof.Machine.execSth d a im st s
  | .stw d a im st => Sys2Proof.Machine.execStw d a im st s
  | .std d a im st => Sys2Proof.Machine.execStd d a im st s
  | .lds d a im st => Sys2Proof.Machine.execLds d a im st s
  | .sts d a im st => Sys2Proof.Machine.execSts d a im st s
  | .ldc d a im st => Sys2Proof.Machine.execLdc d a im st s
  | .beq a b o st => Sys2Proof.Machine.execBeq a b o st s
  | .bne a b o st => Sys2Proof.Machine.execBne a b o st s
  | .blt a b o st => Sys2Proof.Machine.execBlt a b o st s
  | .bge a b o st => Sys2Proof.Machine.execBge a b o st s
  | .bltu a b o st => Sys2Proof.Machine.execBltu a b o st s
  | .bgeu a b o st => Sys2Proof.Machine.execBgeu a b o st s
  | .jal d im st => Sys2Proof.Machine.execJal d im st s
  | .jalr d a im st => Sys2Proof.Machine.execJalr d a im st s
  | .lrun a im st => Sys2Proof.Machine.execLrun a im st s
  | .lgo st => Sys2Proof.Machine.execLgo st s
  | .lwait d a im st => Sys2Proof.Machine.execLwait d a im st s
  | .movxw d a st => Sys2Proof.Machine.execMovxw d a st s
  | .movwx d a st => Sys2Proof.Machine.execMovwx d a st s
  | .setfmt a m st => Sys2Proof.Machine.execSetfmt a m st s
  | .bara n a st => Sys2Proof.Machine.execBara n a st s
  | .barw n st => Sys2Proof.Machine.execBarw n st s
  | .bars n a st => Sys2Proof.Machine.execBars n a st s
  | .waitm d a b w c st => Sys2Proof.Machine.execWaitm d a b w c st s
  | .yield st => Sys2Proof.Machine.execYield st s
  | .exit st => Sys2Proof.Machine.execExit st s
  | .mloadFp a st => Sys2Proof.Machine.execMloadFp a st s
  | .mloadTern a st => Sys2Proof.Machine.execMloadTern a st s
  | .mflipFp st => Sys2Proof.Machine.execMflipFp st s
  | .mflipTern st => Sys2Proof.Machine.execMflipTern st s
  | .mmul t a st => Sys2Proof.Machine.execMmul t a st s
  | .mtern t a st => Sys2Proof.Machine.execMtern t a st s
  | .mzero t st => Sys2Proof.Machine.execMzero t st s
  | .mdrain t a st => Sys2Proof.Machine.execMdrain t a st s
  | .mfence d st => Sys2Proof.Machine.execMfence d st s
  | .mwait a st => Sys2Proof.Machine.execMwait a st s
  | .mgrow d a b st => Sys2Proof.Machine.execMgrow d a b st s
  | .cpgo a st => Sys2Proof.Machine.execCpgo a st s
  | .waitc c a st => Sys2Proof.Machine.execWaitc c a st s
  | .pbinit a b st => Sys2Proof.Machine.execPbinit a b st s
  | .pbarv d a b st => Sys2Proof.Machine.execPbarv d a b st s
  | .pbwait d a b st => Sys2Proof.Machine.execPbwait d a b st s
  | .atomAdd d a b w p st => Sys2Proof.Machine.execAtomAdd d a b w p st s
  | .atomXchg d a b w p st => Sys2Proof.Machine.execAtomXchg d a b w p st s
  | .atomMin d a b w p st => Sys2Proof.Machine.execAtomMin d a b w p st s
  | .atomMax d a b w p st => Sys2Proof.Machine.execAtomMax d a b w p st s
  | .atomUmin d a b w p st => Sys2Proof.Machine.execAtomUmin d a b w p st s
  | .atomUmax d a b w p st => Sys2Proof.Machine.execAtomUmax d a b w p st s
  | .atomAnd d a b w p st => Sys2Proof.Machine.execAtomAnd d a b w p st s
  | .atomOr d a b w p st => Sys2Proof.Machine.execAtomOr d a b w p st s
  | .atomXor d a b w p st => Sys2Proof.Machine.execAtomXor d a b w p st s
  | .atomCas d a b w p st => Sys2Proof.Machine.execAtomCas d a b w p st s
  | .ldacq d a w p st => Sys2Proof.Machine.execLdacq d a w p st s
  | .strel a b w p st => Sys2Proof.Machine.execStrel a b w p st s
  | .fenceFull p st => Sys2Proof.Machine.execFenceFull p st s
  | .fenceAcq p st => Sys2Proof.Machine.execFenceAcq p st s
  | .fenceRel p st => Sys2Proof.Machine.execFenceRel p st s
  | .cwb p a b st => Sys2Proof.Machine.execCwb p a b st s
  | .cinv p a b st => Sys2Proof.Machine.execCinv p a b st s
  | .cwbi p a b st => Sys2Proof.Machine.execCwbi p a b st s
  | .pfh d a b st => Sys2Proof.Machine.execPfh d a b st s
  | .wpost a b st => Sys2Proof.Machine.execWpost a b st s
  | .wget a b st => Sys2Proof.Machine.execWget a b st s
  | .wcntw d a b st => Sys2Proof.Machine.execWcntw d a b st s
  | .sigrel p a b st => Sys2Proof.Machine.execSigrel p a b st s
  | .sigacq d a p st => Sys2Proof.Machine.execSigacq d a p st s
  | .mfsr d r st => Sys2Proof.Machine.execMfsr d r st s
  | .mtsr a r st => Sys2Proof.Machine.execMtsr a r st s
  | .trap c st => Sys2Proof.Machine.execTrap c st s
  | .tret st => Sys2Proof.Machine.execTret st s
  | .trun a b st => Sys2Proof.Machine.execTrun a b st s
  | .rgn st => Sys2Proof.Machine.execRgn st s
  | .mapft d a st => Sys2Proof.Machine.execMapft d a st s
  | .park st => Sys2Proof.Machine.execPark st s
  | .parkTerm st => Sys2Proof.Machine.execParkTerm st s
  | .tlbiR d a b st => Sys2Proof.Machine.execTlbiR d a b st s
  | .tlbiCtx d st => Sys2Proof.Machine.execTlbiCtx d st s
  | .brkpt c st => Sys2Proof.Machine.execBrkpt c st s
  | .pgfill d a st => Sys2Proof.Machine.execPgfill d a st s
  | .pgevict d a st => Sys2Proof.Machine.execPgevict d a st s
  | .pgmove d a b st => Sys2Proof.Machine.execPgmove d a b st s
  | .pgupg d a st => Sys2Proof.Machine.execPgupg d a st s
  | .leaseopRenew d a b st => Sys2Proof.Machine.execLeaseopRenew d a b st s
  | .leaseopQuery d a b st => Sys2Proof.Machine.execLeaseopQuery d a b st s
  | .leaseopRelease d a b st => Sys2Proof.Machine.execLeaseopRelease d a b st s
  | .leaseopAckwarn d a b st => Sys2Proof.Machine.execLeaseopAckwarn d a b st s
  | .cins d a b st => Sys2Proof.Machine.execCins d a b st s
  | .cnode d a b st => Sys2Proof.Machine.execCnode d a b st s
  | .cref d a b st => Sys2Proof.Machine.execCref d a b st s
  | .cunref d a b st => Sys2Proof.Machine.execCunref d a b st s
  | .cswap d a b st => Sys2Proof.Machine.execCswap d a b st s
  | .cbind d a b st => Sys2Proof.Machine.execCbind d a b st s
  | .cunbind d a st => Sys2Proof.Machine.execCunbind d a st s
  | .ccopy d a b st => Sys2Proof.Machine.execCcopy d a b st s
  | .cstat d a b st => Sys2Proof.Machine.execCstat d a b st s
  | .ctxnew d a st => Sys2Proof.Machine.execCtxnew d a st s
  | .ctxgrant d a b st => Sys2Proof.Machine.execCtxgrant d a b st s
  | .ctxrevoke d a b st => Sys2Proof.Machine.execCtxrevoke d a b st s
  | .ctxbudg d a b st => Sys2Proof.Machine.execCtxbudg d a b st s
  | .ctxq d a b st => Sys2Proof.Machine.execCtxq d a b st s
  | .ctxinfo d a b st => Sys2Proof.Machine.execCtxinfo d a b st s
  | .ctxkill d a st => Sys2Proof.Machine.execCtxkill d a st s
  | .rflt d a b st => Sys2Proof.Machine.execRflt d a b st s
  | .lit im => Sys2Proof.Machine.execLit im s
  | .iadd o => Sys2Proof.Machine.execIadd o s
  | .isub o => Sys2Proof.Machine.execIsub o s
  | .imul o => Sys2Proof.Machine.execImul o s
  | .imulh o => Sys2Proof.Machine.execImulh o s
  | .imad o => Sys2Proof.Machine.execImad o s
  | .idiv o => Sys2Proof.Machine.execIdiv o s
  | .irem o => Sys2Proof.Machine.execIrem o s
  | .imin o => Sys2Proof.Machine.execImin o s
  | .imax o => Sys2Proof.Machine.execImax o s
  | .laneAnd o => Sys2Proof.Machine.execLaneAnd o s
  | .laneOr o => Sys2Proof.Machine.execLaneOr o s
  | .laneXor o => Sys2Proof.Machine.execLaneXor o s
  | .laneShl o => Sys2Proof.Machine.execLaneShl o s
  | .laneShr o => Sys2Proof.Machine.execLaneShr o s
  | .bfe o => Sys2Proof.Machine.execBfe o s
  | .bfi o => Sys2Proof.Machine.execBfi o s
  | .lanePopc o => Sys2Proof.Machine.execLanePopc o s
  | .laneClz o => Sys2Proof.Machine.execLaneClz o s
  | .isetp o => Sys2Proof.Machine.execIsetp o s
  | .fadd o => Sys2Proof.Machine.execFadd o s
  | .fsub o => Sys2Proof.Machine.execFsub o s
  | .fmul o => Sys2Proof.Machine.execFmul o s
  | .ffma o => Sys2Proof.Machine.execFfma o s
  | .fmin o => Sys2Proof.Machine.execFmin o s
  | .fmax o => Sys2Proof.Machine.execFmax o s
  | .frcp o => Sys2Proof.Machine.execFrcp o s
  | .fsqrt o => Sys2Proof.Machine.execFsqrt o s
  | .frsq o => Sys2Proof.Machine.execFrsq o s
  | .fexp2 o => Sys2Proof.Machine.execFexp2 o s
  | .flog2 o => Sys2Proof.Machine.execFlog2 o s
  | .fsetp o => Sys2Proof.Machine.execFsetp o s
  | .padd o => Sys2Proof.Machine.execPadd o s
  | .psub o => Sys2Proof.Machine.execPsub o s
  | .pmul o => Sys2Proof.Machine.execPmul o s
  | .pfma o => Sys2Proof.Machine.execPfma o s
  | .pmin o => Sys2Proof.Machine.execPmin o s
  | .pmax o => Sys2Proof.Machine.execPmax o s
  | .dotb o => Sys2Proof.Machine.execDotb o s
  | .doth o => Sys2Proof.Machine.execDoth o s
  | .cvt o => Sys2Proof.Machine.execCvt o s
  | .cvtn o => Sys2Proof.Machine.execCvtn o s
  | .cvtw o => Sys2Proof.Machine.execCvtw o s
  | .laneMov o => Sys2Proof.Machine.execLaneMov o s
  | .laneSel o => Sys2Proof.Machine.execLaneSel o s
  | .xlane o => Sys2Proof.Machine.execXlane o s
  | .lred o => Sys2Proof.Machine.execLred o s
  | .vote o => Sys2Proof.Machine.execVote o s
  | .kmix o => Sys2Proof.Machine.execKmix o s
  | .lmfsr o => Sys2Proof.Machine.execLmfsr o s
  | .scan o => Sys2Proof.Machine.execScan o s
  | .bru h off => Sys2Proof.Machine.execBru h off s
  | .brd h off => Sys2Proof.Machine.execBrd h off s
  | .join h => Sys2Proof.Machine.execJoin h s
  | .lfmt h w => Sys2Proof.Machine.execLfmt h w s
  | .lstop h => Sys2Proof.Machine.execLstop h s
  | .lhold h => Sys2Proof.Machine.execLhold h s
  | .lsig h n => Sys2Proof.Machine.execLsig h n s
  | .laneBara h bar n => Sys2Proof.Machine.execLaneBara h bar n s
  | .laneBarw h bar => Sys2Proof.Machine.execLaneBarw h bar s
  | .laneBars h bar n => Sys2Proof.Machine.execLaneBars h bar n s
  | .lnop h => Sys2Proof.Machine.execLnop h s
  | .laneLds o => Sys2Proof.Machine.execLaneLds o s
  | .laneSts o => Sys2Proof.Machine.execLaneSts o s
  | .ldg o => Sys2Proof.Machine.execLdg o s
  | .stg o => Sys2Proof.Machine.execStg o s
  | .laneLdc o => Sys2Proof.Machine.execLaneLdc o s
  | .laneAtomAdd o => Sys2Proof.Machine.execLaneAtomAdd o s
  | .laneAtomMin o => Sys2Proof.Machine.execLaneAtomMin o s
  | .laneAtomMax o => Sys2Proof.Machine.execLaneAtomMax o s
  | .laneAtomUmin o => Sys2Proof.Machine.execLaneAtomUmin o s
  | .laneAtomUmax o => Sys2Proof.Machine.execLaneAtomUmax o s
  | .laneAtomAnd o => Sys2Proof.Machine.execLaneAtomAnd o s
  | .laneAtomOr o => Sys2Proof.Machine.execLaneAtomOr o s
  | .laneAtomXor o => Sys2Proof.Machine.execLaneAtomXor o s
  | .laneAtomXchg o => Sys2Proof.Machine.execLaneAtomXchg o s
  | .laneAtomCas o => Sys2Proof.Machine.execLaneAtomCas o s
  | .laneAtomFadd o => Sys2Proof.Machine.execLaneAtomFadd o s
  | .laneLdacq o => Sys2Proof.Machine.execLaneLdacq o s
  | .laneStrel o => Sys2Proof.Machine.execLaneStrel o s
  | .laneFenceFull h scope => Sys2Proof.Machine.execLaneFenceFull h scope s
  | .laneFenceAcq h scope => Sys2Proof.Machine.execLaneFenceAcq h scope s
  | .laneFenceRel h scope => Sys2Proof.Machine.execLaneFenceRel h scope s
  | .accrd o => Sys2Proof.Machine.execAccrd o s
  | .accwr o => Sys2Proof.Machine.execAccwr o s
  | .accadd o => Sys2Proof.Machine.execAccadd o s
  | .ldgT o kd => Sys2Proof.Machine.execLdgT o kd s
  | .scalarIssueDecision core quad => Sys2Proof.Machine.execScalarIssueDecision core quad s
  | .laneIssueDecision core quad => Sys2Proof.Machine.execLaneIssueDecision core quad s
  | .candidateAges p => Sys2Proof.Machine.execCandidateAges p s
  | .variableLatencyResult fid sw => Sys2Proof.Machine.execVariableLatencyResult fid sw s
  | .lwaitResume fid sw => Sys2Proof.Machine.execLwaitResume fid sw s
  | .barrierWaitResume p => Sys2Proof.Machine.execBarrierWaitResume p s
  | .waitmReread p => Sys2Proof.Machine.execWaitmReread p s
  | .pbwaitResume fid sw => Sys2Proof.Machine.execPbwaitResume fid sw s
  | .wcntwResume fid sw => Sys2Proof.Machine.execWcntwResume fid sw s
  | .mwaitResume fid sw => Sys2Proof.Machine.execMwaitResume fid sw s
  | .waitcResume fid sw => Sys2Proof.Machine.execWaitcResume fid sw s
  | .exitResume fid sw => Sys2Proof.Machine.execExitResume fid sw s
  | .armExchange fid sw => Sys2Proof.Machine.execArmExchange fid sw s
  | .handlerEntry p va => Sys2Proof.Machine.execHandlerEntry p va s
  | .pendingFaultTaken fid sw arm => Sys2Proof.Machine.execPendingFaultTaken fid sw arm s
  | .ringWriteRetry ctx => Sys2Proof.Machine.execRingWriteRetry ctx s
  | .fieldPlace core => Sys2Proof.Machine.execFieldPlace core s
  | .fieldSwapOut fid => Sys2Proof.Machine.execFieldSwapOut fid s
  | .urgentClaim core quad => Sys2Proof.Machine.execUrgentClaim core quad s
  | .registerLineScanOut fid sw => Sys2Proof.Machine.execRegisterLineScanOut fid sw s
  | .tenantSliceEnd ctx core quad => Sys2Proof.Machine.execTenantSliceEnd ctx core quad s
  | .reconvWaitExpire fid => Sys2Proof.Machine.execReconvWaitExpire fid s
  | .budgetPeriodBoundary => Sys2Proof.Machine.execBudgetPeriodBoundary s
  | .matrixKstepComplete fid sw => Sys2Proof.Machine.execMatrixKstepComplete fid sw s
  | .matrixOpComplete fid sw => Sys2Proof.Machine.execMatrixOpComplete fid sw s
  | .matrixOpPause fid sw => Sys2Proof.Machine.execMatrixOpPause fid sw s
  | .chainCopy fid sw chain => Sys2Proof.Machine.execChainCopy fid sw chain s
  | .chainGather fid sw chain => Sys2Proof.Machine.execChainGather fid sw chain s
  | .chainLoop fid sw chain => Sys2Proof.Machine.execChainLoop fid sw chain s
  | .chainSkipif fid sw chain => Sys2Proof.Machine.execChainSkipif fid sw chain s
  | .chainArrive fid sw chain => Sys2Proof.Machine.execChainArrive fid sw chain s
  | .chainEnd fid sw chain => Sys2Proof.Machine.execChainEnd fid sw chain s
  | .chainComplete fid sw => Sys2Proof.Machine.execChainComplete fid sw s
  | .wpostComplete fid sw => Sys2Proof.Machine.execWpostComplete fid sw s
  | .wgetComplete fid sw => Sys2Proof.Machine.execWgetComplete fid sw s
  | .pfhComplete fid sw => Sys2Proof.Machine.execPfhComplete fid sw s
  | .ccopyComplete fid sw chain => Sys2Proof.Machine.execCcopyComplete fid sw chain s
  | .walkComplete gateway ctx va => Sys2Proof.Machine.execWalkComplete gateway ctx va s
  | .cacheWriteback l2 unit ctx vaLine => Sys2Proof.Machine.execCacheWriteback l2 unit ctx vaLine s
  | .cacheEvict l2 unit ctx vaLine => Sys2Proof.Machine.execCacheEvict l2 unit ctx vaLine s
  | .pageFillStart unit => Sys2Proof.Machine.execPageFillStart unit s
  | .pageFillComplete unit => Sys2Proof.Machine.execPageFillComplete unit s
  | .serviceRecordAdmit die => Sys2Proof.Machine.execServiceRecordAdmit die s
  | .deq die => Sys2Proof.Machine.execDeq die s
  | .deqTimeout die => Sys2Proof.Machine.execDeqTimeout die s
  | .pagerCompleteRetry die idx => Sys2Proof.Machine.execPagerCompleteRetry die idx s
  | .pagerCompleteBind die idx => Sys2Proof.Machine.execPagerCompleteBind die idx s
  | .pagerCompleteTerminal die idx => Sys2Proof.Machine.execPagerCompleteTerminal die idx s
  | .pagerCompleteReserved die idx action => Sys2Proof.Machine.execPagerCompleteReserved die idx action s
  | .checkpointStart lease halt => Sys2Proof.Machine.execCheckpointStart lease halt s
  | .checkpointComplete => Sys2Proof.Machine.execCheckpointComplete s
  | .leaseDbaseWrite lease value => Sys2Proof.Machine.execLeaseDbaseWrite lease value s
  | .routeWrite node mask => Sys2Proof.Machine.execRouteWrite node mask s
  | .frameRoleWrite die frame value => Sys2Proof.Machine.execFrameRoleWrite die frame value s
  | .pagerWindowWrite die off value => Sys2Proof.Machine.execPagerWindowWrite die off value s
  | .pagerRestart die => Sys2Proof.Machine.execPagerRestart die s
  | .leaseWarn lease => Sys2Proof.Machine.execLeaseWarn lease s
  | .leaseWarnRepeat lease => Sys2Proof.Machine.execLeaseWarnRepeat lease s
  | .leaseExpire lease => Sys2Proof.Machine.execLeaseExpire lease s
  | .grant lease node pool len safe remain => Sys2Proof.Machine.execGrant lease node pool len safe remain s
  | .renewAck lease remain => Sys2Proof.Machine.execRenewAck lease remain s
  | .renewNak lease => Sys2Proof.Machine.execRenewNak lease s
  | .revoke lease => Sys2Proof.Machine.execRevoke lease s
  | .revokeAck lease => Sys2Proof.Machine.execRevokeAck lease s
  | .releaseAck lease => Sys2Proof.Machine.execReleaseAck lease s
  | .nodeDown node => Sys2Proof.Machine.execNodeDown node s
  | .leaseMessageInvalid kind => Sys2Proof.Machine.execLeaseMessageInvalid kind s
  | .leaseopTimeout die => Sys2Proof.Machine.execLeaseopTimeout die s
  | .pgmoveSwitch die => Sys2Proof.Machine.execPgmoveSwitch die s
  | .upg slot addr => Sys2Proof.Machine.execUpg slot addr s
  | .bisnpinvblk node addr => Sys2Proof.Machine.execBisnpinvblk node addr s
  | .birspiblk slot addr => Sys2Proof.Machine.execBirspiblk slot addr s
  | .upgCmp addr status => Sys2Proof.Machine.execUpgCmp addr status s
  | .snoopTimeout slot addr => Sys2Proof.Machine.execSnoopTimeout slot addr s
  | .bisnpdata node addr => Sys2Proof.Machine.execBisnpdata node addr s
  | .hostSnoopResponse line hi inv dirty => Sys2Proof.Machine.execHostSnoopResponse line hi inv dirty s
  | .cxlMemRequest node addr host write excl => Sys2Proof.Machine.execCxlMemRequest node addr host write excl s
  | .unsupportedFeatureRequest port => Sys2Proof.Machine.execUnsupportedFeatureRequest port s
  | .wreg node pctx expno rd wr key => Sys2Proof.Machine.execWreg node pctx expno rd wr key s
  | .wregAck fid sw len => Sys2Proof.Machine.execWregAck fid sw len s
  | .wregNak fid sw reason => Sys2Proof.Machine.execWregNak fid sw reason s
  | .wregTimeout fid sw => Sys2Proof.Machine.execWregTimeout fid sw s
  | .vendorMessageInvalid kind => Sys2Proof.Machine.execVendorMessageInvalid kind s
  | .apertureAccess node addr write len => Sys2Proof.Machine.execApertureAccess node addr write len s
  | .apertureResponse fid sw ok data => Sys2Proof.Machine.execApertureResponse fid sw ok data s
  | .windowArrivalWrite node pctx expno => Sys2Proof.Machine.execWindowArrivalWrite node pctx expno s
  | .heartbeat => Sys2Proof.Machine.execHeartbeat s
  | .agentDead node => Sys2Proof.Machine.execAgentDead node s
  | .teaselDirectoryWalk slot => Sys2Proof.Machine.execTeaselDirectoryWalk slot s
  | .directoryEccError line => Sys2Proof.Machine.execDirectoryEccError line s
  | .portRetrain port => Sys2Proof.Machine.execPortRetrain port s
  | .contentReclaim region => Sys2Proof.Machine.execContentReclaim region s
  | .contextScrubUnit ctx => Sys2Proof.Machine.execContextScrubUnit ctx s
  | .contextScrubComplete ctx => Sys2Proof.Machine.execContextScrubComplete ctx s
  | .regionScrubComplete region => Sys2Proof.Machine.execRegionScrubComplete region s
  | .enqueue vf page off pasid record => Sys2Proof.Machine.execEnqueue vf page off pasid record s
  | .barUnsupportedAccess vf bar off => Sys2Proof.Machine.execBarUnsupportedAccess vf bar off s
  | .agentClaim core => Sys2Proof.Machine.execAgentClaim core s
  | .launchCheck core => Sys2Proof.Machine.execLaunchCheck core s
  | .manageExecute core => Sys2Proof.Machine.execManageExecute core s
  | .launchComplete launch => Sys2Proof.Machine.execLaunchComplete launch s
  | .agentMismatch core => Sys2Proof.Machine.execAgentMismatch core s
  | .debugStop via ctx ltag field => Sys2Proof.Machine.execDebugStop via ctx ltag field s
  | .debugRelease via ctx ltag field => Sys2Proof.Machine.execDebugRelease via ctx ltag field s
  | .counterClear vf => Sys2Proof.Machine.execCounterClear vf s
  | .logModeWrite vf off value => Sys2Proof.Machine.execLogModeWrite vf off value s
  | .counterBankWrite vf off value => Sys2Proof.Machine.execCounterBankWrite vf off value s
  | .deviceReset => Sys2Proof.Machine.execDeviceReset s
  | .bootStepComplete ok => Sys2Proof.Machine.execBootStepComplete ok s
  | .mctpControl => Sys2Proof.Machine.execMctpControl s
  | .getVersion => Sys2Proof.Machine.execGetVersion s
  | .getCapabilities => Sys2Proof.Machine.execGetCapabilities s
  | .negotiateAlgorithms => Sys2Proof.Machine.execNegotiateAlgorithms s
  | .getDigests => Sys2Proof.Machine.execGetDigests s
  | .getCertificate => Sys2Proof.Machine.execGetCertificate s
  | .challenge => Sys2Proof.Machine.execChallenge s
  | .getMeasurements => Sys2Proof.Machine.execGetMeasurements s
  | .keyExchange => Sys2Proof.Machine.execKeyExchange s
  | .finish => Sys2Proof.Machine.execFinish s
  | .endSession => Sys2Proof.Machine.execEndSession s
  | .regionCreate via id capk owner store home follow => Sys2Proof.Machine.execRegionCreate via id capk owner store home follow s
  | .regionDestroy via id => Sys2Proof.Machine.execRegionDestroy via id s
  | .vfBind via vf ctx => Sys2Proof.Machine.execVfBind via vf ctx s
  | .llcCarve via die mib => Sys2Proof.Machine.execLlcCarve via die mib s
  | .bankCarve via core mask release => Sys2Proof.Machine.execBankCarve via core mask release s
  | .logRead via index => Sys2Proof.Machine.execLogRead via index s
  | .updateStage via image version verified => Sys2Proof.Machine.execUpdateStage via image version verified s
  | .sensorRead via index => Sys2Proof.Machine.execSensorRead via index s
  | .keyReplace via ctx key => Sys2Proof.Machine.execKeyReplace via ctx key s
  | .powerSample milliwatt => Sys2Proof.Machine.execPowerSample milliwatt s
  | .temperatureSample readings => Sys2Proof.Machine.execTemperatureSample readings s
  | .correctedError uclass index => Sys2Proof.Machine.execCorrectedError uclass index s
  | .uncorrectableError uclass index line => Sys2Proof.Machine.execUncorrectableError uclass index line s
  | .unitTestComplete uclass index pass => Sys2Proof.Machine.execUnitTestComplete uclass index pass s
  | .tagParityError l2 unit set => Sys2Proof.Machine.execTagParityError l2 unit set s
  | .heartbeatReceive node => Sys2Proof.Machine.execHeartbeatReceive node s
  | .hostLinkDown => Sys2Proof.Machine.execHostLinkDown s
  | .powerLoss => Sys2Proof.Machine.execPowerLoss s
  | .localFrameScrub frame => Sys2Proof.Machine.execLocalFrameScrub frame s
  | .releasedBankZero core bank => Sys2Proof.Machine.execReleasedBankZero core bank s
  | .context0RingsSet rbase tbase rsize tsize => Sys2Proof.Machine.execContext0RingsSet rbase tbase rsize tsize s

end Sys2Proof.Machine
end

