-- ==== Sys2Proof/Machine/Issue.lean ====
section
/-! DEFINITION. What one step of the device does around an instruction: the fetch and the decoding of
the word that the chosen party issues, the steps that another has brought about, the events that may
happen by themselves, and where a program's word is placed to be fetched next (R16, R91, R121, R234,
R241, R301). -/

namespace Sys2Proof.Machine
open Sys2Proof

/-- What the chosen party is about to do. -/
inductive Issue
  /-- It issues an instruction, in the state after its fetch. -/
  | run (i : Instr) (s : State)
  /-- It issues none; the state after that. -/
  | stop (s : State)

/-- The fetch and decoding of the scalar word at the PC (R16, R38). -/
def issueScalar (s : State) (F : Focus) (w : Swath) : Issue :=
  match fetchScalar s F w 0 with
  | .trap r => .stop (s.scalarFault F r)
  | .hold s => .stop s
  | .word v s =>
    match decodeScalar v with
    | .ok i => .run i s
    | .error _ => .stop (s.scalarFault F (raise .illegal))

/-- The fetch and decoding of the lane word at the lane PC (R38, R91, R241). -/
def issueLane (s : State) (F : Focus) (w : Swath) (g : Frag) (second : Bool) : Issue :=
  if atHandlerEnd w g second then
    .stop (s.updSwath F.party (fun w => w.updFrag second (fun g => { g with held := true })))
  else
    match fetchLane s F g.pc with
    | .trap r => .stop (s.laneFault F g second r)
    | .hold s => .stop s
    | .word v s =>
      match decodeLane v with
      | .ok i => .run i s
      | .error _ => .stop (s.laneFault F g second (raise .illegal))

/-- What a chosen party does next. -/
def nextIssue (s : State) : Issue :=
  match s.laneFocus with
  | some (F, w, g, second) => issueLane s F w g second
  | none =>
    match s.scalarFocus with
    | some (F, w) => issueScalar s F w
    | none => .stop s

/-- What a step has brought about beside its own effect: a `WAITM` whose line it wrote looks at its word
again (R67), an access of another agent that nothing keeps back any longer is made again (R328, R330),
and so is a write of the device's own that waited for the host or the fabric (R328, R332, R334); a
retired frame gives up its unit when it can (R275). -/
def State.wakeAll (s : State) : State := s.wakeWaitms.wakeExports.wakeOwn.settleRetired

/-- The party has issued: none is chosen, and the next free values are others
(notes/assumptions/1.md, 2.md). -/
def State.rest (s : State) : State := { s with chosen := none, freeCtr := s.freeCtr + 1 }.wakeAll

/-- The same after an instruction. -/
def restAfter : Result → Result
  | .next s => .next s.rest
  | .fault f => .fault f
  | .refused r => .refused r

/-- The same after a step of the device. -/
def wakeAfter : Result → Result
  | .next s => .next s.wakeAll
  | .fault f => .fault f
  | .refused r => .refused r

/-- A step that another has brought about (R122, R302, R305, R306, R309, R315). -/
def runPending (p : Pending) (s : State) : Result :=
  match p with
  | .complete die idx 0 => execPagerCompleteRetry die idx s
  | .complete die idx 1 => execPagerCompleteBind die idx s
  | .complete die idx 2 => execPagerCompleteTerminal die idx s
  | .complete die idx action => execPagerCompleteReserved die idx action s
  | .windowWrite die off value => execPagerWindowWrite die off value s
  | .checkpoint lease halt => execCheckpointStart lease halt s
  | .dbase lease value => execLeaseDbaseWrite lease value s
  | .route node mask => execRouteWrite node mask s
  | .role die frame value => execFrameRoleWrite die frame value s
  | .leaseExpire lease => execLeaseExpire lease s
  | .leaseWarn lease => execLeaseWarn lease s
  | .leaseWarnRepeat lease => execLeaseWarnRepeat lease s
  | .ages p => execCandidateAges p s
  | .reread p => execWaitmReread p s
  | .exportRetry uid => .next (s.retryExport uid)

/-- A step of the device that comes of itself: it has no encoding, and no other step brings it about
(notes/assumptions/1.md). -/
def spontaneous (i : Instr) : Bool :=
  (encode i).isNone &&
  (match i with
   | .pagerCompleteRetry .. | .pagerCompleteBind .. | .pagerCompleteTerminal ..
   | .pagerCompleteReserved .. | .pagerWindowWrite .. | .checkpointStart .. | .leaseDbaseWrite ..
   | .routeWrite .. | .frameRoleWrite .. | .leaseExpire .. | .leaseWarn .. | .leaseWarnRepeat ..
   | .candidateAges .. | .handlerEntry .. => false
   | _ => true)

/-! ### Placing a word where the next fetch finds it (notes/assumptions/60.md) -/

/-- Where the word stands: in frame 2, which context 0 reaches at the same VA (R255, R392). -/
def codeVa : Nat := 0x20000

/-- The launch whose only field runs the word: code at `codeVa`, in context 0. -/
def codeLaunch : Launch :=
  { ctx := 0, ltag := 0, irq := false, vec := 0, vf := none,
    lrec := { scode := w64 codeVa, lcode := w64 codeVa, llen := 65536, const := 0, clen := 0, count := 1,
              swaths := 1, lanes := 1, acc := 16, barr := 16, vregs := 256, scr := 64, mw := 0, mh := 0,
              cls := 0, roles := [], chk := 0, seed := 0, compl := 0, imgva := 0x100000, imgslots := 1 },
    cls := 0, accNo := 0, next := 1, finished := 0, faulted := 0, slots := [0], completing := false,
    complWait := false, done := false }

/-- The swath that runs the word: its scalar stream stands at the code, and its lane stream runs there
too. -/
def codeSwath : Swath :=
  { Swath.zero with
    vregs := 256, eng := { Engines.zero with mgen := seedGen 0 1024 },
    regs := { Regs.zero with pc := w64 codeVa, rgnEntry := w64 codeVa },
    meet := { Meet.zero with hs := .running },
    lanes := { f0 := some (newFrag (presentMask 1) 0 0), f1 := none, stack := [], late := [],
               births := 1 } }

def codeField : Field :=
  { launch := 0, ctx := 0, num := 0, mx := 0, my := 0, status := .resident, ready := false, readyAt := 0,
    core := 0, mquad := 0, slot := 0, banks := [], tiles := 16, scrKib := 64, acc := [], spad := [],
    bars := List.replicate 16 { expected := 0, pending := 0, phase := false }, stop := none,
    slicing := false, sws := [(0, codeSwath)] }

/-- Frame 2 as plain memory. -/
def codeFrame : Frame :=
  { role := .direct, st := .free, count := 0, unit := 0, lease := 0, charge := 0, hold := 0,
    inSet := false }

/-- A form that only a pager core issues (R236, R301): the opcodes 0x69 and 0x6A. -/
def pagerWord (w : Nat) : Bool := w / 2 ^ 25 % 128 == 0x69 || w / 2 ^ 25 % 128 == 0x6A

/-- The word of a pager core at address 0 of its SRAM, the core running. -/
def Pager.withWord (p : Pager) (w : Nat) : Pager :=
  { p with sram := Mem.wrN [] 0 12 w, imgLen := 4096, sw := Swath.zero, running := true }

/-- The state in which the next step fetches and runs the word `w`, of a scalar or of a lane
instruction. -/
def State.withWord (s : State) (lane : Bool) (w : Nat) : State :=
  let s := { s with agenda := [] }
  if !lane && pagerWord w then
    { s with pagers := mput s.pagers 0 (((mget s.pagers 0).getD Pager.zero).withWord w),
             chosen := some (.pager 0) }
  else
    { s with
      mem := s.mem.wrN codeVa 12 w, frames := mput s.frames (codeVa / 65536) codeFrame,
      poisoned := s.poisoned.filter (· != codeVa / 128),
      tlb := s.tlb.filter (fun t => t.ctx != 0),
      eccWaits := s.eccWaits.filter (fun w => w.line != codeVa / 128),
      heath := { s.heath with testing := [] },
      ctxs := mput s.ctxs 0 Context.root0,
      launches := mput s.launches 0 codeLaunch, fields := mput s.fields 0 codeField,
      nextFid := Nat.max s.nextFid 1,
      chosen := some (if lane then .lane 0 0 false else .scalar 0 0) }

end Sys2Proof.Machine
end

