-- ==== Sys2Proof/Machine/Step.lean ====
section
/-! DEFINITION. One step of the device, and the placing of a word for the next step. -/

namespace Sys2Proof.Machine
open Sys2Proof

/-- One step: a step that another has brought about comes first; then the chosen party issues; else
something happens of itself (notes/assumptions/1.md). -/
def step (s : State) : Host.Outcome State Fault Refusal :=
  match s.agenda with
  | p :: r => runPending p { s with agenda := r }
  | [] =>
    match s.chosen with
    | some _ =>
      match nextIssue s with
      | .run i s' => restAfter (exec i s')
      | .stop s' => .next s'.rest
    | none =>
      if spontaneous (Config.happening s.freeCtr) then
        wakeAfter (exec (Config.happening s.freeCtr) s.tick)
      else .next s.tick

/-- `s` with an instruction's word where the next step fetches it. -/
def State.withFetchWord (s : State) (nbits w : Nat) : State := s.withWord (decide (32 < nbits)) w

end Sys2Proof.Machine
end

