-- ==== Sys2Proof/Safety.lean ====
section
/-! DEFINITION. What a safe run is: a run in which no step stops, and in which memory keeps its
canonical form. -/

namespace Sys2Proof.Machine
open Sys2Proof

/-- A step, or an instruction, that goes on. -/
def goesOn (r : Host.Outcome State Fault Refusal) : Prop := ∃ t, r = .next t

/-- Global memory and the pool nodes' memory are in canonical form: addresses rise strictly, and no
entry is the byte that an unlisted address reads as. -/
def State.memWf (s : State) : Prop := s.mem.wf = true ∧ s.pool.wf = true

/-- A safe state: memory is canonical and the next step goes on. -/
def State.safe (s : State) : Prop := s.memWf ∧ goesOn (step s)

end Sys2Proof.Machine
end

