-- ==== Sys2Proof/Certificates/Slice0/Obligations.lean ====
section
/-! DEFINITION. The statements for the provers, and the vocabulary that they are written in. -/

namespace Sys2Proof.Claims
open Sys2Proof Sys2Proof.Machine

/-! ### Vocabulary -/

/-- A swath without its scoreboard and the registers that its regions have read: what an instruction
changes beside them is its effect (R26, R28). -/
def eff (w : Swath) : Swath :=
  let quiet (g : Frag) : Frag := { g with sb := [], rset := [] }
  { w with ctl := { w.ctl with sb := [], rset := [] },
           lanes := { w.lanes with f0 := w.lanes.f0.map quiet, f1 := w.lanes.f1.map quiet } }

/-- Every byte of global memory and of the pool nodes' memory reads in `t` as in `s`. -/
def SameBytes (s t : State) : Prop := ∀ a, t.mem.rd a = s.mem.rd a ∧ t.pool.rd a = s.pool.rd a

/-- `r` goes on to the state that differs from `s` only in the swath of `F`'s party, which is as `u`
up to its scoreboard; no byte of memory changes. -/
def Goes (s : State) (F : Focus) (u : Swath) (r : Host.Outcome State Fault Refusal) : Prop :=
  ∃ w', r = .next (s.updSwath F.party (fun _ => w')) ∧ eff w' = eff u
    ∧ SameBytes s (s.updSwath F.party (fun _ => w'))

/-- The swath with its scalar PC at `pc`. -/
def at_ (w : Swath) (pc : W64) : Swath := { w with regs := { w.regs with pc := pc } }

/-- The swath past an instruction word of `n` bytes. -/
def past (w : Swath) (n : Nat := 4) : Swath := at_ w (w.regs.pc + BitVec.ofNat 64 n)

/-- The scalar stream that issues in `s` is `w`, no handler entry waits for its next boundary (R239),
and neither `STALL_SHORT` nor `REGION_WAR` arises for an instruction that reads and writes these
registers (R26, R28). -/
structure Clear (s : State) (F : Focus) (w : Swath) (reads writes : List RegName) : Prop where
  focus : s.scalarFocus = some (F, w)
  calm : w.ctl.entering = false
  stall : stallShort w.regs.chk w.ctl.sb reads = false
  war : regionWar w.regs.chk (addReads w.ctl.rset reads) writes = false

/-- A management command that Heath hears: its image is verified, its failure does not hold the device in
reset, and the command comes over I3C or from the physical function (R426, R427). -/
def Heard (s : State) (via : Via) : Prop :=
  s.heath.held = false ∧ s.heath.bootStep ≠ 0 ∧ (via = .i3c ∨ via = .pcie none)

/-- Scalar registers by number. -/
def xs (l : List (BitVec 6)) : List RegName := l.map (fun r => .x r.toNat)

/-- `i` writes `v` to `x`d and goes on at the next word, whatever state it issues in; nothing else
changes. A write to `x0` is discarded (R29). -/
def Computes (i : Instr) (d : BitVec 6) (srcs : List (BitVec 6)) (v : Swath → W64) : Prop :=
  ∀ s F w, Clear s F w (xs srcs) (xs [d]) → Goes s F (past (w.setX d.toNat (v w))) (exec i s)

end Sys2Proof.Claims

open Sys2Proof Sys2Proof.Machine Sys2Proof.Claims

/-! ### Scalar integer forms -/

/-- Each register form of R47 other than the divisions and the bit counts, and `SEL` of R48, completes with the
result that the rules give, for every operand: shift amounts are bits [5:0] of xb, `MULH` and `MULHU` give
the high half of the exact product. -/
def Sys2Proof.Claims.RegisterForms : Prop :=
  ∀ (d a b : BitVec 6) (st : BitVec 2),
    Computes (.add d a b st) d [a, b] (fun w => w.xr a + w.xr b) ∧
    Computes (.sub d a b st) d [a, b] (fun w => w.xr a - w.xr b) ∧
    Computes (.mul d a b st) d [a, b] (fun w => BitVec.ofInt 64 ((w.xr a).toInt * (w.xr b).toInt)) ∧
    Computes (.mulh d a b st) d [a, b]
      (fun w => (((w.xr a).signExtend 128) * ((w.xr b).signExtend 128)).extractLsb' 64 64) ∧
    Computes (.mulhu d a b st) d [a, b]
      (fun w => (((w.xr a).setWidth 128) * ((w.xr b).setWidth 128)).extractLsb' 64 64) ∧
    Computes (.and d a b st) d [a, b] (fun w => w.xr a &&& w.xr b) ∧
    Computes (.or d a b st) d [a, b] (fun w => w.xr a ||| w.xr b) ∧
    Computes (.xor d a b st) d [a, b] (fun w => w.xr a ^^^ w.xr b) ∧
    Computes (.shl d a b st) d [a, b] (fun w => w.xr a <<< ((w.xr b).extractLsb' 0 6)) ∧
    Computes (.shr d a b st) d [a, b] (fun w => w.xr a >>> ((w.xr b).extractLsb' 0 6)) ∧
    Computes (.sar d a b st) d [a, b] (fun w => (w.xr a).sshiftRight' ((w.xr b).extractLsb' 0 6)) ∧
    Computes (.min d a b st) d [a, b]
      (fun w => if (w.xr a).toInt ≤ (w.xr b).toInt then w.xr a else w.xr b) ∧
    Computes (.minu d a b st) d [a, b] (fun w => if w.xr a ≤ w.xr b then w.xr a else w.xr b) ∧
    Computes (.max d a b st) d [a, b]
      (fun w => if (w.xr b).toInt ≤ (w.xr a).toInt then w.xr a else w.xr b) ∧
    Computes (.maxu d a b st) d [a, b] (fun w => if w.xr b ≤ w.xr a then w.xr a else w.xr b) ∧
    (∀ c : BitVec 5, Computes (.sel d a b c st) d [a, b, c.setWidth 6]
      (fun w => if w.xr (c.setWidth 6) = 0 then w.xr b else w.xr a))

/-- `CMP` writes 1 where its condition holds and 0 where it does not, for each assigned condition
(R36, R47). -/
def Sys2Proof.Claims.CompareForms : Prop :=
  ∀ (d a b : BitVec 6) (st : BitVec 2),
    Computes (.cmp d a b 0 st) d [a, b] (fun w => if w.xr a = w.xr b then 1 else 0) ∧
    Computes (.cmp d a b 1 st) d [a, b] (fun w => if w.xr a = w.xr b then 0 else 1) ∧
    Computes (.cmp d a b 2 st) d [a, b] (fun w => if (w.xr a).toInt < (w.xr b).toInt then 1 else 0) ∧
    Computes (.cmp d a b 3 st) d [a, b] (fun w => if (w.xr a).toInt < (w.xr b).toInt then 0 else 1) ∧
    Computes (.cmp d a b 4 st) d [a, b] (fun w => if (w.xr a).toNat < (w.xr b).toNat then 1 else 0) ∧
    Computes (.cmp d a b 5 st) d [a, b] (fun w => if (w.xr a).toNat < (w.xr b).toNat then 0 else 1)

/-- `CLZ`, `CTZ` and `POPC` write a count from 0 to 64 that fits the bits of xa: below the count of
leading or trailing zeros every bit is 0, and the next one, if any, is 1 (R47). -/
def Sys2Proof.Claims.BitCountForms : Prop :=
  ∀ (d a : BitVec 6) (st : BitVec 2),
    (∃ f : W64 → Nat, Computes (.clz d a st) d [a] (fun w => BitVec.ofNat 64 (f (w.xr a))) ∧
      ∀ x : W64, f x ≤ 64 ∧ (∀ i, i < f x → x.getLsbD (63 - i) = false)
        ∧ (f x < 64 → x.getLsbD (63 - f x) = true)) ∧
    (∃ f : W64 → Nat, Computes (.ctz d a st) d [a] (fun w => BitVec.ofNat 64 (f (w.xr a))) ∧
      ∀ x : W64, f x ≤ 64 ∧ (∀ i, i < f x → x.getLsbD i = false)
        ∧ (f x < 64 → x.getLsbD (f x) = true)) ∧
    Computes (.popc d a st) d [a]
      (fun w => BitVec.ofNat 64 ((List.range 64).filter (fun i => (w.xr a).getLsbD i)).length)

/-- Division (R49): a zero divisor gives all ones or the dividend and sets `sr.flags.DZ`, and −2^63
divided by −1 gives −2^63 and remainder 0 without a flag. Quotients are truncated toward zero and a
remainder has the sign of the dividend. -/
def Obligations.ScalarDivisionNeverTraps : Prop :=
  ∀ (d a b : BitVec 6) (st : BitVec 2),
    let flagged (w : Swath) : Swath :=
      { w with regs := { w.regs with flags := w.regs.flags ||| (if w.xr b = 0 then 0x10 else 0) } }
    let form (i : Instr) (v : W64 → W64 → W64) : Prop :=
      ∀ s F w, Clear s F w (xs [a, b]) (xs [d]) →
        Goes s F (past ((flagged w).setX d.toNat (v (w.xr a) (w.xr b)))) (exec i s)
    form (.div d a b st) (fun x y => if y = 0 then BitVec.allOnes 64 else
      if x = BitVec.intMin 64 ∧ y = BitVec.allOnes 64 then BitVec.intMin 64
      else BitVec.ofInt 64 (Int.tdiv x.toInt y.toInt)) ∧
    form (.divu d a b st) (fun x y => if y = 0 then BitVec.allOnes 64
      else BitVec.ofNat 64 (x.toNat / y.toNat)) ∧
    form (.rem d a b st) (fun x y => if y = 0 then x else
      if x = BitVec.intMin 64 ∧ y = BitVec.allOnes 64 then 0
      else BitVec.ofInt 64 (Int.tmod x.toInt y.toInt)) ∧
    form (.remu d a b st) (fun x y => if y = 0 then x else BitVec.ofNat 64 (x.toNat % y.toNat))

/-- The immediate forms (R50) and `MOVPC` (R51): the immediate is sign-extended; a shift amount is 0 to
63; `MOVPC` gives its own address plus imm17 words. -/
def Sys2Proof.Claims.ImmediateForms : Prop :=
  ∀ (d a h : BitVec 6) (i : BitVec 11) (j : BitVec 17) (st : BitVec 2),
    let imm : W64 := i.signExtend 64
    Computes (.addi d a i st) d [a] (fun w => w.xr a + imm) ∧
    Computes (.andi d a i st) d [a] (fun w => w.xr a &&& imm) ∧
    Computes (.ori d a i st) d [a] (fun w => w.xr a ||| imm) ∧
    Computes (.xori d a i st) d [a] (fun w => w.xr a ^^^ imm) ∧
    Computes (.shli d a h st) d [a] (fun w => w.xr a <<< h) ∧
    Computes (.shri d a h st) d [a] (fun w => w.xr a >>> h) ∧
    Computes (.sari d a h st) d [a] (fun w => (w.xr a).sshiftRight' h) ∧
    Computes (.slti d a i st) d [a] (fun w => if (w.xr a).toInt < imm.toInt then 1 else 0) ∧
    Computes (.sltiu d a i st) d [a] (fun w => if (w.xr a).toNat < imm.toNat then 1 else 0) ∧
    Computes (.muli d a i st) d [a] (fun w => w.xr a * imm) ∧
    Computes (.movpc d j st) d [] (fun w => w.regs.pc + j.signExtend 64 * 4)

/-- A `LIT` and the word after it run as one instruction with the 36-bit immediate of the pair, and the
PC moves past both words: the seven arithmetic forms, the forms of group 010 wherever their access
completes, and `JALR`, which links to the word after the pair. Where the word after it is any other, or is
no instruction, the pair raises `ILLEGAL` at the `LIT` (R19). -/
def Sys2Proof.Claims.LitPairs : Prop :=
  ∀ (k : BitVec 25) (s : State) (F : Focus) (w : Swath), s.scalarFocus = some (F, w) →
    ∀ v s1, fetchScalar s F w 4 = .word v s1 → s1.scalarFocus = some (F, w) →
      (∀ (d a : BitVec 6) (j : BitVec 11) (st : BitVec 2),
        let imm : W64 := (k ++ j).signExtend 64
        let va := (w.xr a + imm).toNat
        let alu (i : Instr) (x : W64) : Prop :=
          decodeScalar v = .ok i → Clear s1 F w (xs [a]) (xs [d]) →
            Goes s1 F (past (w.setX d.toNat x) 8) (exec (.lit k) s)
        let load (i : Instr) (n : Nat) (ext : Nat → W64) : Prop :=
          decodeScalar v = .ok i → Clear s1 F w (xs [a]) (xs [d]) → va % n = 0 → inWindow F va = false →
            ∀ x s2, gLoad F .l1 false s1 va n = .ok x s2 →
              Goes s2 F (past (w.setX d.toNat (ext x)) 8) (exec (.lit k) s)
        let store (i : Instr) (n : Nat) : Prop :=
          decodeScalar v = .ok i → Clear s1 F w (xs [d, a]) (xs []) → va % n = 0 → inWindow F va = false →
            ∀ s2, plainStore F s1 va (w.xr d).toNat n = .ok () s2 → Goes s2 F (past w 8) (exec (.lit k) s)
        alu (.addi d a j st) (w.xr a + imm) ∧ alu (.andi d a j st) (w.xr a &&& imm) ∧
        alu (.ori d a j st) (w.xr a ||| imm) ∧ alu (.xori d a j st) (w.xr a ^^^ imm) ∧
        alu (.slti d a j st) (if (w.xr a).toInt < imm.toInt then 1 else 0) ∧
        alu (.sltiu d a j st) (if (w.xr a).toNat < imm.toNat then 1 else 0) ∧
        alu (.muli d a j st) (w.xr a * imm) ∧
        load (.ldb d a j st) 1 (fun x => (BitVec.ofNat 8 x).signExtend 64) ∧
        load (.ldbu d a j st) 1 (fun x => BitVec.ofNat 64 x) ∧
        load (.ldh d a j st) 2 (fun x => (BitVec.ofNat 16 x).signExtend 64) ∧
        load (.ldhu d a j st) 2 (fun x => BitVec.ofNat 64 x) ∧
        load (.ldw d a j st) 4 (fun x => (BitVec.ofNat 32 x).signExtend 64) ∧
        load (.ldwu d a j st) 4 (fun x => BitVec.ofNat 64 x) ∧
        load (.ldd d a j st) 8 (fun x => BitVec.ofNat 64 x) ∧
        store (.stb d a j st) 1 ∧ store (.sth d a j st) 2 ∧ store (.stw d a j st) 4 ∧
        store (.std d a j st) 8 ∧
        (F.pager = none → va % 8 = 0 →
          (∀ f o, scratchAt s1 F.fid va 8 false = some (f, o) →
            alu (.lds d a j st) (BitVec.ofNat 64 (scratchRd s1 f o 8)) ∧
            (decodeScalar v = .ok (.sts d a j st) → Clear s1 F w (xs [d, a]) (xs []) →
              ∃ w', exec (.lit k) s
                  = .next ((s1.scratchWr f o (w.xr d).toNat 8).updSwath F.party (fun _ => w')) ∧
                eff w' = eff (past w 8))) ∧
          (∀ x s2, constRd s1 F va 8 = some (.ok (x, s2)) → decodeScalar v = .ok (.ldc d a j st) →
            Clear s1 F w (xs [a]) (xs [d]) →
            Goes s2 F (past (w.setX d.toNat (BitVec.ofNat 64 x)) 8) (exec (.lit k) s))) ∧
        (decodeScalar v = .ok (.jalr d a j st) → Clear s1 F w (xs [a]) (xs [d]) →
          (va % 4 = 0 → Goes s1 F (at_ (w.setX d.toNat (w.regs.pc + 8)) (w.xr a + imm)) (exec (.lit k) s)) ∧
          (va % 4 ≠ 0 → exec (.lit k) s
            = .next (s1.scalarFault F { raise .misaligned with va := w.xr a + imm })))) ∧
      ((∀ i, decodeScalar v = .ok i → litMeaning k i = none) →
        exec (.lit k) s = .next (s1.scalarFault F (raise .illegal))) ∧
      (∀ i, (litMeaning k i).isSome = true ↔ ∃ d a j st,
        i ∈ [.addi d a j st, .andi d a j st, .ori d a j st, .xori d a j st, .slti d a j st, .sltiu d a j st,
          .muli d a j st, .ldb d a j st, .ldbu d a j st, .ldh d a j st, .ldhu d a j st, .ldw d a j st,
          .ldwu d a j st, .ldd d a j st, .stb d a j st, .sth d a j st, .stw d a j st, .std d a j st,
          .lds d a j st, .sts d a j st, .ldc d a j st, .jalr d a j st])


/-- Scalar register arithmetic, compares and bit counts: `RegisterForms` and `CompareForms` and
`BitCountForms`. -/
def Obligations.ScalarRegisterFormsWriteTheirResults : Prop :=
  Claims.RegisterForms ∧ Claims.CompareForms ∧ Claims.BitCountForms

/-- Scalar immediate arithmetic, MOVPC and LIT pairs: `ImmediateForms` and `LitPairs`. -/
def Obligations.ScalarImmediateFormsWriteTheirResults : Prop :=
  Claims.ImmediateForms ∧ Claims.LitPairs
/-! ### Scalar loads and stores -/

/-- A global access changes no swath: the registers change only by the instruction's own commit. -/
def Sys2Proof.Claims.GlobalAccesses : Prop :=
  ∀ (s s1 : State) (F : Focus) (lvl : Level) (sys : Bool) (va n v v1 : Nat) (f : Nat → Option Nat),
    (gLoad F lvl sys s va n = .ok v1 s1 → s1.fields = s.fields ∧ s1.pagers = s.pagers) ∧
    (gStore F lvl sys s va v n = .ok () s1 → s1.fields = s.fields ∧ s1.pagers = s.pagers) ∧
    (gAtomic F lvl sys s va n f = .ok v1 s1 → s1.fields = s.fields ∧ s1.pagers = s.pagers)

/-- The scalar loads complete wherever their access does, with the loaded bytes sign- or zero-extended
(R53, R54): `gLoad` answers the bytes and the state that the access leaves. An unaligned address raises
`MISALIGNED`. -/
def Sys2Proof.Claims.ScalarLoads : Prop :=
  ∀ (d a : BitVec 6) (i : BitVec 11) (st : BitVec 2),
    let form (j : Instr) (n : Nat) (ext : Nat → W64) : Prop :=
      ∀ s F w, Clear s F w (xs [a]) (xs [d]) →
        let va := (w.xr a + i.signExtend 64).toNat
        (va % n = 0 → inWindow F va = false → ∀ v s1, gLoad F .l1 false s va n = .ok v s1 →
          Goes s1 F (past (w.setX d.toNat (ext v))) (exec j s)) ∧
        (va % n ≠ 0 → exec j s = .next (s.scalarFault F
          { raise .misaligned with va := BitVec.ofNat 64 va }))
    form (.ldb d a i st) 1 (fun v => (BitVec.ofNat 8 v).signExtend 64) ∧
    form (.ldbu d a i st) 1 (fun v => BitVec.ofNat 64 v) ∧
    form (.ldh d a i st) 2 (fun v => (BitVec.ofNat 16 v).signExtend 64) ∧
    form (.ldhu d a i st) 2 (fun v => BitVec.ofNat 64 v) ∧
    form (.ldw d a i st) 4 (fun v => (BitVec.ofNat 32 v).signExtend 64) ∧
    form (.ldwu d a i st) 4 (fun v => BitVec.ofNat 64 v) ∧
    form (.ldd d a i st) 8 (fun v => BitVec.ofNat 64 v)

/-- A load whose bytes the core L1 holds, with permission to read, answers those bytes and changes
nothing of memory or of its copies (R221, R265). -/
def Sys2Proof.Claims.L1Hits : Prop :=
  ∀ (s : State) (F : Focus) (va n : Nat) (c : Copy),
    F.pager = none → copyAt s.l1 F.core F.ctx (va / 128) = some c →
    (byteMask (va % 128) n &&& ~~~c.valid) = 0 → c.permits (F.agent.access true false false) = true →
      gLoad F .l1 false s va n = .ok (lineBytes c.data (va % 128) n) s

/-- The scalar stores complete wherever their access does, and change no register but the PC (R53, R54). -/
def Sys2Proof.Claims.ScalarStores : Prop :=
  ∀ (d a : BitVec 6) (i : BitVec 11) (st : BitVec 2),
    let form (j : Instr) (n : Nat) : Prop :=
      ∀ s F w, Clear s F w (xs [d, a]) (xs []) →
        let va := (w.xr a + i.signExtend 64).toNat
        (va % n = 0 → inWindow F va = false → ∀ s1, plainStore F s va (w.xr d).toNat n = .ok () s1 →
          Goes s1 F (past w) (exec j s)) ∧
        (va % n ≠ 0 → exec j s = .next (s.scalarFault F
          { raise .misaligned with va := BitVec.ofNat 64 va }))
    form (.stb d a i st) 1 ∧ form (.sth d a i st) 2 ∧ form (.stw d a i st) 4 ∧ form (.std d a i st) 8

/-- Where a plain store's bytes go: in a swath's core L1, a line that it may write holds the stored bytes
and keeps every other byte, its alias, its line and its permissions, they alone become dirty, and neither the home memory
nor another copy changes; from a pager core, the home's bytes at the DPA are the stored ones and every
other byte of HBM reads as before (R221, R301). -/
def Sys2Proof.Claims.PlainStores : Prop :=
  ∀ (s : State) (F : Focus) (va v n : Nat), va % 128 + n ≤ 128 →
    (∀ c, F.pager = none → copyAt s.l1 F.core F.ctx (va / 128) = some c →
      c.permits (F.agent.access false true false) = true → 0 < n →
      ∃ c', plainStore F s va v n = .ok () { s with l1 := putCopy s.l1 c' } ∧
        c' = { c with valid := c'.valid, dirty := c'.dirty, data := c'.data } ∧
        copyAt (putCopy s.l1 c') F.core F.ctx (va / 128) = some c' ∧
        (∀ b, b < 128 → lineBytes c'.data b 1 =
          if va % 128 ≤ b ∧ b < va % 128 + n then v / 256 ^ (b - va % 128) % 256
          else lineBytes c.data b 1) ∧
        c'.dirty = c.dirty ||| byteMask (va % 128) n ∧ c'.valid = c.valid ||| byteMask (va % 128) n ∧
        (∀ unit ctx line, ¬ (unit = F.core ∧ ctx = F.ctx ∧ line = va / 128) →
          copyAt (putCopy s.l1 c') unit ctx line = copyAt s.l1 unit ctx line)) ∧
    (F.pager.isSome → pagerCheck s va = none → dregion va = .hbm → dregion (va / 128 * 128) = .hbm →
      writeHold s (va / 128) (byteMask (va % 128) n) = none → s.mem.wf = true →
      ∃ s1, plainStore F s va v n = .ok () s1 ∧ s1.pool = s.pool ∧
        ∀ a, s1.mem.rd a = if va ≤ a ∧ a < va + n then BitVec.ofNat 8 (v / 256 ^ (a - va))
          else s.mem.rd a)

/-- `LDS`, `STS` and `LDC` (R53, R54, R55, R117): they reach the eight bytes at an offset of a scratchpad, or
of the constant block below CLEN; `STS` changes exactly the eight bytes that it stores to. An offset that
is not a multiple of 8 raises `MISALIGNED`, one that reaches nothing `RANGE`. -/
def Sys2Proof.Claims.ScratchpadForms : Prop :=
  ∀ (d a : BitVec 6) (i : BitVec 11) (st : BitVec 2) (s : State) (F : Focus) (w : Swath),
    F.pager = none →
    let off := (w.xr a + i.signExtend 64).toNat
    let traps (j : Instr) (c : Cause) : Prop := exec j s = .next (s.scalarFault F (raise c))
    (off % 8 ≠ 0 →
      (Clear s F w (xs [a]) (xs [d]) → traps (.lds d a i st) .misaligned ∧ traps (.ldc d a i st) .misaligned) ∧
      (Clear s F w (xs [d, a]) (xs []) → traps (.sts d a i st) .misaligned)) ∧
    (off % 8 = 0 → scratchAt s F.fid off 8 false = none →
      (Clear s F w (xs [a]) (xs [d]) → traps (.lds d a i st) .range) ∧
      (Clear s F w (xs [d, a]) (xs []) → traps (.sts d a i st) .range)) ∧
    (off % 8 = 0 → (∀ l, mget s.launches F.launch = some l → l.lrec.clen < off + 8) →
      Clear s F w (xs [a]) (xs [d]) → traps (.ldc d a i st) .range) ∧
    (off % 8 = 0 → Clear s F w (xs [a]) (xs [d]) → ∀ f o, scratchAt s F.fid off 8 false = some (f, o) →
      Goes s F (past (w.setX d.toNat (BitVec.ofNat 64 (scratchRd s f o 8)))) (exec (.lds d a i st) s)) ∧
    (off % 8 = 0 → Clear s F w (xs [d, a]) (xs []) → ∀ f o, scratchAt s F.fid off 8 false = some (f, o) →
      ∃ w', exec (.sts d a i st) s
          = .next ((s.scratchWr f o (w.xr d).toNat 8).updSwath F.party (fun _ => w')) ∧
        eff w' = eff (past w) ∧ SameBytes s (s.scratchWr f o (w.xr d).toNat 8) ∧
        ∀ fd fd', s.field? f = some fd → fd.spad.wf = true →
          (s.scratchWr f o (w.xr d).toNat 8).field? f = some fd' →
          ∀ b, fd'.spad.rd b = if o ≤ b ∧ b < o + 8 then
            (w.xr d).extractLsb' (8 * (b - o)) 8 else fd.spad.rd b) ∧
    (off % 8 = 0 → Clear s F w (xs [a]) (xs [d]) → ∀ v s1, constRd s F off 8 = some (.ok (v, s1)) →
      Goes s1 F (past (w.setX d.toNat (BitVec.ofNat 64 v))) (exec (.ldc d a i st) s))


/-- Scalar loads from global memory: `GlobalAccesses` and `ScalarLoads` and `L1Hits`. -/
def Obligations.ScalarLoadsReadMemory : Prop :=
  Claims.GlobalAccesses ∧ Claims.ScalarLoads ∧ Claims.L1Hits

/-- Scalar stores, and the scratchpad and constant block forms: `ScalarStores` and `PlainStores` and
`ScratchpadForms`. -/
def Obligations.ScalarStoresWriteTheirBytes : Prop :=
  Claims.ScalarStores ∧ Claims.PlainStores ∧ Claims.ScratchpadForms
/-! ### Scalar control -/

/-- A conditional branch goes to its target where its condition holds and to the next word where it does
not; offsets count words from the branch (R56). -/
def Sys2Proof.Claims.Branches : Prop :=
  ∀ (a b : BitVec 6) (o : BitVec 11) (st : BitVec 2),
    let form (i : Instr) (taken : W64 → W64 → Prop) : Prop :=
      ∀ s F w, Clear s F w (xs [a, b]) (xs []) →
        (taken (w.xr a) (w.xr b) → Goes s F (at_ w (w.regs.pc + o.signExtend 64 * 4)) (exec i s)) ∧
        (¬ taken (w.xr a) (w.xr b) → Goes s F (past w) (exec i s))
    form (.beq a b o st) (fun x y => x = y) ∧
    form (.bne a b o st) (fun x y => x ≠ y) ∧
    form (.blt a b o st) (fun x y => x.toInt < y.toInt) ∧
    form (.bge a b o st) (fun x y => y.toInt ≤ x.toInt) ∧
    form (.bltu a b o st) (fun x y => x.toNat < y.toNat) ∧
    form (.bgeu a b o st) (fun x y => y.toNat ≤ x.toNat)

/-- `JAL` and `JALR` link to the next word and go to their target; a `JALR` target that is no word
address raises `MISALIGNED` and links nothing (R57). -/
def Sys2Proof.Claims.Calls : Prop :=
  ∀ (d a : BitVec 6) (i : BitVec 11) (j : BitVec 17) (st : BitVec 2) (s : State) (F : Focus) (w : Swath),
    (Clear s F w (xs []) (xs [d]) →
      Goes s F (at_ (w.setX d.toNat (w.regs.pc + 4)) (w.regs.pc + j.signExtend 64 * 4))
        (exec (.jal d j st) s)) ∧
    (Clear s F w (xs [a]) (xs [d]) →
      let t := w.xr a + i.signExtend 64
      (t.toNat % 4 = 0 →
        Goes s F (at_ (w.setX d.toNat (w.regs.pc + 4)) t) (exec (.jalr d a i st) s)) ∧
      (t.toNat % 4 ≠ 0 → exec (.jalr d a i st) s
        = .next (s.scalarFault F { raise .misaligned with va := t })))

/-- The moves between `x` and the scalar view of `w`, and `SETFMT`: `MOVXW` marks its register as written
since the last meeting; `SETFMT` replaces the bits of `sr.fmt` that its mask names, refuses a reserved
code with `ILLEGAL`, and with a mask of 0 changes nothing (R30, R58, R59, R60). -/
def Sys2Proof.Claims.UniformMoves : Prop :=
  ∀ (st : BitVec 2) (s : State) (F : Focus) (w : Swath),
    (∀ (d : BitVec 4) (a : BitVec 6), Clear s F w (xs [a]) [.w d.toNat] →
      Goes s F (past { w with
        regs := { w.regs with wS := mput w.regs.wS d.toNat (w.xr a) },
        meet := { w.meet with wset := w.meet.wset ||| (1 <<< d.toNat) } }) (exec (.movxw d a st) s)) ∧
    (∀ (d : BitVec 6) (a : BitVec 4), Clear s F w [.w a.toNat] (xs [d]) →
      Goes s F (past (w.setX d.toNat (mgetD w.regs.wS a.toNat 0))) (exec (.movwx d a st) s)) ∧
    (∀ (a m : BitVec 6), Clear s F w (xs [a]) [.sr 0] →
      let v := (w.regs.fmt &&& ~~~fmtMask m) ||| (w.xr a &&& fmtMask m)
      (m = 0 → Goes s F (past w) (exec (.setfmt a m st) s)) ∧
      (m ≠ 0 → fmtOk v = true → Goes s F (past { w with
        regs := { w.regs with fmt := v }, meet := { w.meet with fmtSet := true } })
        (exec (.setfmt a m st) s)) ∧
      (m ≠ 0 → fmtOk v = false → exec (.setfmt a m st) s = .next (s.scalarFault F (raise .illegal))))

/-- `LRUN` starts an idle lane stream: one fragment over every present lane at the lane PC, with the
scalar view of `sr.fmt` and of each `w` written since the last meeting; `LGO` to a running stream stages
its copies and sets the go bit, and to a held one sets it running. A start of a stream that is not idle,
or a second `LGO`, raises `STREAM_STATE`; a lane PC at or beyond LLEN raises `RANGE` (R61, R62, R63). -/
def Sys2Proof.Claims.LaneStarts : Prop :=
  ∀ (a : BitVec 6) (i : BitVec 11) (st : BitVec 2) (s : State) (F : Focus) (w : Swath),
    F.pager = none →
    (Clear s F w (xs [a]) [] →
      let n := w.xr a + i.signExtend 64
      (n.toNat < s.llen F.launch → w.meet.hs = .idle →
        (∃ u, Goes s F (past u).scalarRegion (exec (.lrun a i st) s) ∧
          u.meet.hs = .running ∧ u.meet.wset = 0 ∧ u.lanes.f1 = none ∧ u.lanes.stack = [] ∧
          (∃ g, u.lanes.f0 = some g ∧ g.mask = presentMask w.ng ∧ g.pc = n.setWidth 32 ∧
            g.fmt = w.regs.fmt) ∧
          (∀ k, k < 16 → w.meet.wset.getLsbD k = true →
            mgetD u.regs.wL k 0 = mgetD w.regs.wS k 0) ∧
          (∀ k, k < 16 → w.meet.wset.getLsbD k = false →
            mgetD u.regs.wL k 0 = mgetD w.regs.wL k 0))) ∧
      (s.llen F.launch ≤ n.toNat → exec (.lrun a i st) s = .next (s.scalarFault F (raise .range))) ∧
      (n.toNat < s.llen F.launch → w.meet.hs ≠ .idle →
        exec (.lrun a i st) s = .next (s.scalarFault F (raise .streamState)))) ∧
    (Clear s F w [] [] →
      (w.meet.hs = .running → w.meet.go = false →
        ∃ u, Goes s F (past u).scalarRegion (exec (.lgo st) s) ∧ u.meet.go = true ∧
          u.meet.staged = w.meet.wset ∧ u.meet.wset = 0 ∧ u.regs.wL = w.regs.wL) ∧
      (w.meet.hs = .held → ∃ u, Goes s F (past u).scalarRegion (exec (.lgo st) s) ∧
          u.meet.hs = .running ∧ u.meet.wset = 0 ∧
          ∀ k, k < 16 → w.meet.wset.getLsbD k = true →
            mgetD u.regs.wL k 0 = mgetD w.regs.wS k 0) ∧
      (w.meet.hs = .idle ∨ (w.meet.hs = .running ∧ w.meet.go = true) →
        exec (.lgo st) s = .next (s.scalarFault F (raise .streamState))))

/-- `LWAIT` whose signals are there consumes them: S falls by n, xd takes what is left, and a `w` that the
lane stream wrote before a covered signal crosses to the scalar view, while any other keeps its value
there; the same for an `LWAIT` that waits when it is looked at again. With too few signals it waits on a
running stream and raises `STREAM_STATE` on another; a count above 65,535 raises `RANGE` (R61, R64). -/
def Sys2Proof.Claims.LwaitForms : Prop :=
  (∀ (d a : BitVec 6) (i : BitVec 11) (st : BitVec 2) (s : State) (F : Focus) (w : Swath),
    F.pager = none → Clear s F w (xs [a]) (xs [d]) →
    let n := (w.xr a + i.signExtend 64).toNat
    (n ≤ 65535 → n ≤ w.meet.sig → ∃ u, u = w.consume n ∧
      Goes s F (past (u.setX d.toNat (BitVec.ofNat 64 (w.meet.sig - n)))).scalarRegion
        (exec (.lwait d a i st) s) ∧ u.meet.sig = w.meet.sig - n ∧ u.regs.wL = w.regs.wL ∧
        ∀ k < 16, mgetD u.regs.wS k 0 =
          if w.meet.lwset.getLsbD k = true ∧
              coveredBy 16 (mgetD w.meet.lwstamp k 0).toNat w.meet.consumed.toNat n = true
          then mgetD w.regs.wL k 0 else mgetD w.regs.wS k 0) ∧
    (n ≤ 65535 → w.meet.sig < n → w.meet.hs = .running →
      Goes s F { w with ctl := { w.ctl with wait := .lwait d.toNat n } } (exec (.lwait d a i st) s)) ∧
    (n ≤ 65535 → w.meet.sig < n → w.meet.hs ≠ .running →
      exec (.lwait d a i st) s = .next (s.scalarFault F (raise .streamState))) ∧
    (65535 < n → exec (.lwait d a i st) s = .next (s.scalarFault F (raise .range)))) ∧
  (∀ (fid sw d n : Nat) (s : State) (F : Focus) (w : Swath),
    s.residentAt fid sw = some (F, w) → w.ctl.wait = .lwait d n → n ≤ w.meet.sig →
    regionWar w.regs.chk w.ctl.rset [.x d] = false →
    Goes s F (past (({ (w.consume n) with ctl := { w.ctl with wait := .none } }).setX d
      (BitVec.ofNat 64 (w.meet.sig - n)))).scalarRegion (exec (.lwaitResume fid sw) s))

/-- What an arrival does to a barrier: the first of a phase sets the expected count, a count of 0, above
4,095 or other than the expected one is none, and the last one completes the phase (R66). -/
def Sys2Proof.Claims.BarrierArrivals : Prop :=
  ∀ (b : Bar) (n : Nat),
    (n = 0 ∨ 4095 < n ∨ (b.pending ≠ 0 ∧ b.expected ≠ n) → b.arrive n = none) ∧
    (0 < n → n ≤ 4095 → (b.pending = 0 ∨ b.expected = n) → b.pending + 1 ≠ n →
      b.arrive n = some ({ expected := n, pending := b.pending + 1, phase := b.phase }, b.phase)) ∧
    (0 < n → n ≤ 4095 → (b.pending = 0 ∨ b.expected = n) → b.pending + 1 = n →
      b.arrive n = some ({ expected := n, pending := 0, phase := !b.phase }, b.phase))

/-- The scalar barrier forms: `BARA` arrives and notes the phase it awaits; `BARW` with no token, or whose
phase is over, clears its token and goes on, and otherwise waits; `BARS` whose own arrival completes
the phase goes on; a wait whose phase has completed ends. A barrier beyond the pool raises `ILLEGAL`
and a bad count `BAR_COUNT` (R66). -/
def Sys2Proof.Claims.ScalarBarriers : Prop :=
  ∀ (b : BitVec 4) (a : BitVec 6) (st : BitVec 2) (s : State) (F : Focus) (w : Swath) (bar : Bar),
    F.pager = none →
    (s.bar F.fid b.toNat = none →
      (Clear s F w (xs [a]) [] → exec (.bara b a st) s = .next (s.scalarFault F (raise .illegal)) ∧
        exec (.bars b a st) s = .next (s.scalarFault F (raise .illegal))) ∧
      (Clear s F w [] [] → exec (.barw b st) s = .next (s.scalarFault F (raise .illegal)))) ∧
    (s.bar F.fid b.toNat = some bar →
    (Clear s F w (xs [a]) [] →
      (∀ bar' ph, bar.arrive (w.xr a).toNat = some (bar', ph) →
        Goes (s.setBar F.fid b.toNat bar') F
          (past { w with eng := { w.eng with stok := tokSet w.eng.stok b.toNat ph } }).scalarRegion
          (exec (.bara b a st) s) ∧
        (¬ (w.meet.barsDone = true ∧ w.meet.barsPc = w.regs.pc) →
          let tok := tokSet w.eng.stok b.toNat ph
          (bar'.phase ≠ ph → Goes (s.setBar F.fid b.toNat bar') F
            (past { w with meet := { w.meet with barsDone := false },
                           eng := { w.eng with stok := tokClear tok b.toNat } }).scalarRegion
            (exec (.bars b a st) s)) ∧
          (bar'.phase = ph → ∃ u, Goes (s.setBar F.fid b.toNat bar') F u (exec (.bars b a st) s) ∧
            u.ctl.wait = .bars b.toNat ∧ u.eng.stok = tok ∧ u.regs.pc = w.regs.pc ∧
            u.meet.barsDone = true ∧ u.meet.barsPc = w.regs.pc))) ∧
      (bar.arrive (w.xr a).toNat = none →
        exec (.bara b a st) s = .next (s.scalarFault F (raise .barCount)) ∧
        (¬ (w.meet.barsDone = true ∧ w.meet.barsPc = w.regs.pc) →
          exec (.bars b a st) s = .next (s.scalarFault F (raise .barCount))))) ∧
    (Clear s F w [] [] →
      (barWaits s F.fid b.toNat w.eng.stok = false →
        Goes s F (past { w with eng := { w.eng with stok := tokClear w.eng.stok b.toNat } })
          (exec (.barw b st) s)) ∧
      (barWaits s F.fid b.toNat w.eng.stok = true →
        Goes s F { w with ctl := { w.ctl with wait := .barw b.toNat } } (exec (.barw b st) s))) ∧
    (Clear s F w (xs [a]) [] → w.meet.barsDone = true → w.meet.barsPc = w.regs.pc →
      barWaits s F.fid b.toNat w.eng.stok = false →
      Goes s F (past { w with meet := { w.meet with barsDone := false },
                              eng := { w.eng with stok := tokClear w.eng.stok b.toNat } }).scalarRegion
        (exec (.bars b a st) s)) ∧
    (∀ fid sw, s.residentAt fid sw = some (F, w) → w.ctl.wait = .barw b.toNat →
      barWaits s fid b.toNat w.eng.stok = false →
      Goes s F (past { w with ctl := { w.ctl with wait := .none },
                              eng := { w.eng with stok := tokClear w.eng.stok b.toNat } })
        (exec (.barrierWaitResume (.scalar fid sw)) s)) ∧
    (∀ fid sw, s.residentAt fid sw = some (F, w) → w.ctl.wait = .bars b.toNat →
      barWaits s fid b.toNat w.eng.stok = false →
      Goes s F (past { w with ctl := { w.ctl with wait := .none }, meet := { w.meet with barsDone := false },
                              eng := { w.eng with stok := tokClear w.eng.stok b.toNat } }).scalarRegion
        (exec (.barrierWaitResume (.scalar fid sw)) s)))

/-- `WAITM` whose condition holds at the home takes the value read; while it does not hold the swath waits
with the operands it has read, and the look that finds it holding ends the wait. An address that is not
aligned, or in a pager's window, raises `MISALIGNED` (R67, R301). -/
def Sys2Proof.Claims.WaitmForms : Prop :=
  (∀ (d a b : BitVec 6) (wd : BitVec 1) (c st : BitVec 2) (s : State) (F : Focus) (w : Swath),
    Clear s F w (xs [a, b]) (xs [d]) →
    let good : Prop := (w.xr a).toNat % (if wd = 1 then 8 else 4) = 0 ∧ inWindow F (w.xr a).toNat = false
    (¬ good → exec (.waitm d a b wd c st) s =
      .next (s.scalarFault F { raise .misaligned with va := w.xr a })) ∧
    (good → ∀ v s1, waitmLook F s c.toNat (wd == 1) (w.xr a) (w.xr b) true = .ok (some v) s1 →
      Goes s1 F (past (w.setX d.toNat (BitVec.ofNat 64 v))) (exec (.waitm d a b wd c st) s)) ∧
    (good → ∀ s1, waitmLook F s c.toNat (wd == 1) (w.xr a) (w.xr b) true = .ok none s1 →
      Goes s1 F { w with ctl := { w.ctl with
        wait := .waitm d.toNat c.toNat (wd == 1) (w.xr a) (w.xr b) } } (exec (.waitm d a b wd c st) s))) ∧
  (∀ (fid sw d cc : Nat) (wide : Bool) (va cmp : W64) (f : Field) (s s1 : State) (F : Focus) (w : Swath) (v : Nat),
    s.field? fid = some f → f.status = .resident → s.focusAt fid sw = some (F, w) →
    w.ctl.wait = .waitm d cc wide va cmp → waitmLook F s cc wide va cmp true = .ok (some v) s1 →
    regionWar w.regs.chk w.ctl.rset [.x d] = false →
    Goes s1 F (past (({ w with ctl := { w.ctl with wait := .none } }).setX d (BitVec.ofNat 64 v)))
      (exec (.waitmReread (.scalar fid sw)) s))

/-- `YIELD` marks its stream as one that yields and changes nothing else; `EXIT` of a swath whose lane stream
is idle and whose counters are zero ends the swath, at once or from its wait; a held lane stream raises
`STREAM_STATE` (R61, R65, R68). -/
def Sys2Proof.Claims.YieldAndExit : Prop :=
  ∀ (st : BitVec 2) (s : State) (F : Focus) (w : Swath),
    (Clear s F w [] [] →
      Goes s F (past { w with ctl := { w.ctl with yielded := true } }) (exec (.yield st) s)) ∧
    (Clear s F w [] [] → F.pager = none → w.meet.hs = .held →
      exec (.exit st) s = .next (s.scalarFault F (raise .streamState))) ∧
    (Clear s F w [] [] → F.pager = none → w.meet.hs ≠ .held → exitReady w = false →
      Goes s F { w with ctl := { w.ctl with wait := .exit } } (exec (.exit st) s)) ∧
    (Clear s F w [] [] → F.pager = none → exitReady w = true →
      ∃ t, exec (.exit st) s = .next t ∧ ∀ f, s.field? F.fid = some f →
        (∃ k v, mget f.sws k = some v ∧ k ≠ F.sw ∧ v.ctl.exited = false) →
        ∃ w', t.swathAt F.fid F.sw = some w' ∧ w'.ctl.exited = true) ∧
    (∀ fid sw, s.residentAt fid sw = some (F, w) → w.ctl.wait = .exit → exitReady w = true →
      ∃ t, exec (.exitResume fid sw) s = .next t ∧ ∀ f, s.field? fid = some f →
        (∃ k v, mget f.sws k = some v ∧ k ≠ sw ∧ v.ctl.exited = false) →
        ∃ w', t.swathAt fid sw = some w' ∧ w'.ctl.exited = true ∧ w'.ctl.wait = .none)

/-- `MFSR` reads each register of R31 and R237: the format, seed, check and region words, the frame of the
trap level, the context's and the swath's word, SAVEMAX, and in `sr.flags` every flag that has been set
for the scalar stream. `MTSR` writes the writable ones: `sr.fmt` (a reserved code raises `ILLEGAL`),
`sr.flags`, `sr.seed`, `sr.chk`, and `sr.tpc` with its bits [1:0] zero inside a handler only, outside of
which it raises `PRIVILEGED`; another number raises `ILLEGAL` (R31, R69, R237). -/
def Sys2Proof.Claims.SystemRegisterMoves : Prop :=
  ∀ (d a : BitVec 6) (r : BitVec 10) (st : BitVec 2) (s : State) (F : Focus) (w : Swath),
    (Clear s F w [.sr r.toNat] (xs [d]) →
      ∃ n v, Goes { s with freeCtr := s.freeCtr + n } F (past (w.setX d.toNat v)) (exec (.mfsr d r st) s) ∧
        let fr := w.ctl.frame w.ctl.level
        (r = 0 → v = w.regs.fmt) ∧ (r = 1 → v.setWidth 7 &&& w.regs.flags = w.regs.flags) ∧
        (r = 3 → v = w.regs.seed) ∧ (r = 4 → v = w.regs.chk.setWidth 64) ∧
        (r = 5 → v.toNat = w.regs.rgnSeq.toNat * 2 ^ 56 + w.regs.rgnEntry.toNat % 2 ^ 56 / 4 * 4) ∧
        (r = 8 → v = Config.savemax.setWidth 64) ∧
        (r = 0x10 → v = BitVec.ofNat 64 (fr.cause.toNat + fr.code.toNat * 2 ^ 16 +
          (if fr.src then 2 ^ 30 else 0) + w.ctl.level * 2 ^ 28)) ∧
        (r = 0x11 → v = fr.tpc) ∧ (r = 0x12 → v = fr.tva) ∧ (r = 0x13 → v = fr.tlpc.setWidth 64) ∧
        (F.pager = none → ∀ x f, s.ctx? F.ctx = some x → s.field? F.fid = some f →
          (r = 2 → v = ctxWord F.ctx x ((mget s.launches F.launch).bind (·.vf))) ∧
          (r = 7 → v = swathWord f w))) ∧
    (Clear s F w (xs [a]) [.sr r.toNat] →
      (r = 0 → fmtOk (w.xr a) = true →
        Goes s F (past { w with regs := { w.regs with fmt := w.xr a },
                                meet := { w.meet with fmtSet := true } }) (exec (.mtsr a r st) s)) ∧
      (r = 0 → fmtOk (w.xr a) = false → exec (.mtsr a r st) s = .next (s.scalarFault F (raise .illegal))) ∧
      (r = 1 → Goes s F (past { w with regs := { w.regs with flags := (w.xr a).setWidth 7 } })
        (exec (.mtsr a r st) s)) ∧
      (r = 3 → ∃ u, Goes s F (past u) (exec (.mtsr a r st) s) ∧ u.regs = { w.regs with seed := w.xr a } ∧
        u.meet = { w.meet with seedSet := true }) ∧
      (r = 4 → Goes s F (past { w with regs := { w.regs with chk := (w.xr a).setWidth 2 } })
        (exec (.mtsr a r st) s)) ∧
      (r ∉ [0, 1, 3, 4, 0x11] → exec (.mtsr a r st) s = .next (s.scalarFault F (raise .illegal))) ∧
      (r = 0x11 → w.ctl.level = 0 → exec (.mtsr a r st) s = .next (s.scalarFault F (raise .privileged))) ∧
      (r = 0x11 → w.ctl.level = 1 → Goes s F (past { w with ctl := { w.ctl with
        f1 := { w.ctl.f1 with tpc := w.xr a &&& ~~~(3 : W64) } } }) (exec (.mtsr a r st) s)))


/-- Scalar branches, jumps and calls: `Branches` and `Calls`. -/
def Obligations.ScalarBranchesAndCalls : Prop :=
  Claims.Branches ∧ Claims.Calls

/-- MOVXW, MOVWX, SETFMT, MFSR and MTSR: `UniformMoves` and `SystemRegisterMoves`. -/
def Obligations.UniformAndSystemRegisterMoves : Prop :=
  Claims.UniformMoves ∧ Claims.SystemRegisterMoves

/-- LRUN, LGO and LWAIT: `LaneStarts` and `LwaitForms`. -/
def Obligations.HandshakeOfTheTwoStreams : Prop :=
  Claims.LaneStarts ∧ Claims.LwaitForms

/-- BARA, BARW, BARS, WAITM, YIELD and EXIT: `ScalarBarriers` and `WaitmForms` and `YieldAndExit`. -/
def Obligations.ScalarWaits : Prop :=
  Claims.ScalarBarriers ∧ Claims.WaitmForms ∧ Claims.YieldAndExit
/-! ### Scalar atomics, ordering, cache ranges, prefetch and signals -/

/-- Each atomic reads the old value at its performing level, replaces it by the operation's new one, and
returns the old one, sign-extended for min and max and zero-extended otherwise; it ends its region
(R200, R201, R202). `CAS` writes nothing where the compare is unequal. A misaligned address raises
`MISALIGNED` and a scope beyond the context's widest `SCOPE_CLAMP` (R197). -/
def Sys2Proof.Claims.AtomicForms : Prop :=
  ∀ (d a b : BitVec 6) (wd : BitVec 1) (p : BitVec 3) (st : BitVec 2),
    let form (i : Instr) (srcs : List (BitVec 6)) (signed : Bool)
        (f : Swath → Nat → Nat → Option Nat) : Prop :=
      ∀ s F w, Clear s F w (xs (a :: srcs)) (xs [d]) →
        let n := if wd = 1 then 8 else 4
        let va := (w.xr a).toNat
        (va % n = 0 → inWindow F va = false → acquireClamped s F p.toNat = false → ∀ old s1,
          loggedAtomic F 0 (scopeLevel s F.launch p.toNat) (p == 6) s va n (f w (8 * n)) = .ok old s1 →
          Goes s1 F (past (w.setX d.toNat
            (if signed = true ∧ n = 4 then (BitVec.ofNat 32 old).signExtend 64 else BitVec.ofNat 64 old))).scalarRegion
            (exec i s)) ∧
        (va % n ≠ 0 → exec i s = .next (s.scalarFault F
          { raise .misaligned with va := BitVec.ofNat 64 va })) ∧
        (va % n = 0 → inWindow F va = false → acquireClamped s F p.toNat = true →
          exec i s = .next (s.scalarFault F (raise .scopeClamp)))
    let op (o : AOp) (w : Swath) (k m : Nat) : Option Nat := some (o.new k m ((w.xr b).toNat % 2 ^ k))
    form (.atomAdd d a b wd p st) [b] false (op .add) ∧
    form (.atomXchg d a b wd p st) [b] false (op .xchg) ∧
    form (.atomMin d a b wd p st) [b] true (op .min) ∧
    form (.atomMax d a b wd p st) [b] true (op .max) ∧
    form (.atomUmin d a b wd p st) [b] false (op .umin) ∧
    form (.atomUmax d a b wd p st) [b] false (op .umax) ∧
    form (.atomAnd d a b wd p st) [b] false (op .and) ∧
    form (.atomOr d a b wd p st) [b] false (op .or) ∧
    form (.atomXor d a b wd p st) [b] false (op .xor) ∧
    (∀ e : BitVec 5, form (.atomCas d a e wd p st) [e ++ 0#1, e ++ 1#1] false (fun w k m =>
      if m = (w.xr (e ++ 0#1)).toNat % 2 ^ k then some ((w.xr (e ++ 1#1)).toNat % 2 ^ k) else none))

/-- What an atomic leaves behind and answers. At the core L1, in a line that the swath may read and write with
the bytes present: the old value answered, the new one's bytes stored there and dirty, every other byte and
every other copy as before; at the home, once the access has reached it, and from a pager core: the home's
old bytes answered, and the new ones written there. Where there is no new value nothing is written. A write
at the home of a line in HBM changes exactly the bytes written (R200, R202, R221, R301). -/
def Sys2Proof.Claims.AtomicBytes : Prop :=
  (∀ (s : State) (F : Focus) (sys : Bool) (va n : Nat) (f : Nat → Option Nat), va % 128 + n ≤ 128 → 0 < n →
    (∀ c, F.pager = none → copyAt s.l1 F.core F.ctx (va / 128) = some c →
      (byteMask (va % 128) n &&& ~~~c.valid) = 0 → c.permits (F.agent.access true true false) = true →
      let old := lineBytes c.data (va % 128) n
      (f old = none → gAtomic F .l1 sys s va n f = .ok old s) ∧
      (∀ v, f old = some v → ∃ c', gAtomic F .l1 sys s va n f = .ok old { s with l1 := putCopy s.l1 c' } ∧
        c' = { c with dirty := c.dirty ||| byteMask (va % 128) n, valid := c.valid ||| byteMask (va % 128) n,
                      data := c'.data } ∧
        ∀ b, b < 128 → lineBytes c'.data b 1 =
          if va % 128 ≤ b ∧ b < va % 128 + n then v / 256 ^ (b - va % 128) % 256
          else lineBytes c.data b 1)) ∧
    (∀ xl s1, F.pager = none →
      atHome s F.agent va (F.agent.access true true false) sys (byteMask (va % 128) n) = .ok xl s1 →
      gAtomic F .home sys s va n f = .ok (homeRd s1 xl.dpa n)
        (match f (homeRd s1 xl.dpa n) with | some v => homePut s1 xl.dpa v n | none => s1)) ∧
    (∀ lvl, F.pager.isSome → pagerCheck s va = none → pagerShut s va = false →
      (sys = true → readHold s (va / 128) (byteMask (va % 128) n) = none) →
      (f (homeRd s va n) = none → gAtomic F lvl sys s va n f = .ok (homeRd s va n) s) ∧
      (∀ v, f (homeRd s va n) = some v → writeHold s (va / 128) (byteMask (va % 128) n) = none →
        gAtomic F lvl sys s va n f = .ok (homeRd s va n) (homePut s va v n)))) ∧
  (∀ (s : State) (dpa v n : Nat), dregion dpa = .hbm → dregion (dpa / 128 * 128) = .hbm →
    dpa % 128 + n ≤ 128 → s.mem.wf = true →
    (homePut s dpa v n).pool = s.pool ∧ homeRd s dpa n = s.mem.rdN dpa n ∧
    ∀ a, (homePut s dpa v n).mem.rd a = if dpa ≤ a ∧ a < dpa + n then BitVec.ofNat 8 (v / 256 ^ (a - dpa))
      else s.mem.rd a)

/-- The new values of the atomics on 32 and 64 bits: add wraps, min and max compare signed and the `u`
forms unsigned, the logical ones are bitwise, xchg takes the operand (R200). -/
def Sys2Proof.Claims.AtomicValues : Prop :=
  ∀ (k : Nat) (x y : BitVec k), k = 32 ∨ k = 64 →
    let new (o : AOp) : Nat := o.new k x.toNat y.toNat
    new .add = (x + y).toNat ∧ new .xchg = y.toNat ∧
    new .min = (if x.toInt ≤ y.toInt then x else y).toNat ∧
    new .max = (if y.toInt ≤ x.toInt then x else y).toNat ∧
    new .umin = Nat.min x.toNat y.toNat ∧ new .umax = Nat.max x.toNat y.toNat ∧
    new .and = (x &&& y).toNat ∧ new .or = (x ||| y).toNat ∧ new .xor = (x ^^^ y).toNat

/-- `LDACQ` loads at its scope and then invalidates as an acquire; `STREL` releases and then stores; the
fences release, acquire, or both; a release-like form that the context clamps is performed at the
widest scope it has and sets `sr.flags.SCOPE`, or raises `SCOPE_CLAMP` (R197, R203, R204, R205). -/
def Sys2Proof.Claims.AcquireForms : Prop :=
  ∀ (a b d : BitVec 6) (wd : BitVec 1) (p : BitVec 3) (st : BitVec 2) (s : State) (F : Focus) (w : Swath),
    let n := if wd = 1 then 8 else 4
    let va := (w.xr a).toNat
    let flagged (c : Bool) : Swath :=
      { w with regs := { w.regs with flags := w.regs.flags ||| (if c then flSCOPE else 0) } }
    (Clear s F w (xs [a]) (xs [d]) → va % n = 0 → inWindow F va = false →
      acquireClamped s F p.toNat = false → ∀ v s1, scopedLoad F s p.toNat va n = .ok v s1 →
      Goes (partyAcquire F s1 p.toNat) F (past (w.setX d.toNat (BitVec.ofNat 64 v)))
        (exec (.ldacq d a wd p st) s)) ∧
    (Clear s F w (xs [a, b]) [] → va % n = 0 → inWindow F va = false →
      ∀ scope c s1, releaseScope s F p.toNat = some (scope, c) →
        scopedStore F s scope va (w.xr b).toNat n = .ok () s1 →
        Goes s1 F (past (flagged c)) (exec (.strel a b wd p st) s)) ∧
    (Clear s F w [] [] → ∀ scope c s1, releaseScope s F p.toNat = some (scope, c) →
      partyRelease F s scope = .ok () s1 →
      Goes (partyAcquire F s1 scope) F (past (flagged c)) (exec (.fenceFull p st) s) ∧
      Goes s1 F (past (flagged c)) (exec (.fenceRel p st) s) ∧
      Goes (partyAcquire F s scope) F (past (flagged c)) (exec (.fenceAcq p st) s)) ∧
    (Clear s F w [] [] → releaseScope s F p.toNat = none →
      exec (.fenceFull p st) s = .next (s.scalarFault F (raise .scopeClamp)) ∧
      exec (.fenceRel p st) s = .next (s.scalarFault F (raise .scopeClamp)) ∧
      exec (.fenceAcq p st) s = .next (s.scalarFault F (raise .scopeClamp)))

/-- What a release and an acquire at the home do to the copies: after the release no copy of the context
in the core's L1 or the cluster's L2 is dirty; after the acquire each of them holds no clean byte
(R204, R222). -/
def Sys2Proof.Claims.CopiesOfScope : Prop :=
  ∀ (s s1 : State) (core ctx : Nat),
    (releaseTo .home s core ctx = .ok () s1 →
      (∀ c ∈ s1.l1, inL1 core ctx c = true → c.dirty = 0) ∧
      (∀ c ∈ s1.l2, inL2 core ctx c = true → c.dirty = 0)) ∧
    (∀ c ∈ (acquireFrom .home s core ctx).l1, inL1 core ctx c = true → c.valid = c.dirty) ∧
    (∀ c ∈ (acquireFrom .home s core ctx).l2, inL2 core ctx c = true → c.valid = c.dirty)

/-- `CWB`, `CINV` and `CWBI` over a range of at most 2^40 bytes go on, having written back, made absent,
or both, the copies that overlap the range; an empty range does nothing, and a longer one raises
`RANGE` (R209). -/
def Sys2Proof.Claims.CacheRange : Prop :=
  ∀ (a b : BitVec 6) (p : BitVec 3) (st : BitVec 2) (s : State) (F : Focus) (w : Swath),
    Clear s F w (xs [a, b]) [] →
    let va := (w.xr a).toNat
    let n := (w.xr b).toNat
    let lvl := scopeLevel s F.launch p.toNat
    (n = 0 → Goes s F (past w) (exec (.cwb p a b st) s) ∧ Goes s F (past w) (exec (.cinv p a b st) s) ∧
      Goes s F (past w) (exec (.cwbi p a b st) s)) ∧
    (0 < n → n ≤ 2 ^ 40 → F.pager = none →
      (∀ s1, cacheClean lvl F va n s = .ok () s1 →
        Goes s1 F (past w) (exec (.cwb p a b st) s) ∧
        Goes (cacheDrop lvl F va n s1) F (past w) (exec (.cwbi p a b st) s)) ∧
      Goes (cacheDrop lvl F va n s) F (past w) (exec (.cinv p a b st) s)) ∧
    (2 ^ 40 < n → exec (.cwb p a b st) s = .next (s.scalarFault F (raise .range)) ∧
      exec (.cinv p a b st) s = .next (s.scalarFault F (raise .range)) ∧
      exec (.cwbi p a b st) s = .next (s.scalarFault F (raise .range)))

/-- `PFH` raises the gather counter, records its hint, and returns the status bits of the units that it
passed over; a reserved bit of its shape raises `ENGINE_ARG`. When the fills of the oldest hints are all
complete, those hints end, oldest first up to the first that still fills, and the gather counter falls by as
many (R208, R216, R277). -/
def Sys2Proof.Claims.PrefetchHints : Prop :=
  (∀ (d a b : BitVec 6) (st : BitVec 2) (s : State) (F : Focus) (w : Swath),
    Clear s F w (xs [a, b]) (xs [d]) → F.pager = none → w.eng.gathers < 255 →
    let shape := w.xr b
    let bad : Prop := shape.extractLsb' 48 16 ≠ 0 ∨ shape.extractLsb' 32 10 ≠ 0
    (¬ bad → ∃ t w' status, exec (.pfh d a b st) s = .next t ∧ t.swathOf F.party = some w' ∧
      SameBytes s t ∧ w'.eng.gathers = w.eng.gathers + 1 ∧
      w'.eng.hints = w.eng.hints ++ [{ group := s.nextUid + 1 }] ∧
      w'.regs = (past (w.setX d.toNat status)).regs ∧
      (∀ i va, (i, va) ∈ pfhGroup (w.xr a) shape →
        status.getLsbD i = decide (pfhUnit { s with freeCtr := s.freeCtr + 4 * i } F.agent va = .skip)) ∧
      (∀ i, (∀ va, (i, va) ∉ pfhGroup (w.xr a) shape) → status.getLsbD i = false)) ∧
    (bad → exec (.pfh d a b st) s = .next (s.scalarFault F (raise .engineArg)))) ∧
  (∀ (fid sw : Nat) (s : State) (f : Field) (w : Swath), s.field? fid = some f → f.status = .resident →
    mget f.sws sw = some w → ∀ ended left, w.eng.hints = ended ++ left →
    (∀ h ∈ ended, ∀ x ∈ s.fills, x.group ≠ h.group) →
    (∀ h r, left = h :: r → ∃ x ∈ s.fills, x.group = h.group) →
    exec (.pfhComplete fid sw) s = .next (s.updSwathAt fid sw (fun _ => { w with eng := { w.eng with
      gathers := w.eng.gathers - ended.length, hints := left } })))

/-- `SIGREL` at `device` scope or wider stores at the home and attaches one deferred-release record, the last of
the list, while the line and its die have room, and is a release store otherwise; clamped below `device` it is
a release store. `SIGACQ` is an acquire load: at `device` scope or wider it takes every record of its line
off the list and leaves the others in their order, at a narrower one it leaves the list as it is (R214,
R215). -/
def Sys2Proof.Claims.SignalForms : Prop :=
  ∀ (a b d : BitVec 6) (p : BitVec 3) (st : BitVec 2) (s : State) (F : Focus) (w : Swath),
    let va := (w.xr a).toNat
    let flagged (c : Bool) : Swath :=
      { w with regs := { w.regs with flags := w.regs.flags ||| (if c then flSCOPE else 0) } }
    (Clear s F w (xs [a, b]) [] → va % 8 = 0 → inWindow F va = false →
      ∀ scope c s1, releaseScope s F p.toNat = some (scope, c) →
        ((5 ≤ scope → signalStore F s scope va (w.xr b).toNat = .ok () s1 →
          Goes s1 F (past (flagged c)) (exec (.sigrel p a b st) s)) ∧
         (scope < 5 → scopedStore F s scope va (w.xr b).toNat 8 = .ok () s1 →
          Goes s1 F (past (flagged c)) (exec (.sigrel p a b st) s)))) ∧
    (Clear s F w (xs [a]) (xs [d]) → va % 8 = 0 → inWindow F va = false →
      acquireClamped s F p.toNat = false → ∀ v s1, scopedLoad F s p.toNat va 8 = .ok v s1 →
      Goes (partyAcquire F s1 p.toNat) F (past (w.setX d.toNat (BitVec.ofNat 64 v)))
        (exec (.sigacq d a p st) s)) ∧
    (∀ xl scope v, F.pager = none → 5 ≤ scope →
      translate s F.agent.cluster F.ctx va (F.agent.access true true false) = .ok xl →
      (signalRoom s (xl.dpa / 128) = true →
        ∀ s1, gStore F .home (decide (scope = 6)) s va v 8 = .ok () s1 →
        signalStore F s scope va v = .ok ()
          { s1 with deferred := s.deferred ++ [{ line := xl.dpa / 128, ctx := F.ctx, core := F.core }] }) ∧
      (signalRoom s (xl.dpa / 128) = false → signalStore F s scope va v = scopedStore F s scope va v 8)) ∧
    (∀ scope v s1, F.pager = none → scopedLoad F s scope va 8 = .ok v s1 →
      (scope < 5 → s1.deferred = s.deferred) ∧
      (5 ≤ scope → ∀ xl, translate s F.agent.cluster F.ctx va (F.agent.access true false false) = .ok xl →
        s1.deferred = if xl.zero then s.deferred
          else s.deferred.filter (fun r => decide (r.line ≠ xl.dpa / 128)))) ∧
    (partyAcquire F s p.toNat).deferred = s.deferred


/-- Scalar atomics: `AtomicForms`, `AtomicValues` and `AtomicBytes`. -/
def Obligations.ScalarAtomics : Prop :=
  Claims.AtomicForms ∧ Claims.AtomicValues ∧ Claims.AtomicBytes

/-- LDACQ, STREL, fences, SIGREL and SIGACQ: `AcquireForms` and `CopiesOfScope` and `SignalForms`. -/
def Obligations.AcquireReleaseAndDeferredRelease : Prop :=
  Claims.AcquireForms ∧ Claims.CopiesOfScope ∧ Claims.SignalForms

/-- CWB, CINV, CWBI over a range, and PFH: `CacheRange` and `PrefetchHints`. -/
def Obligations.CacheRangeAndPrefetchForms : Prop :=
  Claims.CacheRange ∧ Claims.PrefetchHints
/-! ### Traps, handlers and the ladder -/

/-- The ladder of R289 for a fault of a scalar instruction: a vectoring fault with a handler enters it
below LEVEL 2, filling the frame of the new level with the cause, the code, the faulting VA and the PC;
another cause that parks, while no replay holds it back, leaves the swath parked on it at its region entries
with LEVEL 0; the rest end
the field as FAULTED (R237, R239, R289, R291, R293). A swath that waits in a window form enters its
handler once that instruction completes (R239). -/
def Sys2Proof.Claims.FaultLadder : Prop :=
  ∀ (s : State) (F : Focus) (w : Swath) (r : Raise) (f : Field),
    s.scalarFocus = some (F, w) → F.pager = none → s.field? F.fid = some f → w.ctl.entering = false →
    (r.cause.vectoring = true → s.handler F.ctx ≠ 0 → w.ctl.level < 2 →
      ∃ w', (s.scalarFault F r).swathOf F.party = some w' ∧ w'.ctl.level = w.ctl.level + 1 ∧
        w'.eng = w.eng ∧ w'.lanes = w.lanes ∧ w'.meet = { w.meet with barsDone := w'.meet.barsDone } ∧
        (w.ctl.level = 1 → w'.ctl.f1 = w.ctl.f1) ∧
        ((∀ n, w.ctl.wait ≠ .wreg n) →
          w'.regs = { w.regs with pc := s.handler F.ctx &&& ~~~(3 : W64) } ∧ w'.ctl.wait = .none ∧
          w'.ctl.entering = false ∧ w'.meet.barsDone = false ∧
          w'.ctl.frame w'.ctl.level =
            { cause := r.cause.code, code := BitVec.ofNat 11 r.code, src := false, tpc := w.regs.pc,
              tva := r.va, tlpc := 0, bars := if w.meet.barsDone then some w.meet.barsPc else none }) ∧
        (∀ n, w.ctl.wait = .wreg n → w'.regs = w.regs ∧ w'.ctl.wait = .wreg n ∧
          w'.ctl.entering = true ∧ ∀ h, (w'.boundary h).regs.pc = h &&& ~~~(3 : W64))) ∧
    ((r.cause.vectoring = true → s.handler F.ctx = 0 ∨ 2 ≤ w.ctl.level) →
      ¬ (r.cause = .software ∧ s.handler F.ctx ≠ 0) → r.cause.parks = true →
      parkGate s f F.sw w = .go none →
      ∃ w', (s.scalarFault F r).swathOf F.party = some w' ∧
        w'.ctl.parked = some { cause := r.cause.code, va := r.va, code := r.code, src := false,
                               level := w.ctl.level, lane := r.lane, lpc := 0, spc := w.regs.pc } ∧
        w'.ctl.level = 0 ∧ w'.regs.pc = w.regs.rgnEntry ∧ w'.ctl.wait = .none) ∧
    ((r.cause.vectoring = true → s.handler F.ctx = 0 ∨ 2 ≤ w.ctl.level) → r.cause.parks = false →
      ∃ f', (s.scalarFault F r).field? F.fid = some f' ∧ f'.status = .faulted)

/-- `TRAP` of a context with a handler enters it with the cause `SOFTWARE`, its code and VA 0; at LEVEL 2
it is the terminal fault `TRAP_NEST`, and without a handler the terminal fault `SOFTWARE`. The event of
a handler entry does the same for an untouched unit, with its VA (R239). The frame's PC is the PC of the
`TRAP` (notes/assumptions/61.md). -/
def Sys2Proof.Claims.TrapForm : Prop :=
  ∀ (c : BitVec 11) (st : BitVec 2) (s : State) (F : Focus) (w : Swath),
    F.pager = none → Clear s F w [] [] → (∀ n, w.ctl.wait ≠ .wreg n) →
    let bars := if w.meet.barsDone then some w.meet.barsPc else none
    (s.handler F.ctx ≠ 0 → w.ctl.level < 2 →
      ∃ t w', exec (.trap c st) s = .next t ∧ t.swathOf F.party = some w' ∧
        w'.regs = { w.regs with pc := s.handler F.ctx &&& ~~~(3 : W64) } ∧
        w'.ctl.level = w.ctl.level + 1 ∧
        w'.ctl.frame w'.ctl.level = { cause := Cause.software.code, code := c, src := false,
                                      tpc := w.regs.pc, tva := 0, tlpc := 0, bars := bars }) ∧
    (s.handler F.ctx ≠ 0 → w.ctl.level = 2 → ∀ f, s.field? F.fid = some f →
      exec (.trap c st) s = .next (s.terminal F.fid F.sw
        (faultRec f F.sw 2 false 0 { raise .software with cause := .trapNest, code := c.toNat }))) ∧
    (s.handler F.ctx = 0 → ∀ f, s.field? F.fid = some f →
      exec (.trap c st) s = .next (s.terminal F.fid F.sw
        (faultRec f F.sw w.ctl.level false 0 { raise .software with code := c.toNat }))) ∧
    (∀ fid sw va, F.party = .scalar fid sw → s.handler F.ctx ≠ 0 → w.ctl.level < 2 →
      w.ctl.exited = false →
      ∃ t w', exec (.handlerEntry (.scalar fid sw) va) s = .next t ∧ t.swathOf F.party = some w' ∧
        w'.regs = { w.regs with pc := s.handler F.ctx &&& ~~~(3 : W64) } ∧
        w'.ctl.level = w.ctl.level + 1 ∧
        w'.ctl.frame w'.ctl.level = { cause := Cause.firstTouch.code, code := 0, src := false,
                                      tpc := w.regs.pc, tva := va, tlpc := 0, bars := bars })

/-- `TRUN` sets the trap-held handler fragment running from xa to xb, in the formats of the scalar view and
with the uniform registers written since the last meeting; `TRET` returns to the frame's PC one level
down, and pops the TRAP entry of a lane trap so that its fragment takes its mask, PC and formats back.
At LEVEL 0 both raise `PRIVILEGED`. A pending fault is taken at LEVEL 0, the one raised first before the
other: the fragment issues again (R238, R240, R241, R242). -/
def Sys2Proof.Claims.HandlerForms : Prop :=
  ∀ (a b : BitVec 6) (st : BitVec 2) (s : State) (F : Focus) (w : Swath), F.pager = none →
    (Clear s F w (xs [a, b]) [] → 0 < w.ctl.level → (w.ctl.frame w.ctl.level).src = true →
      ∀ second i e g, w.lanes.heldHandler = some (second, i, e, g) →
      (w.xr a).toNat < s.llen F.launch → (w.xr b).toNat < s.llen F.launch →
      ∃ u, Goes s F (past u) (exec (.trun a b st) s) ∧
        u.lanes.get second = some { g with
          pc := (w.xr a).setWidth 32, endPc := some ((w.xr b).setWidth 32), held := false,
          fmt := w.regs.fmt, wait := .ready } ∧
        u.lanes.stack = w.lanes.stack ∧ u.meet.wset = 0 ∧
        ∀ k, k < 16 → w.meet.wset.getLsbD k = true → mgetD u.regs.wL k 0 = mgetD w.regs.wS k 0) ∧
    (Clear s F w [] [] → 0 < w.ctl.level → (w.ctl.frame w.ctl.level).src = false →
      ∃ u, Goes s F (at_ u (w.ctl.frame w.ctl.level).tpc) (exec (.tret st) s) ∧
        u.ctl.level = w.ctl.level - 1 ∧ u.lanes = w.lanes ∧ u.regs = w.regs ∧
        (w.ctl.level = 2 → u.ctl.f1 = w.ctl.f1)) ∧
    (Clear s F w [] [] → 0 < w.ctl.level → (w.ctl.frame w.ctl.level).src = true →
      ∀ second i e g, w.lanes.heldHandler = some (second, i, e, g) →
      ∃ u, Goes s F (at_ u (w.ctl.frame w.ctl.level).tpc) (exec (.tret st) s) ∧
        u.ctl.level = w.ctl.level - 1 ∧ u.lanes.stack = w.lanes.stack.eraseIdx i ∧
        u.lanes.get second = some { g with mask := e.mask, pc := e.jpc, fmt := e.jfmt, held := false,
                                           endPc := e.endPc, wait := .ready }) ∧
    (w.ctl.level = 0 → (Clear s F w (xs [a, b]) [] →
        exec (.trun a b st) s = .next (s.scalarFault F (raise .privileged))) ∧
      (Clear s F w [] [] → exec (.tret st) s = .next (s.scalarFault F (raise .privileged)))) ∧
    (∀ fid sw arm g, s.swathAt fid sw = some w → w.ctl.level = 0 → w.lanes.get arm = some g →
      ((∀ o, w.lanes.get (!arm) = some o → o.pendAt = 0 ∨ g.pendAt < o.pendAt) →
        ∃ t w', exec (.pendingFaultTaken fid sw arm) s = .next t ∧ t.swathAt fid sw = some w' ∧
          w'.lanes.get arm = some { g with pend := false }) ∧
      (∀ o, w.lanes.get (!arm) = some o → o.pendAt ≠ 0 → o.pendAt ≤ g.pendAt →
        exec (.pendingFaultTaken fid sw arm) s = .next s))

/-- `PARK` that no replay holds back gives the handler up: LEVEL falls to 0, the swath stands at its region
entry and is parked on the fault of frame 1; `PARK.term` ends the field as FAULTED; both raise `PRIVILEGED` at LEVEL 0
(R238, R243). -/
def Sys2Proof.Claims.ParkForm : Prop :=
  ∀ (st : BitVec 2) (s : State) (F : Focus) (w : Swath), F.pager = none → Clear s F w [] [] →
    (0 < w.ctl.level →
      w.ctl.f1.cause = Cause.firstTouch.code ∨ w.ctl.f1.cause = Cause.software.code →
      ((∀ f, s.field? F.fid = some f → parkGate s f F.sw w.giveUp = .go none) → ∃ t w' p, exec (.park st) s = .next t ∧ t.swathOf F.party = some w' ∧ w'.ctl.level = 0 ∧
        w'.ctl.parked = some p ∧ p.cause = w.ctl.f1.cause ∧ p.va = w.ctl.f1.tva ∧
        p.code = w.ctl.f1.code.toNat ∧ p.src = w.ctl.f1.src ∧ p.spc = w.ctl.f1.tpc ∧
        w'.regs.pc = w.regs.rgnEntry ∧ ∀ n, w'.xr n = w.xr n) ∧
      (∃ t f', exec (.parkTerm st) s = .next t ∧ t.field? F.fid = some f' ∧ f'.status = .faulted)) ∧
    (w.ctl.level = 0 → exec (.park st) s = .next (s.scalarFault F (raise .privileged)) ∧
      exec (.parkTerm st) s = .next (s.scalarFault F (raise .privileged)))

/-- `MAPFT` returns the status of the binding, inside a handler only: 1 for a unit that has a frame, 4 with
the frame budget used up, 3 with no free frame in the reserve of the home die, 0 with a frame of it bound and
zeroed; `TLBI` of a context that the issuing
one may invalidate for leaves no translation of the range in any TLB and no line of it in any cache;
`RGN` records its own PC as the region entry at LEVEL 0; `BRKPT` asks its field to stop with its code in
a context with the DEBUG capability, and is a no-operation in another (R238, R244, R245, R246, R247). -/
def Sys2Proof.Claims.SystemForms : Prop :=
  ∀ (d a b : BitVec 6) (c : BitVec 11) (st : BitVec 2) (s : State) (F : Focus) (w : Swath),
    F.pager = none →
    (Clear s F w (xs [a]) (xs [d]) → 0 < w.ctl.level → ∀ k s1,
      bindAt s F.agent.cluster F.ctx (w.xr a).toNat = .ok (k, s1) →
      Goes s1 F (past (w.setX d.toNat (BitVec.ofNat 64 k))) (exec (.mapft d a st) s)) ∧
    (Clear s F w (xs [a]) (xs [d]) → w.ctl.level = 0 →
      exec (.mapft d a st) s = .next (s.scalarFault F (raise .privileged))) ∧
    (Clear s F w (xs [a]) (xs [d]) → 0 < w.ctl.level → ∀ e,
      bindAt s F.agent.cluster F.ctx (w.xr a).toNat = .error e → e.gate = none →
      exec (.mapft d a st) s = .next (s.scalarFault F (e.raise (w.xr a).toNat))) ∧
    -- what a binding finds: a unit with a frame, the budget used up, an empty reserve, or a frame, zeroed
    (∀ ctx unit, let held := s.localUnit unit || (cacheFrame s unit).isSome
      let free (f : Nat) : Prop := f / framesPerDie = homeDie (unit * 65536) ∧
        (s.frame f).role = .reserve ∧ (s.frame f).st = .free ∧ frameFenced s f = false
      (held = true → s.bindUnit ctx unit = (1, s)) ∧
      (held = false → s.frameBudget ctx ≤ heldFrames s ctx → s.bindUnit ctx unit = (4, s)) ∧
      (held = false → heldFrames s ctx < s.frameBudget ctx → (∀ p ∈ s.frames, s.frame p.1 = p.2) →
        ((∀ p ∈ s.frames, ¬ free p.1) → s.bindUnit ctx unit = (3, s)) ∧
        (s.mem.wf = true → (∃ p ∈ s.frames, free p.1) →
          ∃ t f, s.bindUnit ctx unit = (0, t) ∧ free f ∧ (t.frame f).role = .local_ ∧
            (t.frame f).unit = unit ∧ (t.frame f).charge = ctx ∧
            (∀ i < 65536, t.mem.rd (frameDpa f + i) = 0) ∧
            ∀ a, a < frameDpa f ∨ frameDpa f + 65536 ≤ a → t.mem.rd a = s.mem.rd a))) ∧
    (Clear s F w (xs [d, a, b]) [] →
      let id := (w.xr d).toNat
      let n := (w.xr b).toNat
      (mayTlbi s F.ctx id = true → 0 < n → n ≤ 2 ^ 56 → ∀ s1,
        invalidate s id (w.xr a).toNat n = .ok () s1 →
        Goes (s1.retryIn id) F (past w) (exec (.tlbiR d a b st) s) ∧
        (∀ e ∈ s1.tlb, tlbIn id (w.xr a).toNat n e = false) ∧
        (∀ l ∈ s1.l1 ++ s1.l2, lineIn id (w.xr a).toNat n l = false)) ∧
      (mayTlbi s F.ctx id = true → n = 0 → Goes s F (past w) (exec (.tlbiR d a b st) s)) ∧
      (mayTlbi s F.ctx id = false →
        exec (.tlbiR d a b st) s = .next (s.scalarFault F (raise .denied)))) ∧
    (Clear s F w (xs [d]) [] → mayTlbi s F.ctx (w.xr d).toNat = true → ∀ s1,
      invalidate s (w.xr d).toNat 0 (2 ^ 64) = .ok () s1 →
      Goes ((s1.dropWins [(w.xr d).toNat]).retryIn (w.xr d).toNat) F (past w) (exec (.tlbiCtx d st) s) ∧
      (∀ e ∈ s1.tlb, e.va < 2 ^ 48 → e.ctx ≠ (w.xr d).toNat) ∧
      (∀ x, (s1.dropWins [(w.xr d).toNat]).ctx? (w.xr d).toNat = some x → ∀ v ∈ x.wins, v.stale = true)) ∧
    (Clear s F w [] [] → Goes s F (past w.scalarRegion) (exec (.rgn st) s)) ∧
    (Clear s F w [] [] → ∀ x, s.ctx? F.ctx = some x →
      (x.policy.debug = true →
        Goes (s.updField F.fid (fun f => f.breakAt F.sw c.toNat)) F (past w) (exec (.brkpt c st) s)) ∧
      (x.policy.debug = false → Goes s F (past w) (exec (.brkpt c st) s)))

/-- A waiting ring record that can be written is written when it is tried again, and waits no more
(R288, R393). -/
def Sys2Proof.Claims.WaitingRecords : Prop :=
  ∀ (s s' : State) (c : Nat) (x : RingWait) (seq : W32),
    s.ringWaits = [x] → x.ctx = c → x.service = false →
    ringTry s x.die c x.retry x.words = .done s' seq →
    ∃ t, exec (.ringWriteRetry c) s = .next t ∧ t.ringWaits = []


/-- What a scalar fault does, and what TRAP does: `FaultLadder` and `TrapForm`. -/
def Obligations.ScalarFaultsFollowTheLadder : Prop :=
  Claims.FaultLadder ∧ Claims.TrapForm

/-- TRUN, TRET and PARK: `HandlerForms` and `ParkForm`. -/
def Obligations.HandlersRunReturnAndPark : Prop :=
  Claims.HandlerForms ∧ Claims.ParkForm

/-- MAPFT, TLBI, RGN and BRKPT, and ring records that wait: `SystemForms` and `WaitingRecords`. -/
def Obligations.SystemFormsAndWaitingRecords : Prop :=
  Claims.SystemForms ∧ Claims.WaitingRecords
/-! ### Matrix operations -/

/-- Each matrix operation that passes its checks enters the queue of its swath behind the others: its kind,
its tile or its source offset, its descriptor and the formats as they stand, batch not closed; the
matrix counter rises by 1, and the region ends. With the counter at 255 it is not ready, and nothing
happens. A format or tile that is not accepted raises `ILLEGAL`, an offset that is not aligned
`MISALIGNED`, one whose bytes end beyond the scratchpad `RANGE`, in that order, and then a descriptor that
is refused its own cause; nothing is queued (R141 to R146, R149, R150, R154, R155). -/
def Sys2Proof.Claims.MatrixIssue : Prop :=
  ∀ (t : BitVec 4) (a : BitVec 6) (st : BitVec 2) (s : State) (F : Focus) (w : Swath),
    F.pager = none →
    let queued (i : Instr) (kind tile src : Nat) (d : List W64) : Prop :=
      (w.eng.matrix < 255 → Goes s F (past { w with eng := { w.eng with
        mq := w.eng.mq ++ [{ kind := kind, tile := tile, prog := 0, batch := w.eng.nb, closed := false,
                             fmt := w.regs.fmt, gen := w.eng.mseed.getD 0, src := src, desc := d,
                             flags := 0 }],
        matrix := w.eng.matrix + 1, mseed := none } }).scalarRegion (exec i s)) ∧
      (255 ≤ w.eng.matrix → exec i s = .next s)
    let trapsAs (i : Instr) (r : Raise) : Prop :=
      w.eng.matrix < 255 → exec i s = .next (s.scalarFault F r)
    let traps (i : Instr) (c : Cause) : Prop := trapsAs i (raise c)
    let g := (s.matrixSide F.fid).2
    let tiles := (s.matrixSide F.fid).1
    let off := (w.xr a).toNat
    let fmt := w.regs.fmt
    let d := descAt s F.fid off
    -- a form on a descriptor: what it accepts, what it queues, and what refuses the descriptor
    let onDesc (i : Instr) (ok : Prop) (kind : Nat) (refused : Option Raise) : Prop :=
      (¬ ok → traps i .illegal) ∧
      (ok → off % 32 ≠ 0 → traps i .misaligned) ∧
      (ok → off % 32 = 0 → g < off + 32 → traps i .range) ∧
      (ok → off % 32 = 0 → off + 32 ≤ g →
        (∀ r, refused = some r → trapsAs i r) ∧ (refused = none → queued i kind t.toNat 0 d))
    (Clear s F w [] [] →
      queued (.mflipFp st) 3 0 0 [] ∧ queued (.mflipTern st) 4 0 0 [] ∧
      (t.toNat < tiles → queued (.mzero t st) 7 t.toNat 0 []) ∧
      (tiles ≤ t.toNat → traps (.mzero t st) .illegal)) ∧
    (Clear s F w (xs [a]) [] →
      (off % 128 ≠ 0 → traps (.mloadTern a st) .misaligned) ∧
      (off % 128 = 0 → g < off + 4096 → traps (.mloadTern a st) .range) ∧
      (off % 128 = 0 → off + 4096 ≤ g → queued (.mloadTern a st) 2 0 off []) ∧
      (let wf := fmtWF fmt
       (wf = 0 ∨ 8 ≤ wf → traps (.mloadFp a st) .illegal) ∧
       (1 ≤ wf → wf < 8 → off % 128 ≠ 0 → traps (.mloadFp a st) .misaligned) ∧
       (1 ≤ wf → wf < 8 → off % 128 = 0 → g < off + planeBytes wf → traps (.mloadFp a st) .range) ∧
       (1 ≤ wf → wf < 8 → off % 128 = 0 → off + planeBytes wf ≤ g →
         queued (.mloadFp a st) 1 0 off [])) ∧
      onDesc (.mmul t a st) (mulFmtOk false fmt = true ∧ t.toNat < tiles) 5
        (opTrap d false fmt w.eng.fpFormats.1 g) ∧
      onDesc (.mtern t a st) (mulFmtOk true fmt = true ∧ t.toNat + 1 < tiles ∧ t.toNat % 2 = 0) 6
        (opTrap d true fmt w.eng.fpFormats.1 g) ∧
      onDesc (.mdrain t a st) (drainFmtOk fmt = true ∧ t.toNat < tiles) 8 (drainTrap d fmt g))

/-- `MFENCE` closes the open batch and returns its number; `MWAIT` goes on once that batch and every
earlier one are complete, and waits for it otherwise; a number of more than 16 bits, or of a batch that is
not among the last 32,768 closed, raises `ENGINE_ARG`. `MGROW` answers the status of its request, and the
field holds more only at status 0 (R157, R158, R159). -/
def Sys2Proof.Claims.BatchesAndGrowth : Prop :=
  ∀ (d a b : BitVec 6) (st : BitVec 2) (s : State) (F : Focus) (w : Swath), F.pager = none →
    (Clear s F w [] (xs [d]) → Goes s F (past (({ w with eng := { w.eng with
      nb := w.eng.nb + 1,
      mq := w.eng.mq.map (fun (o : MatOp) => if o.closed then o else
        { o with closed := true, batch := w.eng.nb }) } }).setX d.toNat
          (w.eng.nb.setWidth 64))).scalarRegion (exec (.mfence d st) s)) ∧
    (Clear s F w (xs [a]) [] → (w.xr a).toNat < 65536 →
      batchAge w ((w.xr a).setWidth 16) < 32768 →
      (batchDone w ((w.xr a).setWidth 16) = true → Goes s F (past w) (exec (.mwait a st) s)) ∧
      (batchDone w ((w.xr a).setWidth 16) = false →
        Goes s F { w with ctl := { w.ctl with wait := .mwait ((w.xr a).setWidth 16) } }
          (exec (.mwait a st) s))) ∧
    (Clear s F w (xs [a]) [] → 65536 ≤ (w.xr a).toNat ∨ 32768 ≤ batchAge w ((w.xr a).setWidth 16) →
      exec (.mwait a st) s = .next (s.scalarFault F (raise .engineArg))) ∧
    (∀ fid sw n, s.residentAt fid sw = some (F, w) → w.ctl.wait = .mwait n → batchDone w n = true →
      Goes s F (past { w with ctl := { w.ctl with wait := .none } }) (exec (.mwaitResume fid sw) s)) ∧
    (Clear s F w (xs [a, b]) (xs [d]) → ∀ f l, s.field? F.fid = some f →
      mget s.launches f.launch = some l →
      let r := growField s f (l.lrec.mw != 0) (w.xr a).toNat (w.xr b).toNat
      Goes (s.setField F.fid r.2) F (past (w.setX d.toNat (BitVec.ofNat 64 r.1))).scalarRegion
        (exec (.mgrow d a b st) s) ∧
      (r.1 ≠ 0 → r.2 = f) ∧
      (r.1 = 0 → r.2.tiles = f.tiles + (w.xr a).toNat ∧ r.2.scrKib = f.scrKib + (w.xr b).toNat))

/-- What the matrix engine does to the oldest operation of a swath: a K-step is done and counted, and
memory, the scratchpad and every other operation stay; a multiplication with all its steps done, a
zeroing, a flip, a load of planes and a drain complete, with the tile zeroed, the planes exchanged, the
standby planes named; the completed one leaves the queue, its flags enter `sr.flags`, and the counter
falls. A pause leaves a multiplication between steps as it is and sends another operation back to its
start (R141, R142, R149, R152, R154, R156, R160). -/
def Obligations.MatrixOperationsRunAndComplete : Prop :=
  ∀ (s : State) (fid sw : Nat) (f : Field) (w : Swath) (o : MatOp) (r : List MatOp),
    s.field? fid = some f → f.status = .resident → mget f.sws sw = some w → w.eng.mq = o :: r →
    let after (i : Instr) (P : Field → Swath → Prop) : Prop :=
      ∃ t f' w', exec i s = .next t ∧ t.field? fid = some f' ∧ mget f'.sws sw = some w' ∧
        SameBytes s t ∧ (∀ g, g ≠ fid → t.field? g = s.field? g) ∧ P f' w'
    let retired (w' : Swath) : Prop :=
      w'.eng.mq = r ∧ w'.eng.matrix = w.eng.matrix - 1 ∧ w'.lanes = w.lanes ∧
      w'.regs.x = w.regs.x ∧ w'.eng.chains = w.eng.chains
    (o.isMul = true → o.prog < o.steps → after (.matrixKstepComplete fid sw) (fun f' w' =>
      f'.spad = f.spad ∧ w'.eng.matrix = w.eng.matrix ∧ w'.regs = w.regs ∧
      ∃ o', w'.eng.mq = o' :: r ∧ o'.prog = o.prog + 1 ∧ o'.desc = o.desc ∧ o'.tile = o.tile ∧
        o'.flags &&& o.flags = o.flags)) ∧
    (o.isMul = true → o.steps ≤ o.prog → after (.matrixOpComplete fid sw) (fun f' w' =>
      retired w' ∧ w'.regs.flags = w.regs.flags ||| o.flags ∧ f'.acc = f.acc ∧ f'.spad = f.spad)) ∧
    (o.kind = 7 → after (.matrixOpComplete fid sw) (fun f' w' => retired w' ∧
      (∀ k v, (k, v) ∈ f'.acc → k / 4096 ≠ o.tile) ∧
      (∀ k v, k / 4096 ≠ o.tile → ((k, v) ∈ f'.acc ↔ (k, v) ∈ f.acc)))) ∧
    (o.kind = 3 → after (.matrixOpComplete fid sw) (fun f' w' =>
      retired w' ∧ f'.acc = f.acc ∧ w'.eng.fpA = w.eng.fpS ∧ w'.eng.fpS = w.eng.fpA)) ∧
    (o.kind = 4 → after (.matrixOpComplete fid sw) (fun f' w' =>
      retired w' ∧ f'.acc = f.acc ∧ w'.eng.tnA = w.eng.tnS ∧ w'.eng.tnS = w.eng.tnA)) ∧
    (o.kind = 1 → after (.matrixOpComplete fid sw) (fun f' w' =>
      retired w' ∧ f'.spad = f.spad ∧ w'.eng.fpA = w.eng.fpA ∧ w'.eng.fpS.off = o.src ∧
      w'.eng.fpS.fmt = BitVec.ofNat 4 (fmtWF o.fmt))) ∧
    (o.kind = 2 → after (.matrixOpComplete fid sw) (fun f' w' =>
      retired w' ∧ f'.spad = f.spad ∧ w'.eng.tnA = w.eng.tnA ∧ w'.eng.tnS.off = o.src)) ∧
    (o.kind = 8 → after (.matrixOpComplete fid sw) (fun f' w' =>
      retired w' ∧ f'.acc = f.acc ∧
      f'.spad = (drainRun f (w.startOp o).eng.mgen o s.freeCtr).1)) ∧
    after (.matrixOpPause fid sw) (fun f' w' => f'.acc = f.acc ∧ f'.spad = f.spad ∧
      (o.isMul = true → o.prog < o.steps → w' = w) ∧
      (o.isMul = true → o.steps ≤ o.prog → retired w') ∧
      (o.isMul = false → w'.eng.mq = { o with prog := 0 } :: r))

/-! ### Copy chains, phase barriers and windows -/

namespace Sys2Proof.Claims

/-- A chain stands at an entry `d` of a kind that its engine step meets, and `c` is the chain with that
entry read: when it reached the entry, from the scratchpad. It is not in a `CCOPY`, the entry lies in the
scratchpad and is in order, and nothing that the chain has reached was revoked (R162). -/
def AtEntry (s : State) (fid sw uid kind : Nat) (f : Field) (w : Swath) (c : Chain)
    (d : List W64) : Prop :=
  ∃ c0, s.chainAt fid sw uid = some (f, w, c0) ∧ c0.ccopy = none ∧ c0.cur + 64 ≤ f.scrKib * 1024 ∧
  c = c0.reach f ∧ c.entry = some d ∧
  (c0.entry = none →
    d = (List.range 8).map (fun i => BitVec.ofNat 64 (f.spad.rdN (c0.cur + 8 * i) 8))) ∧
  entryOk d = true ∧ fld (d.getD 0 0) 3 0 = kind ∧ c.revoked = false

end Sys2Proof.Claims

/-- `CPGO` starts a chain at its first entry and raises the copy counter; `WAITC` goes on once its
counter is at most n and waits otherwise; the phase-barrier forms write, arrive on and read the object in
a scratchpad, `PBWAIT` returning the phase once it differs from the one awaited; the waits end when they
are looked at again and their condition holds (R162, R170, R171, R172). -/
def Sys2Proof.Claims.ChainStarts : Prop :=
  ∀ (d a b : BitVec 6) (c st : BitVec 2) (s : State) (F : Focus) (w : Swath), F.pager = none →
    let off := (w.xr a).toNat
    (Clear s F w (xs [a]) [] → w.eng.copies < 255 → off % 64 = 0 →
      off + 1 ≤ (s.matrixSide F.fid).2 →
      Goes { s with nextUid := s.nextUid + 1 } F (past { w with eng := { w.eng with
        chains := w.eng.chains ++ [newChain s.nextUid off], copies := w.eng.copies + 1 } }).scalarRegion
        (exec (.cpgo a st) s)) ∧
    (Clear s F w (xs [a]) [] →
      (w.eng.counter c.toNat ≤ (w.xr a).toNat → Goes s F (past w) (exec (.waitc c a st) s)) ∧
      (255 ≤ (w.xr a).toNat → Goes s F (past w) (exec (.waitc c a st) s)) ∧
      ((w.xr a).toNat < w.eng.counter c.toNat → (w.xr a).toNat < 255 →
        Goes s F { w with ctl := { w.ctl with wait := .waitc c.toNat (w.xr a).toNat } }
          (exec (.waitc c a st) s))) ∧
    (∀ fid sw cls n, s.residentAt fid sw = some (F, w) → w.ctl.wait = .waitc cls n →
      w.eng.counter cls ≤ n →
      Goes s F (past { w with ctl := { w.ctl with wait := .none } }) (exec (.waitcResume fid sw) s)) ∧
    (Clear s F w (xs [a, b]) [] → ∀ k o, pbPlace s F.fid off = .ok (k, o) →
      0 < (w.xr b).toNat → (w.xr b).toNat < 65536 →
      Goes (s.scratchWr k o ((w.xr b).toNat + (w.xr b).toNat * 2 ^ 16) 8) F (past w).scalarRegion
        (exec (.pbinit a b st) s)) ∧
    (Clear s F w (xs [a, b]) (xs [d]) → ∀ k o v' s1, pbPlace s F.fid off = .ok (k, o) →
      pbArrive (scratchRd s k o 8) (w.xr b).toNat = some v' →
      pbRelease s F.fid F.launch F.core F.ctx k = .ok () s1 →
      Goes (s1.scratchWr k o v' 8) F
        (past (w.setX d.toNat (BitVec.ofNat 64 (pbPHASE (scratchRd s k o 8))))).scalarRegion
        (exec (.pbarv d a b st) s)) ∧
    (Clear s F w (xs [a, b]) (xs [d]) →
      (∀ v s1, pbLook s F (w.xr a) ((w.xr b).getLsbD 0) = .ok (some (v, s1)) →
        Goes s1 F (past (w.setX d.toNat (BitVec.ofNat 64 v))) (exec (.pbwait d a b st) s)) ∧
      (pbLook s F (w.xr a) ((w.xr b).getLsbD 0) = .ok none →
        Goes s F { w with ctl := { w.ctl with wait := .pbwait d.toNat (w.xr a) ((w.xr b).getLsbD 0) } }
          (exec (.pbwait d a b st) s))) ∧
    (∀ fid sw dn o ph v s1, s.residentAt fid sw = some (F, w) → w.ctl.wait = .pbwait dn o ph →
      pbLook s F o ph = .ok (some (v, s1)) → regionWar w.regs.chk w.ctl.rset [.x dn] = false →
      Goes s1 F (past (({ w with ctl := { w.ctl with wait := .none } }).setX dn (BitVec.ofNat 64 v)))
        (exec (.pbwaitResume fid sw) s))

/-- A phase-barrier arrival: it lowers PENDING, and the one that takes it to 0 restores EXPECTED and flips
PHASE; a count of 0 or above PENDING, or a malformed object, is none (R171). -/
def Sys2Proof.Claims.PhaseBarrierArrivals : Prop :=
  ∀ (e p : Nat) (ph : Bool) (c : Nat), 0 < p → p ≤ e → e < 65536 →
    let v := e + p * 2 ^ 16 + (if ph then 2 ^ 32 else 0)
    (0 < c → c < p → pbArrive v c = some (e + (p - c) * 2 ^ 16 + (if ph then 2 ^ 32 else 0))) ∧
    (c = p → pbArrive v c = some (e + e * 2 ^ 16 + (if ph then 0 else 2 ^ 32))) ∧
    (c = 0 ∨ p < c → pbArrive v c = none)

/-- The steps of a chain, each of which keeps the entry as it was read when the chain reached it: a COPY or
GATHER row is copied and the chain stands at its next row or entry; a LOOP goes back to its body until
it has run COUNT times; a SKIPIF whose condition holds passes over its entries; an ARRIVE arrives on its
object; an END finishes the chain; a finished chain that is the oldest counts as complete, and the copy
counter falls (R141, R162 to R167). -/
def Sys2Proof.Claims.ChainSteps : Prop :=
  ∀ (s : State) (fid sw uid : Nat) (f : Field) (w : Swath) (c : Chain) (d : List W64),
    let A := engineAgent f w
    let s0 := s.setChain fid sw c
    let next (i : Instr) (s1 : State) (c' : Chain) : Prop := exec i s = .next (s1.setChain fid sw c')
    (AtEntry s fid sw uid 1 f w c d → ∀ c' s1, copyStep fid f A c d s0 = .ok c' s1 →
      let h := d.getD 0 0
      let stride (v : W64) (hi lo : Nat) : W64 := (BitVec.ofNat 32 (fld v hi lo)).signExtend 64
      let place (base : Nat) (v : W64) : Nat := (BitVec.ofNat 64 base +
        BitVec.ofNat 64 c.i1 * stride v 31 0 + BitVec.ofNat 64 c.i2 * stride v 63 32).toNat
      next (.chainCopy fid sw uid) s1 c' ∧ (c'.cur = c.cur ∧ c'.entry = some d ∨ c'.cur = c.cur + 64) ∧
      engCopy A fid (h.getLsbD 5) (h.getLsbD 6) (place (c.plus (d.getD 1 0) (·.sinc)) (d.getD 4 0))
        (place (c.plus (d.getD 2 0) (·.dinc)) (d.getD 5 0)) 0 (fld (d.getD 3 0) 31 0) s0 = .ok () s1) ∧
    (AtEntry s fid sw uid 2 f w c d → ∀ c' s1, gatherStep fid f A c d s0 = .ok c' s1 →
      let a := (d.getD 1 0 + BitVec.ofNat 64 (c.idx.getD c.i1 0) * d.getD 5 0).toNat
      let dst := c.plus (d.getD 2 0) (·.dinc) + c.i1 * fld (d.getD 6 0) 31 0
      let rowb := fld (d.getD 4 0) 63 32
      next (.chainGather fid sw uid) s1 c' ∧
      (c'.cur = c.cur ∧ c'.i1 = c.i1 + 1 ∧ c'.entry = some d ∧ c'.idx = c.idx ∨
        c'.cur = c.cur + 64 ∧ c'.i1 = 0) ∧
      (rowPages s0 A a rowb = ([], none) → ∃ s2, engCopy A fid false true a dst 0 rowb s0 = .ok () s2 ∧
        (c'.cur = c.cur → s1 = s2)) ∧
      (∀ e es r, rowPages s0 A a rowb = (e :: es, r) → c'.cur = c.cur →
        c'.absent = c.absent ++ [c.i1] ∧ s1 = s0.askFills (e :: es) A.ctx 3)) ∧
    (AtEntry s fid sw uid 3 f w c d → ∀ c' s1, loopStep fid f A c d s0 = .ok c' s1 →
      next (.chainLoop fid sw uid) s0 c' ∧
      (let j := ((c.loops.find? (fun l => l.off == c.cur)).map (·.j)).getD 0
       c'.cur = if j + 1 < fld (d.getD 1 0) 31 16 then c.cur - 64 * fld (d.getD 1 0) 5 0
                else c.cur + 64)) ∧
    (AtEntry s fid sw uid 4 f w c d → ∀ k o, fld (d.getD 1 0) 31 0 % 4 = 0 →
      fld (d.getD 1 0) 45 40 ≠ 0 → skipsLoop f c.cur (fld (d.getD 1 0) 45 40) = false →
      scratchAt s0 fid (fld (d.getD 1 0) 31 0) 4 false = some (k, o) →
      ∃ s1 c', next (.chainSkipif fid sw uid) s1 c' ∧
        c'.cur = if waitmHolds (fld (d.getD 1 0) 33 32) (scratchRd s0 k o 4) (fld (d.getD 2 0) 31 0)
          then c.cur + 64 * (fld (d.getD 1 0) 45 40 + 1) else c.cur + 64) ∧
    (AtEntry s fid sw uid 5 f w c d → ∀ k o v s1, fld (d.getD 1 0) 31 0 % 8 = 0 →
      fld (d.getD 1 0) 47 32 ≠ 0 → scratchAt s0 fid (fld (d.getD 1 0) 31 0) 8 false = some (k, o) →
      pbArrive (scratchRd s0 k o 8) (fld (d.getD 1 0) 47 32) = some v →
      pbRelease s0 fid f.launch A.core A.ctx k = .ok () s1 →
      ∃ c', next (.chainArrive fid sw uid) (s1.scratchWr k o v 8) c' ∧ c'.cur = c.cur + 64) ∧
    (AtEntry s fid sw uid 0 f w c d →
      next (.chainEnd fid sw uid) s0 { c with done := true }) ∧
    (∀ r, s.field? fid = some f → f.status = .resident → s.swathAt fid sw = some w →
      w.eng.chains = c :: r → c.done = true → (∀ x ∈ r, x.uid ≠ c.uid) →
      ∃ w', exec (.chainComplete fid sw) s = .next (s.updSwathAt fid sw (fun _ => w')) ∧
        w'.eng.chains = r ∧ w'.eng.copies = w.eng.copies - 1 ∧ w'.regs = w.regs)

/-- What the copy of a COPY run or of a GATHER row leaves: within the scratchpad the destination reads as the
source did and every other byte as before; out of a line that the core L1 holds, the destination reads as
that line; into a line that it holds with permission to write, the line's bytes become the source's
and dirty (R142, R165, R166, R221). -/
def Sys2Proof.Claims.CopiedBytes : Prop :=
  ∀ (s : State) (A : Agent) (fid src dst n : Nat) (f : Field),
    s.field? fid = some f → f.spad.wf = true → src + n ≤ 2 ^ 64 → dst + n ≤ 2 ^ 64 →
    let pad (a : Nat) : Prop := a + n ≤ f.scrKib * 1024
    let filled (r : ERes Unit) (v : Nat → BitVec 8) : Prop :=
      ∃ s1 f1, r = .ok () s1 ∧ s1.field? fid = some f1 ∧ f1 = { f with spad := f1.spad } ∧
        (∀ g, g ≠ fid → s1.field? g = s.field? g) ∧ s1 = { s with fields := s1.fields } ∧
        ∀ b, f1.spad.rd b = if dst ≤ b ∧ b < dst + n then v (b - dst) else f.spad.rd b
    (pad src → pad dst → src + n ≤ dst ∨ dst + n ≤ src →
      filled (engCopy A fid true true src dst 0 n s) (fun i => f.spad.rd (src + i))) ∧
    (pad dst → ∀ c, src % 128 + n ≤ 128 → copyAt s.l1 A.core A.ctx (src / 128) = some c →
      byteMask (src % 128) n &&& ~~~c.valid = 0 → c.permits (A.access true false false) = true →
      filled (engCopy A fid false true src dst 0 n s)
        (fun i => BitVec.ofNat 8 (lineBytes c.data (src % 128 + i) 1))) ∧
    (pad src → ∀ c, dst % 128 + n ≤ 128 → copyAt s.l1 A.core A.ctx (dst / 128) = some c →
      c.permits (A.access false true false) = true → 0 < n →
      ∃ s1 c', engCopy A fid true false src dst 0 n s = .ok () s1 ∧ s1.mem = s.mem ∧ s1.pool = s.pool ∧
        s1.fields = s.fields ∧ copyAt s1.l1 A.core A.ctx (dst / 128) = some c' ∧
        c' = { c with valid := c'.valid, dirty := c.dirty ||| byteMask (dst % 128) n, data := c'.data } ∧
        c'.valid = c.valid ||| byteMask (dst % 128) n ∧
        ∀ b, b < 128 → lineBytes c'.data b 1 =
          if dst % 128 ≤ b ∧ b < dst % 128 + n then (f.spad.rd (src + (b - dst % 128))).toNat
          else lineBytes c.data b 1)

/-- Arrivals at named barriers and at phase-barrier objects: `BarrierArrivals` and
`PhaseBarrierArrivals`. -/
def Obligations.ArrivalsCompletePhases : Prop :=
  Claims.BarrierArrivals ∧ Claims.PhaseBarrierArrivals

/-- Matrix forms are queued; batches and growth: `MatrixIssue` and `BatchesAndGrowth`. -/
def Obligations.MatrixOperationsEnterTheirQueue : Prop :=
  Claims.MatrixIssue ∧ Claims.BatchesAndGrowth

/-- Copy chains and phase barriers: `ChainStarts`, `ChainSteps` and `CopiedBytes`. -/
def Obligations.ChainsFollowTheirEntries : Prop :=
  Claims.ChainStarts ∧ Claims.ChainSteps ∧ Claims.CopiedBytes
/-! ### Lane forms that write registers -/

namespace Sys2Proof.Claims

/-- The fragment and its swath as a lane instruction finds them: a region entry first, if it marks one
(R73, R290). -/
def enteredFrag (F : Focus) (g : Frag) (h : LHdr) : Frag := if h.mark then g.region F.level else g
def entered (F : Focus) (w : Swath) (g : Frag) (b : Bool) (h : LHdr) : Swath :=
  if h.mark then { w with lanes := w.lanes.put b (enteredFrag F g h) } else w

/-- The active set (R70). -/
def active (F : Focus) (w : Swath) (g : Frag) (b : Bool) (h : LHdr) : LaneMask :=
  activeSet (entered F w g b h) (enteredFrag F g h) h

/-- The fragment that issues in `s` is `g` of `w`, and none of the checks that every lane form shares
stops an instruction of this header that reads and writes these registers (R26, R28, R38, R90). -/
structure LaneClear (s : State) (F : Focus) (w : Swath) (g : Frag) (b : Bool) (h : LHdr)
    (reads writes : List RegName) (whole : Bool := false) : Prop where
  focus : s.laneFocus = some (F, w, g, b)
  count : ∀ n, RegName.v n ∈ reads ++ writes → n < w.vregs
  stall : stallShort w.regs.chk g.sb (if whole then reads else .k h.guard.toNat :: reads) = false
  late : ∀ l ∈ w.lanes.late, l.second = b → RegName.w l.w ∉ reads ++ writes
  war : regionWar w.regs.chk (addReads (enteredFrag F g h).rset
    (if whole then reads else .k h.guard.toNat :: reads)) writes = false

/-- The swath with its fragment `b` at lane PC `pc`. -/
def onward (w : Swath) (b : Bool) (pc : W32) : Swath := w.updFrag b (fun g => { g with pc := pc })

/-- `i` gives `n` registers from `v`d, in every lane of its active set, the value that `v` computes from
the registers as they were; other lanes and other registers keep theirs, the flags of the lanes
add up, and each lane of the set makes its draws. Nothing else changes, and the fragment goes on
(R70 to R72, R185). -/
def LaneComputes (i : Instr) (h : LHdr) (reads : List RegName) (vd : BitVec 8) (n : Nat)
    (draws : Frag → Nat) (v : Swath → Frag → Nat → (Nat → Nat) → Nat × Flags) : Prop :=
  ∀ s F w g b, LaneClear s F w g b h reads (vregs vd.toNat n) →
    let w0 := entered F w g b h
    let g0 := enteredFrag F g h
    let m := active F w g b h
    let res (l : Nat) : Nat × Flags := v w0 g0 l (fun i => (nthDraw (w.eng.laneGen l) i).toNat)
    ∃ u : Swath, Goes s F (onward u b (g.pc + 1)) (exec i s) ∧
      (∀ l, m.getLsbD l = true → u.vrN vd.toNat l n = (res l).1 % 2 ^ (32 * n)) ∧
      (∀ r l, l < 1024 → m.getLsbD l = false ∨ r < vd.toNat ∨ vd.toNat + n ≤ r →
        u.vr r l = w.vr r l) ∧
      (∀ l, u.eng.laneGen l = match draws g0 with
        | 0 => w.eng.laneGen l
        | k + 1 => if m.getLsbD l then nthDraw (w.eng.laneGen l) k else w.eng.laneGen l) ∧
      flAll (u.regs.laneFlags.map (·.2)) = flAll (w.regs.laneFlags.map (·.2)) |||
        flAll ((lanesOf m).map (fun l => (res l).2)) ∧
      u = { w0 with regs := { w0.regs with v := u.regs.v, laneFlags := u.regs.laneFlags },
                    eng := { w0.eng with lgen := u.eng.lgen } }

/-- `i` gives predicate `k`d, in every lane of its active set, the bit that `v` computes; a write to `k0`
is discarded (R29, R70). -/
def LaneDecides (i : Instr) (h : LHdr) (reads : List RegName) (kd : BitVec 4)
    (v : Swath → Nat → Bool × Flags) : Prop :=
  ∀ s F w g b, LaneClear s F w g b h reads [.k kd.toNat] →
    let w0 := entered F w g b h
    let m := active F w g b h
    ∃ u : Swath, Goes s F (onward u b (g.pc + 1)) (exec i s) ∧
      (∀ (j : BitVec 4) l, l < 1024 → (u.kr j).getLsbD l =
        if j = kd ∧ j ≠ 0 ∧ m.getLsbD l = true then (v w0 l).1 else (w.kr j).getLsbD l) ∧
      flAll (u.regs.laneFlags.map (·.2)) = flAll (w.regs.laneFlags.map (·.2)) |||
        flAll ((lanesOf m).map (fun l => (v w0 l).2)) ∧
      u = { w0 with regs := { w0.regs with k := u.regs.k, laneFlags := u.regs.laneFlags } }

/-- An exact integer as a result of a type: saturated under `.sat`, wrapped otherwise (R77). -/
def narrow (t : LTy) (sub : BitVec 4) (v : Int) : Nat :=
  let n := Machine.tyBits t
  let lo : Int := if tySigned t then -(2 ^ (n - 1)) else 0
  let hi : Int := if tySigned t then 2 ^ (n - 1) - 1 else 2 ^ n - 1
  (BitVec.ofInt n (if sub = 1 then max lo (min hi v) else v)).toNat

end Sys2Proof.Claims

/-- Each lane integer form completes and gives every lane of its active set the exact result of R76 and
R77, saturated or wrapped to its type, from the registers as they were; the counts of `POPC` and
`CLZ` are those of the operand's bits, and a zero divisor gives all ones or the dividend with the flag
DZ. -/
def Obligations.LaneIntegerFormsCompute : Prop :=
  ∀ (o : LBin) (t : LTern) (p : LUn),
    let n := tyRegs o.ty
    let bin (i : Instr) (f : Nat → Nat → Nat × Flags) : Prop :=
      LaneComputes i o.h (vregs o.va.toNat n ++ opNames o.b o.ty) o.vd n (fun _ => 0)
        (fun w _ l _ => f (w.vrN o.va.toNat l n) (opVal o.b w o.ty l))
    let x (v : Nat) : Int := tyInt o.ty v
    let bits := tyBits o.ty
    bin (.iadd o) (fun a b => (narrow o.ty o.sub (x a + x b), 0)) ∧
    bin (.isub o) (fun a b => (narrow o.ty o.sub (x a - x b), 0)) ∧
    bin (.imul o) (fun a b => (a * b, 0)) ∧
    bin (.imulh o) (fun a b => ((BitVec.ofInt 32 ((x a * x b) / 2 ^ 32)).toNat, 0)) ∧
    bin (.idiv o) (fun a b => if b = 0 then (2 ^ 32 - 1, 0x10)
      else ((BitVec.ofInt 32 ((x a).tdiv (x b))).toNat, 0)) ∧
    bin (.irem o) (fun a b => if b = 0 then (a, 0x10)
      else ((BitVec.ofInt 32 ((x a).tmod (x b))).toNat, 0)) ∧
    bin (.imin o) (fun a b => (if x a ≤ x b then a else b, 0)) ∧
    bin (.imax o) (fun a b => (if x b ≤ x a then a else b, 0)) ∧
    bin (.laneAnd o) (fun a b => (a &&& b, 0)) ∧
    bin (.laneOr o) (fun a b => (a ||| b, 0)) ∧
    bin (.laneXor o) (fun a b => (a ^^^ b, 0)) ∧
    bin (.laneShl o) (fun a b => (a <<< (b % bits), 0)) ∧
    bin (.laneShr o) (fun a b =>
      ((BitVec.ofInt bits (x a / 2 ^ (b % bits))).toNat, 0)) ∧
    bin (.bfe o) (fun a b =>
      let k := min (min (b / 256 % 64) 32) (32 - b % 32)
      let f := a / 2 ^ (b % 32) % 2 ^ k
      (if k ≠ 0 ∧ tySigned o.ty = true ∧ 2 ^ (k - 1) ≤ f then f + 2 ^ 32 - 2 ^ k else f, 0)) ∧
    (let m := tyRegs t.ty
     let tern (i : Instr) (f : Nat → Nat → Nat → Nat × Flags) : Prop :=
      LaneComputes i t.h (vregs t.va.toNat m ++ opNames t.b t.ty ++ opNames t.c t.ty) t.vd m
        (fun _ => 0)
        (fun w _ l _ => f (w.vrN t.va.toNat l m) (opVal t.b w t.ty l) (opVal t.c w t.ty l))
     tern (.imad t) (fun a b c => ((a * b + c) % 2 ^ 32, 0)) ∧
     tern (.bfi t) (fun a b c =>
      let pos := c % 32
      let k := min (min (c / 256 % 64) 32) (32 - pos)
      (b - b / 2 ^ pos % 2 ^ k * 2 ^ pos + a % 2 ^ k * 2 ^ pos, 0))) ∧
    (let m := tyRegs p.ty
     let un (i : Instr) (f : Nat → Nat) : Prop :=
      LaneComputes i p.h (vregs p.va.toNat m) p.vd 1 (fun _ => 0)
        (fun w _ l _ => (f (w.vrN p.va.toNat l m), 0))
     un (.lanePopc p) (fun a => ((List.range (tyBits p.ty)).filter (fun j => a.testBit j)).length) ∧
     ∃ f : Nat → Nat, un (.laneClz p) f ∧ ∀ a, a < 2 ^ tyBits p.ty → f a ≤ tyBits p.ty ∧
       a < 2 ^ (tyBits p.ty - f a) ∧ (f a < tyBits p.ty → 2 ^ (tyBits p.ty - f a - 1) ≤ a))

/-- Each lane floating-point, packed, dot-product and conversion form completes with one rounding of
the exact result in its effective mode, with the lane's own draw under SRN, and each element's flags
raised (R78 to R84, R185). -/
def Sys2Proof.Claims.LaneFloatForms : Prop :=
  ∀ (o : LBin) (t : LTern) (p : LUn) (c : LCvt) (e : LNarrow),
    let one (sub : BitVec 4) (g : Frag) : Nat := if effMode sub g = SRN then 1 else 0
    let fp (i : Instr) (draws : Frag → Nat) (f : Mode → Nat → Nat → Nat → Nat × Flags) : Prop :=
      LaneComputes i o.h (.v o.va.toNat :: opNames o.b .f32) o.vd 1 draws
        (fun w g l u => f (effMode o.sub g) (u 0) (w.vr o.va.toNat l) (opVal o.b w .f32 l))
    let un (i : Instr) (f : FVal → Ex) : Prop :=
      LaneComputes i p.h [.v p.va.toNat] p.vd 1 (one p.sub)
        (fun w g l u => binary32.finish (effMode p.sub g) (u 0) (f (binary32.decode (w.vr p.va.toNat l))))
    fp (.fadd o) (one o.sub) binary32.add ∧ fp (.fsub o) (one o.sub) binary32.sub ∧
    fp (.fmul o) (one o.sub) binary32.mul ∧
    fp (.fmin o) (fun _ => 0) (fun _ _ => binary32.minMax false) ∧
    fp (.fmax o) (fun _ => 0) (fun _ _ => binary32.minMax true) ∧
    LaneComputes (.ffma t) t.h (.v t.va.toNat :: (opNames t.b .f32 ++ opNames t.c .f32)) t.vd 1
      (one t.sub) (fun w g l u => binary32.fma (effMode t.sub g) (u 0) (w.vr t.va.toNat l)
        (opVal t.b w .f32 l) (opVal t.c w .f32 l)) ∧
    un (.frcp p) rcpVal ∧ un (.fsqrt p) sqrtVal ∧ un (.frsq p) rsqVal ∧ un (.fexp2 p) exp2Val ∧
    un (.flog2 p) log2Val ∧
    LaneComputes (.cvt c) c.h (vregs c.va.toNat (tyRegs c.src)) c.vd (tyRegs c.dst) (one c.sub)
      (fun w g l u => cvtVal c.dst c.src (effMode c.sub g) (u 0) (w.vrN c.va.toNat l (tyRegs c.src))) ∧
    LaneComputes (.cvtn e) e.h [.v e.va.toNat, .v e.vd.toNat] e.vd 1 (one e.sub)
      (fun w g l u =>
        let r := cvtnVal e.ty e.fmt.toNat (effMode e.sub g) (u 0) (w.vr e.va.toNat l)
        (putSlot e.fmt.toNat e.slot.toNat (w.vr e.vd.toNat l) r.1, r.2)) ∧
    LaneComputes (.cvtw e) e.h [.v e.va.toNat] e.vd 1 (fun _ => 0)
      (fun w _ l _ => cvtwVal e.ty e.fmt.toNat
        (w.vr e.va.toNat l / 2 ^ (slotBits e.fmt.toNat * e.slot.toNat) % 2 ^ slotBits e.fmt.toNat)) ∧
    -- the packed integer forms: each element the exact result, saturated or wrapped
    (packFmt o.ty = none →
      let (wd, n) := packShape o.ty
      let sg := tySigned o.ty
      let int (i : Instr) (f : Int → Int → Int) : Prop :=
        LaneComputes i o.h (.v o.va.toNat :: opNames o.b o.ty) o.vd 1 (fun _ => 0)
          (fun w _ l _ => ((List.range n).foldr (fun j r =>
            let at_ (v : Nat) : Int := bitsInt sg wd (v / 2 ^ (wd * j) % 2 ^ wd)
            let r' := f (at_ (w.vr o.va.toNat l)) (at_ (opVal o.b w o.ty l))
            r + 2 ^ (wd * j) * intBits wd
              (if o.sub = 1 then max (intLo sg wd) (min (intHi sg wd) r') else r')) 0, 0))
      int (.padd o) (· + ·) ∧ int (.psub o) (· - ·) ∧ int (.pmul o) (· * ·) ∧
      int (.pmin o) min ∧ int (.pmax o) max) ∧
    -- the packed floating-point forms round each element, with a draw of its own under SRN
    (∀ f, packFmt o.ty = some f →
      let two (i : Instr) (draws : Frag → Nat) (k : Mode → Nat → Nat → Nat → Nat × Flags) : Prop :=
        LaneComputes i o.h (.v o.va.toNat :: opNames o.b o.ty) o.vd 1 draws (fun w g l u =>
          let a := w.vr o.va.toNat l
          let c := opVal o.b w o.ty l
          let e0 := k (effMode o.sub g) (u 0) (a % 2 ^ 16) (c % 2 ^ 16)
          let e1 := k (effMode o.sub g) (u 1) (a / 2 ^ 16 % 2 ^ 16) (c / 2 ^ 16 % 2 ^ 16)
          (e0.1 + 2 ^ 16 * e1.1, e0.2 ||| e1.2))
      two (.padd o) (fun g => 2 * one o.sub g) f.add ∧ two (.psub o) (fun g => 2 * one o.sub g) f.sub ∧
      two (.pmul o) (fun g => 2 * one o.sub g) f.mul ∧
      two (.pmin o) (fun _ => 0) (fun _ _ => f.minMax false) ∧
      two (.pmax o) (fun _ => 0) (fun _ _ => f.minMax true)) ∧
    (∀ f, packFmt t.ty = some f →
      LaneComputes (.pfma t) t.h (.v t.va.toNat :: (opNames t.b t.ty ++ opNames t.c t.ty)) t.vd 1
        (fun g => 2 * one t.sub g) (fun w g l u =>
          let a := w.vr t.va.toNat l
          let x := opVal t.b w t.ty l
          let y := opVal t.c w t.ty l
          let e0 := f.fma (effMode t.sub g) (u 0) (a % 2 ^ 16) (x % 2 ^ 16) (y % 2 ^ 16)
          let e1 := f.fma (effMode t.sub g) (u 1) (a / 2 ^ 16 % 2 ^ 16) (x / 2 ^ 16 % 2 ^ 16)
            (y / 2 ^ 16 % 2 ^ 16)
          (e0.1 + 2 ^ 16 * e1.1, e0.2 ||| e1.2))) ∧
    LaneComputes (.dotb t) t.h (.v t.va.toNat :: (opNames t.b t.ty ++ opNames t.c t.ty)) t.vd 1
      (fun g => if (packFmt t.ty).isSome then one t.sub g else 0)
      (fun w g l u => match packFmt t.ty with
        | some f => dotFp f (effMode t.sub g) (u 0) (w.vr t.va.toNat l) (opVal t.b w t.ty l)
            (opVal t.c w t.ty l)
        | none => (dotInt t.ty t.sub (w.vr t.va.toNat l) (opVal t.b w t.ty l) (opVal t.c w t.ty l), 0)) ∧
    LaneComputes (.doth t) t.h (.v t.va.toNat :: (opNames t.b t.ty ++ opNames t.c t.ty)) t.vd 1
      (fun g => if (packFmt t.ty).isSome then one t.sub g else 0)
      (fun w g l u => match packFmt t.ty with
        | some f => dotFp f (effMode t.sub g) (u 0) (w.vr t.va.toNat l) (opVal t.b w t.ty l)
            (opVal t.c w t.ty l)
        | none => (dotInt t.ty t.sub (w.vr t.va.toNat l) (opVal t.b w t.ty l) (opVal t.c w t.ty l), 0))

namespace Sys2Proof.Claims

/-- `n` multiples of 2^q are what R180 and R184 make of ±m × 2^e: the value itself where it is such a
multiple; else one of its two neighbours, the nearer and on a tie the even one in RNE, the one nearer zero
in RTZ, the one below in RDN, the one above in RUP, and in SRN the one farther from zero exactly where the
draw lies below ⌊d × 2^32⌋. -/
def Rounds (mode u : Nat) (neg : Bool) (m : Nat) (e q : Int) (n : Nat) : Prop :=
  let a := m * 2 ^ (e - q).toNat
  let unit := 2 ^ (q - e).toNat
  let v := n * unit
  (a % unit = 0 → v = a) ∧
  (a % unit ≠ 0 → v < a + unit ∧ a < v + unit ∧
    (mode = 0 → 2 * v ≤ 2 * a + unit ∧ 2 * a ≤ 2 * v + unit ∧
      (2 * v = 2 * a + unit ∨ 2 * a = 2 * v + unit → n % 2 = 0)) ∧
    (mode = 1 → v < a) ∧ (mode = 2 → (a < v ↔ neg = true)) ∧ (mode = 3 → (a < v ↔ neg = false)) ∧
    (mode = 4 → (a < v ↔ u < a % unit * 2 ^ 32 / unit)))

end Sys2Proof.Claims

/-- What the roundings of `LaneFloatForms` and of the matrix forms give, format by format and with the
format's largest finite magnitude, in every mode: the number rounded once to the format's spacing, with NX
exactly where it is inexact and UF where the inexact result is tiny; beyond the largest magnitude the
table of R181, with OF and NX; a NaN, an infinity and a conversion to an integer or ternary format as R178,
R182 and R188 say. Which rounding judges tininess is the model's reading (notes/assumptions/34.md). -/
def Sys2Proof.Claims.Rounding : Prop :=
  (∀ (x : Fmt × Nat × Int × Nat), x ∈
      [(binary32, 2 ^ 24 - 1, (104 : Int), 0x7FC00000), (bf16, 2 ^ 8 - 1, 120, 0x7FC0),
       (binary16, 2047, 5, 0x7E00), (e4m3, 14, 5, 0x7F), (e5m2, 7, 13, 0x7E), (e3m2, 7, 2, 0),
       (e2m3, 15, -1, 0), (e2m1, 3, 1, 0)] →
    ∀ (mode u m : Nat) (neg sn : Bool) (e : Int), mode ≤ 4 →
    let f := x.1
    let big := x.2.1
    let top := x.2.2.1
    let q : Int := max (e + (m.log2 : Int)) (1 - (f.bias : Int)) - f.mant
    let q' : Int := if mode = 4 then q else e + (m.log2 : Int) - f.mant
    let r := f.encode mode u (.num neg m e)
    (m = 0 → r = (f.signBit neg, 0)) ∧
    (0 < m → ∃ n k, Rounds mode u neg m e q n ∧ Rounds mode u neg m e q' k ∧
      (n * 2 ^ (q - top).toNat ≤ big * 2 ^ (top - q).toNat →
        (∃ m' e', f.decode r.1 = .num neg m' e' ∧ m' * 2 ^ (e' - q).toNat = n * 2 ^ (q - e').toNat) ∧
        r.2 = (if n * 2 ^ (q - e).toNat = m * 2 ^ (e - q).toNat then 0
          else if k < 2 ^ (1 - (f.bias : Int) - q').toNat then flNX ||| flUF else flNX)) ∧
      (big * 2 ^ (top - q).toNat < n * 2 ^ (q - top).toNat →
        f.decode r.1 = (if f.kind = .ieee ∧ (mode = 0 ∨ mode = 4 ∨ mode = 2 ∧ neg = true ∨
          mode = 3 ∧ neg = false) then .inf neg else .num neg big top) ∧ r.2 = flOF ||| flNX)) ∧
    f.encode mode u (.nan sn) = (x.2.2.2, if sn = true ∨ f.kind = .finite then flIV else 0) ∧
    (let i := f.encode mode u (.inf neg)
     f.decode i.1 = (if f.kind = .ieee then .inf neg else .num neg big top) ∧
     i.2 = if f.kind = .ieee then 0 else flIV)) ∧
  (∀ (x : Nat × Nat × Int × Int), x ∈ [(8, 32, -2 ^ 31, 2 ^ 31 - 1), (9, 8, -128, 127), (10, 4, -8, 7),
      (11, 2, -1, 1)] →
    ∀ (mode u m : Nat) (neg sn : Bool) (e : Int), mode ≤ 4 →
    let bits (v : Int) : Nat := (v % 2 ^ x.2.1).toNat
    convertTo x.1 mode u (.nan sn) = (0, flIV) ∧
    convertTo x.1 mode u (.inf neg) = (bits (if neg then x.2.2.1 else x.2.2.2), flIV) ∧
    ∃ n, Rounds mode u neg m e 0 n ∧
      let v : Int := if neg then -(n : Int) else n
      convertTo x.1 mode u (.num neg m e) =
        if v < x.2.2.1 then (bits x.2.2.1, flIV)
        else if x.2.2.2 < v then (bits x.2.2.2, flIV)
        else (bits v, if n * 2 ^ (-e).toNat = m * 2 ^ e.toNat then 0 else flNX))

/-- Lane floating-point, packed, dot-product and conversion forms, and what their roundings give:
`LaneFloatForms` and `Rounding`. -/
def Obligations.LaneFloatAndPackedFormsCompute : Prop :=
  Claims.LaneFloatForms ∧ Claims.Rounding
/-! ### Lane forms that write predicates and uniform registers, and the cross-lane forms -/

/-- Predicates, selections and moves within a lane and between lanes: `ISETP`, `FSETP` and `KMIX` decide
each lane's bit, `MOV`, `SEL` and `XLANE` give each lane its value, `LMFSR` reads a system register in
each lane (R31, R76, R80, R85, R86). -/
def Sys2Proof.Claims.LanePredicatesAndMoves : Prop :=
  ∀ (p : LSetp) (q : LMov) (e : LSel) (x : LXlane) (k : LKmix) (m : LSysRead),
    (let n := tyRegs p.ty
     LaneDecides (.isetp p) p.h (vregs p.va.toNat n ++ opNames p.b p.ty) p.kd (fun w l =>
      let a := tyInt p.ty (w.vrN p.va.toNat l n)
      let b := tyInt p.ty (opVal p.b w p.ty l)
      (match p.cc.toNat with
        | 0 => decide (a = b) | 1 => decide (a ≠ b) | 2 => decide (a < b) | 3 => decide (a ≤ b)
        | 4 => decide (a > b) | _ => decide (a ≥ b), 0))) ∧
    LaneDecides (.fsetp p) p.h (.v p.va.toNat :: opNames p.b .f32) p.kd (fun w l =>
      let a := binary32.decode (w.vr p.va.toNat l)
      let b := binary32.decode (opVal p.b w .f32 l)
      (fcompare p.cc.toNat a b, if a.isSnan || b.isSnan then flIV else 0)) ∧
    LaneDecides (.kmix k) k.h [.k k.ka.toNat, .k k.kb.toNat, .k k.kc.toNat] k.kd (fun w l =>
      let bit (r : BitVec 4) : Nat := if (w.kr r).getLsbD l then 1 else 0
      (Bool.xor (k.table.getLsbD (bit k.ka + 2 * bit k.kb + 4 * bit k.kc)) k.inv, 0)) ∧
    LaneComputes (.laneMov q) q.h (opNames q.b q.ty) q.vd (tyRegs q.ty) (fun _ => 0)
      (fun w _ l _ => (opVal q.b w q.ty l, 0)) ∧
    LaneComputes (.laneSel e) e.h (.k e.ka.toNat :: (opNames e.b e.ty ++ opNames e.c e.ty)) e.vd
      (tyRegs e.ty) (fun _ => 0)
      (fun w _ l _ => (if (w.kr e.ka).getLsbD l then opVal e.b w e.ty l else opVal e.c w e.ty l, 0)) ∧
    LaneComputes (.xlane x) x.h (.v x.va.toNat :: (opNames x.b .n32 ++ opNames x.c .n32)) x.vd 1
      (fun _ => 0) (fun w g l _ =>
        let from_ := xlaneSource x.sub l (opVal x.b w .n32 l % 32)
        (if from_.any (fun j => (activeSet w g x.h).getLsbD j) then w.vr x.va.toNat (from_.getD 0)
         else opVal x.c w .n32 l, 0)) ∧
    (∀ s F w g b f, LaneClear s F w g b m.h [.sr m.sr.toNat] (vregs m.vd.toNat (tyRegs m.ty)) →
      s.field? F.fid = some f →
      let w0 := entered F w g b m.h
      ∃ u : Swath, Goes s F (onward u b (g.pc + 1)) (exec (.lmfsr m) s) ∧
        (∀ l, (active F w g b m.h).getLsbD l = true → u.vrN m.vd.toNat l (tyRegs m.ty) =
          (match m.sr.toNat with
           | 0 => g.fmt.toNat
           | 1 => (w.regs.flags ||| flAll (w.regs.laneFlags.map (·.2))).toNat
           | 6 => l
           | _ => (swathWord f w0).toNat) % 2 ^ (32 * tyRegs m.ty)) ∧
        (∀ r l, l < 1024 → (active F w g b m.h).getLsbD l = false ∨ r < m.vd.toNat ∨
          m.vd.toNat + tyRegs m.ty ≤ r → u.vr r l = w.vr r l) ∧
        u = { w0 with regs := { w0.regs with v := u.regs.v } })

/-- `XLANE` takes its value from lane d of the segment, d lanes below, d above, or the lane whose number
differs in the bits of d; none where that lane lies outside the segment of 32, 16, 8 or 4 lanes (R86). -/
def Sys2Proof.Claims.CrossLane : Prop :=
  ∀ (seg l d : Nat) (sub : BitVec 4), seg < 4 → l < 1024 → d < 32 →
    let n := 32 / 2 ^ seg
    let base := l - l % n
    sub.toNat / 4 = seg →
    (sub.toNat % 4 = 0 → xlaneSource sub l d = some (base + d % n)) ∧
    (sub.toNat % 4 = 1 → xlaneSource sub l d = if d ≤ l % n then some (l - d) else none) ∧
    (sub.toNat % 4 = 2 → xlaneSource sub l d = if l % n + d < n then some (l + d) else none) ∧
    (sub.toNat % 4 = 3 → ∃ j, xlaneSource sub l d = some j ∧ j / n = l / n ∧
      ∀ i, 2 ^ i < n → j.testBit i = Bool.xor (l.testBit i) (d.testBit i)) ∧
    (∀ j, xlaneSource sub l d = some j → j / n = l / n)

/-- Reductions and scans: `LRED` and `VOTE` leave one result outstanding, which a later completion
writes to their uniform register; any of the outstanding ones may be next. `SCAN` gives the lanes of
the active set, in ascending order, the running combination, before or after the lane's own value
(R87 to R90, R285). -/
def Obligations.ReductionsVotesAndScans : Prop :=
  ∀ (r : LRedOp) (v : LVote) (p : LUn) (s : State) (F : Focus) (w : Swath) (g : Frag) (b : Bool),
    let owes (u : Swath) (reg : Nat) (x : W64) (fl : Flags) : Swath :=
      { u with lanes := { u.lanes with
          late := u.lanes.late ++ [{ second := b, w := reg, value := x, flags := fl }] } }
    (LaneClear s F w g b r.h (vregs r.va.toNat (tyRegs r.ty)) [.w r.wd.toNat] → r.ty ≠ .f32 →
      let vals := (lanesOf (active F w g b r.h)).map (fun l => w.vrN r.va.toNat l (tyRegs r.ty))
      let x := vals.foldl (redOp r.op.toNat r.ty) (redId r.op.toNat r.ty)
      Goes s F (onward (owes (entered F w g b r.h) r.wd.toNat
        (if r.ty = .s32 then (BitVec.ofNat 32 x).signExtend 64 else BitVec.ofNat 64 x) 0) b (g.pc + 1))
        (exec (.lred r) s)) ∧
    (LaneClear s F w g b r.h (vregs r.va.toNat (tyRegs r.ty)) [.w r.wd.toNat] → r.ty = .f32 →
      let x := redF32 r.op.toNat (fmtRM g.fmt)
        ((lanesOf (active F w g b r.h)).map (fun l => w.vr r.va.toNat l))
      Goes s F (onward (owes (entered F w g b r.h) r.wd.toNat (BitVec.ofNat 64 x.1) x.2) b (g.pc + 1))
        (exec (.lred r) s)) ∧
    (LaneClear s F w g b v.h [.k v.ka.toNat] [.w v.wd.toNat] →
      let m := active F w g b v.h
      let k := w.kr v.ka
      let x : W64 := match v.op.toNat with
        | 0 => if k &&& m = 0 then 0 else 1
        | 1 => if m &&& k = m then 1 else 0
        | 2 => BitVec.ofNat 64 ((lanesOf m).filter (fun l => k.getLsbD l)).length
        | _ => (k &&& m).extractLsb' (64 * v.g.toNat) 64
      Goes s F (onward (owes (entered F w g b v.h) v.wd.toNat x 0) b (g.pc + 1)) (exec (.vote v) s)) ∧
    (LaneClear s F w g b p.h [.v p.va.toNat] [.v p.vd.toNat] →
      let op := p.sub.toNat % 8
      let ls := lanesOf (active F w g b p.h)
      let upto (l : Nat) : List Nat :=
        (ls.filter (fun j => if p.sub.getLsbD 3 then decide (j < l) else decide (j ≤ l))).map
          (w.vr p.va.toNat)
      ∃ u : Swath, Goes s F (onward u b (g.pc + 1)) (exec (.scan p) s) ∧
        (∀ l ∈ ls, u.vr p.vd.toNat l =
          (upto l).foldl (redOp op p.ty) (redId op p.ty) % 2 ^ 32) ∧
        (∀ i l, l < 1024 → l ∉ ls ∨ i ≠ p.vd.toNat → u.vr i l = w.vr i l) ∧
        (let w0 := entered F w g b p.h
         u = { w0 with regs := { w0.regs with v := u.regs.v } })) ∧
    (∀ fid sw u, s.swathAt fid sw = some u → u.lanes.late ≠ [] →
      ∃ i x u' n, u.lanes.late[i]? = some x ∧
        exec (.variableLatencyResult fid sw) s =
          .next { s.updSwathAt fid sw (fun _ => u') with freeCtr := n } ∧
        u'.lanes = { u.lanes with late := u.lanes.late.eraseIdx i } ∧
        mget u'.regs.wL x.w = some x.value ∧
        (∀ j, j ≠ x.w → mget u'.regs.wL j = mget u.regs.wL j) ∧
        u'.regs.v = u.regs.v ∧ u'.regs.k = u.regs.k ∧ u'.regs.x = u.regs.x ∧ u'.regs.wS = u.regs.wS)

/-! ### Lane control flow, handshake and barriers -/

/-- Branches: `BRU` goes where every lane of the fragment agrees, and `BRANCH_MIXED` arises where they do
not; a `BRD` whose lanes agree pushes nothing; one whose lanes differ splits the fragment, its T arm
at the target and its F arm at the next word, live or held in the new entry; at a depth of 64 it is
`STACK_OVERFLOW` (R91, R92, R131). -/
def Sys2Proof.Claims.LaneBranches : Prop :=
  ∀ (h : LHdr) (off : W32) (s : State) (F : Focus) (w : Swath) (g : Frag) (b : Bool),
    LaneClear s F w g b h [.k h.guard.toNat] [] true →
    let w0 := entered F w g b h
    let t := active F w g b h
    let f := g.mask &&& ~~~t
    let dest : W32 := g.pc + (off.setWidth 16).signExtend 32
    let join : W32 := g.pc + ((off >>> 16).setWidth 16).signExtend 32
    let marked : State := if h.mark then s.updSwath F.party (fun _ => w0) else s
    (t = g.mask → Goes s F (onward w0 b (g.pc + off)) (exec (.bru h off) s)) ∧
    (t = 0 → g.mask ≠ 0 → Goes s F (onward w0 b (g.pc + 1)) (exec (.bru h off) s)) ∧
    (t ≠ g.mask → t ≠ 0 → exec (.bru h off) s =
      .next (marked.laneFault F (enteredFrag F g h) b (raise .branchMixed))) ∧
    (t = 0 → Goes s F (onward w0 b (g.pc + 1)) (exec (.brd h off) s)) ∧
    (t ≠ 0 → f = 0 → Goes s F (onward w0 b dest) (exec (.brd h off) s)) ∧
    (t ≠ 0 → f ≠ 0 → 64 ≤ w.lanes.stack.length → exec (.brd h off) s =
      .next (marked.laneFault F (enteredFrag F g h) b (raise .stackOverflow))) ∧
    (t ≠ 0 → f ≠ 0 → w.lanes.stack.length < 64 → ∃ u e a,
      exec (.brd h off) s = .next (s.updSwath F.party (fun _ => u)) ∧
      u.lanes.stack = w.lanes.stack ++ [e] ∧ e.mask = f ∧ e.jpc = join ∧ e.jfmt = g.fmt ∧
      u.lanes.get b = some a ∧ a.mask = t ∧ a.pc = dest ∧ a.fmt = g.fmt ∧
      ((e.kind = .first ∧ e.apc = g.pc + 1 ∧ e.afmt = g.fmt ∧ e.atok = g.tok ∧
          u.lanes.get (!b) = w.lanes.get (!b)) ∨
       (e.kind = .dual ∧ w.lanes.f1 = none ∧ ∃ c, u.lanes.f1 = some c ∧ c.mask = f ∧
          c.pc = g.pc + 1 ∧ c.tok = g.tok)) ∧
      u.regs.v = w.regs.v ∧ u.regs.k = w.regs.k ∧ u.regs.x = w.regs.x ∧ u.ctl = w.ctl ∧ u.eng = w.eng)

/-- `JOIN`: with no entry of its fragment that names its lane PC it does nothing; at a serialised entry
it runs the held arm first, and then fuses both; at a dual entry the arm that comes first waits and
the other fuses them in the T arm's place, each with the format that the split saved (R93, R133). -/
def Sys2Proof.Claims.Joins : Prop :=
  ∀ (h : LHdr) (s : State) (F : Focus) (w : Swath) (g : Frag) (b : Bool),
    LaneClear s F w g b h [] [] true →
    let w0 := entered F w g b h
    (w.lanes.innermost b = none → Goes s F (onward w0 b (g.pc + 1)) (exec (.join h) s)) ∧
    (∀ i e, w.lanes.innermost b = some i → w.lanes.stack[i]? = some e →
      let becomes (P : Swath → Prop) : Prop :=
        ∃ u, exec (.join h) s = .next (s.updSwath F.party (fun _ => u)) ∧ u.regs.v = w.regs.v ∧
          u.regs.x = w.regs.x ∧ u.ctl = w.ctl ∧ P u
      (e.isTrap = true ∨ e.jpc ≠ g.pc → Goes s F (onward w0 b (g.pc + 1)) (exec (.join h) s)) ∧
      (e.jpc = g.pc → e.kind = .first → becomes (fun u =>
        (∃ e', u.lanes.stack = w.lanes.stack.set i e' ∧ e'.kind = .second ∧ e'.mask = g.mask ∧
          e'.atok = g.tok ∧ e'.heldArm = !e.heldArm ∧ e'.jpc = e.jpc ∧ e'.jfmt = e.jfmt) ∧
        ∃ a, u.lanes.get b = some a ∧ a.mask = e.mask ∧ a.pc = e.apc ∧ a.fmt = e.afmt ∧
          a.tok = e.atok)) ∧
      (e.jpc = g.pc → e.kind = .second → becomes (fun u =>
        u.lanes.stack = w.lanes.stack.eraseIdx i ∧
        ∃ a, u.lanes.get b = some a ∧ a.mask = g.mask ||| e.mask ∧ a.pc = e.jpc + 1 ∧
          a.fmt = e.jfmt)) ∧
      (e.jpc = g.pc → e.kind = .dual → ∀ o, w.lanes.get (!b) = some o →
        (¬(o.wait = .join ∧ o.pc = e.jpc) → becomes (fun u => u.lanes.stack = w.lanes.stack ∧
          u.lanes.get (!b) = some o ∧
          ∃ a, u.lanes.get b = some a ∧ a.mask = g.mask ∧ a.pc = g.pc ∧ a.wait = .join)) ∧
        (o.wait = .join → o.pc = e.jpc → becomes (fun u =>
          u.lanes.stack = w.lanes.stack.eraseIdx i ∧ u.lanes.f1 = none ∧
          ∃ a, u.lanes.f0 = some a ∧ a.mask = g.mask ||| o.mask ∧ a.pc = e.jpc + 1 ∧
            a.fmt = e.jfmt))))

/-- The exchange of arms: a fragment that waits on a barrier whose phase has not completed, at a
serialised entry whose held arm is not stopped in such a wait, changes places with that arm (R134). -/
def Sys2Proof.Claims.WaitingArms : Prop :=
  ∀ (s : State) (fid sw : Nat) (F : Focus) (w : Swath) (g : Frag) (n i : Nat) (e : StackEnt),
    s.residentAt fid sw = some (F, w) → w.lanes.f0 = some g → w.lanes.f1 = none →
    g.wait.bar = some n → w.lanes.innermost false = some i → w.lanes.stack[i]? = some e →
    e.kind = .first → barWaits s fid n g.tok = true →
    (∀ m, e.hbar = some m → barWaits s fid m e.atok = false) →
    ∃ u e' a, exec (.armExchange fid sw) s = .next (s.updSwathAt fid sw (fun _ => u)) ∧
      u.lanes.stack = w.lanes.stack.set i e' ∧ u.lanes.f0 = some a ∧ u.lanes.f1 = none ∧
      e'.kind = .first ∧ e'.mask = g.mask ∧ e'.atok = g.tok ∧ e'.afmt = g.fmt ∧ e'.apc = g.pc ∧
      e'.abars = g.wait.isBars ∧ e'.heldArm = !e.heldArm ∧ e'.jpc = e.jpc ∧ e'.jfmt = e.jfmt ∧
      a.mask = e.mask ∧ a.tok = e.atok ∧ a.fmt = e.afmt ∧ a.pc = e.apc ∧
      u.regs.v = w.regs.v ∧ u.regs.x = w.regs.x ∧ u.ctl = w.ctl

/-- The lane side of the handshake: `LSTOP` ends a reconverged stream, `LHOLD` holds it, or takes the
staged go, `LSIG` raises the signal count, `LFMT` changes the fragment's formats; a stream that has not
reconverged, and a count above 65,535, are `STREAM_STATE`; a format word that is not accepted is
`ILLEGAL`; `LNOP` only goes on (R37, R61, R64, R94 to R96). -/
def Sys2Proof.Claims.LaneHandshake : Prop :=
  ∀ (h : LHdr) (n : BitVec 8) (r : BitVec 4) (s : State) (F : Focus) (w : Swath) (g : Frag) (b : Bool),
    let w0 := entered F w g b h
    let marked : State := if h.mark then s.updSwath F.party (fun _ => w0) else s
    let traps (i : Instr) (c : Cause) : Prop :=
      exec i s = .next (marked.laneFault F (enteredFrag F g h) b (raise c))
    let becomes (i : Instr) (P : Swath → Prop) : Prop :=
      ∃ u, exec i s = .next (s.updSwath F.party (fun _ => u)) ∧ u.regs.v = w.regs.v ∧
        u.regs.x = w.regs.x ∧ u.ctl = w.ctl ∧ P u
    let next (u : Swath) : Prop := ∃ a, u.lanes.get b = some a ∧ a.pc = g.pc + 1 ∧ a.mask = g.mask
    (LaneClear s F w g b h [] [] → Goes s F (onward w0 b (g.pc + 1)) (exec (.lnop h) s)) ∧
    (LaneClear s F w g b h [] [] true →
      (w.lanes.reconverged = false → traps (.lstop h) .streamState ∧ traps (.lhold h) .streamState) ∧
      (65535 < w.meet.sig + n.toNat → traps (.lsig h n) .streamState) ∧
      (w.lanes.reconverged = true → becomes (.lstop h) (fun u => u.meet.hs = .idle ∧
        u.meet.go = false ∧ u.lanes.f0 = none ∧ u.lanes.f1 = none ∧ u.meet.sig = w.meet.sig)) ∧
      (w.lanes.reconverged = true → w.meet.go = false → becomes (.lhold h) (fun u =>
        u.meet.hs = .held ∧ u.regs.wL = w.regs.wL ∧ next u)) ∧
      (w.lanes.reconverged = true → w.meet.go = true → becomes (.lhold h) (fun u =>
        u.meet.hs = w.meet.hs ∧ u.meet.go = false ∧
        (∀ k < 16, mgetD u.regs.wL k 0 = if w.meet.staged.getLsbD k then mgetD w.meet.wG k 0
          else mgetD w.regs.wL k 0) ∧ next u)) ∧
      (w.meet.sig + n.toNat ≤ 65535 → becomes (.lsig h n) (fun u =>
        u.meet.sig = w.meet.sig + n.toNat ∧ u.meet.issued = w.meet.issued + BitVec.ofNat 32 n.toNat ∧
        (∀ l ∈ u.lanes.late, l.second ≠ b) ∧ next u))) ∧
    (LaneClear s F w g b h [.w r.toNat] [.sr 0] true →
      let v := mgetD w.regs.wL r.toNat 0
      (fmtOk v = false → exec (.lfmt h r) s = .next (s.laneFault F g b (raise .illegal))) ∧
      (fmtOk v = true → becomes (.lfmt h r) (fun u => u.regs.wL = w.regs.wL ∧ next u ∧
        ∃ a, u.lanes.get b = some a ∧ a.fmt = v)))

/-- Barriers of a fragment: `BARA` arrives and goes on with a token of the phase; `BARS` arrives and goes
on if it completed the phase, and waits otherwise; `BARW` waits while its token's phase is in progress and
then clears it; a barrier beyond the pool is `ILLEGAL`, a wrong count `BAR_COUNT`; a wait ends when its
phase completes; a word that raises `ILLEGAL` records no region entry (R38, R66, R97, R129). -/
def Sys2Proof.Claims.LaneBarriers : Prop :=
  ∀ (h : LHdr) (n : BitVec 4) (c : Opnd) (s : State) (F : Focus) (w : Swath) (g : Frag) (b : Bool),
    let w0 := entered F w g b h
    let marked : State := if h.mark then s.updSwath F.party (fun _ => w0) else s
    let traps (i : Instr) (x : Cause) : Prop :=
      exec i s = .next (marked.laneFault F (enteredFrag F g h) b (raise x))
    let unmarked := Host.Outcome.next (s.laneFault F g b (raise .illegal))
    let becomes (i : Instr) (s1 : State) (P : Swath → Frag → Prop) : Prop :=
      ∃ u a, exec i s = .next (s1.updSwath F.party (fun _ => u)) ∧ u.regs = w.regs ∧
        u.ctl = w.ctl ∧ u.lanes.get b = some a ∧ a.mask = g.mask ∧ u.lanes.stack = w.lanes.stack ∧ P u a
    (LaneClear s F w g b h (opNames c .n32) [] true →
      (s.bar F.fid n.toNat = none →
        exec (.laneBara h n c) s = unmarked ∧ exec (.laneBars h n c) s = unmarked) ∧
      (∀ v, s.bar F.fid n.toNat = some v →
        (v.arrive (opVal c w .n32 0) = none →
          traps (.laneBara h n c) .barCount ∧ traps (.laneBars h n c) .barCount) ∧
        (∀ v' p, v.arrive (opVal c w .n32 0) = some (v', p) →
          becomes (.laneBara h n c) (s.setBar F.fid n.toNat v')
            (fun _ a => a.pc = g.pc + 1 ∧ a.tok = tokSet g.tok n.toNat p) ∧
          (v'.phase = p → becomes (.laneBars h n c) (s.setBar F.fid n.toNat v')
            (fun _ a => a.pc = g.pc ∧ a.wait = .bars n.toNat ∧ a.tok = tokSet g.tok n.toNat p)) ∧
          (v'.phase ≠ p → becomes (.laneBars h n c) (s.setBar F.fid n.toNat v')
            (fun _ a => a.pc = g.pc + 1 ∧ tokHas a.tok n.toNat = false))))) ∧
    (LaneClear s F w g b h [] [] true →
      (s.bar F.fid n.toNat = none → exec (.laneBarw h n) s = unmarked) ∧
      (∀ v, s.bar F.fid n.toNat = some v →
        (tokHas g.tok n.toNat = true → v.phase = tokPhase g.tok n.toNat →
          becomes (.laneBarw h n) s (fun _ a => a.pc = g.pc ∧ a.wait = .barw n.toNat ∧ a.tok = g.tok)) ∧
        (tokHas g.tok n.toNat = false ∨ v.phase ≠ tokPhase g.tok n.toNat →
          becomes (.laneBarw h n) s (fun _ a => a.pc = g.pc + 1 ∧ a.tok = tokClear g.tok n.toNat)))) ∧
    -- a wait that is looked at again
    (∀ fid sw k, s.residentAt fid sw = some (F, w) → w.lanes.get b = some g →
      let look := exec (.barrierWaitResume (.lane fid sw b)) s
      let on (a : Frag) : Host.Outcome State Fault Refusal :=
        .next (s.updSwathAt fid sw (fun u => u.updFrag b (fun _ => a)))
      let a : Frag := { g with tok := tokClear g.tok k, wait := .ready, pc := g.pc + 1 }
      (g.wait = .barw k ∨ g.wait = .bars k → barWaits s fid k g.tok = true → look = .next s) ∧
      (g.wait = .barw k → barWaits s fid k g.tok = false → look = on a) ∧
      (g.wait = .bars k → barWaits s fid k g.tok = false → look = on (a.region F.level))) ∧
    (∀ fid k t v, s.bar fid k = some v → tokHas t k = true →
      (barWaits s fid k t = true ↔ v.phase = tokPhase t k))

/-- Predicates, selections, moves and cross-lane forms: `LanePredicatesAndMoves` and `CrossLane`. -/
def Obligations.PredicatesMovesAndCrossLaneForms : Prop :=
  Claims.LanePredicatesAndMoves ∧ Claims.CrossLane

/-- Lane branches, joins and waiting arms: `LaneBranches` and `Joins` and `WaitingArms`. -/
def Obligations.LaneBranchesSplitAndRejoin : Prop :=
  Claims.LaneBranches ∧ Claims.Joins ∧ Claims.WaitingArms

/-- The lane side of the handshake, and the lane barrier forms: `LaneHandshake` and `LaneBarriers`. -/
def Obligations.LaneHandshakeAndBarriers : Prop :=
  Claims.LaneHandshake ∧ Claims.LaneBarriers
/-! ### Lane memory -/

namespace Sys2Proof.Claims

/-- The state with the region entry that an instruction marks. -/
def marked (s : State) (F : Focus) (w : Swath) (g : Frag) (b : Bool) (h : LHdr) : State :=
  if h.mark then s.updSwath F.party (fun _ => entered F w g b h) else s

/-- The accesses of a list of lanes, each in the state that the one before it left; none where one of
them is not performed. -/
def each {α : Type} (one : Nat → State → LRes α) : List Nat → State → Option (List (Nat × α) × State)
  | [], s => some ([], s)
  | l :: r, s =>
    match one l s with
    | .ok a s1 => (each one r s1).map (fun x => ((l, a) :: x.1, x.2))
    | _ => none

/-- Every lane's access passes its check, made by itself in `s`, and is then performed by the entry that the
check found (R99, R268): `out` is what each lane gets and `s1` the state that is left. -/
def Performed {α : Type} (F : Focus) (va : LaneVa) (one : Nat → State → LRes α) (ls : List Nat) (s : State)
    (out : List (Nat × α)) (s1 : State) : Prop :=
  (∀ l ∈ ls, ∀ r, pinnedRun F va s one l { s with freeCtr := s.freeCtr + 4 * l } ≠ .trap r) ∧
  ∃ s2, each (pinnedRun F va s one) ls s = some (out, s2) ∧ s1 = { s2 with pin := none }

/-- A datum of a width code as registers hold it (R98). -/
def held (sz : BitVec 3) (v : Nat) : Nat :=
  match sz.toNat with
  | 1 => ((BitVec.ofNat 8 v).signExtend 32).toNat
  | 3 => ((BitVec.ofNat 16 v).signExtend 32).toNat
  | _ => v

/-- `u` is `w` with the values of `out` in `n` registers from `vd`, of the lanes that `out` names. -/
def Holds (w u : Swath) (vd n : Nat) (out : List (Nat × Nat)) : Prop :=
  (∀ l v, (l, v) ∈ out → u.vrN vd l n = v % 2 ^ (32 * n)) ∧
  (∀ r l, l < 1024 → (∀ v, (l, v) ∉ out) ∨ r < vd ∨ vd + n ≤ r → u.vr r l = w.vr r l) ∧
  u = { w with regs := { w.regs with v := u.regs.v } }

/-- The swath past a region-ending instruction of fragment `b`. -/
def onwardRegion (F : Focus) (w : Swath) (b : Bool) (pc : W32) : Swath :=
  w.updFrag b (fun g => ({ g with pc := pc } : Frag).region F.level)

end Sys2Proof.Claims

/-- Lane loads and stores: where the check of every lane passes and every lane's access is then performed,
in ascending order of lanes, a load gives each lane its datum, narrow ones extended, and a store leaves the
registers alone; where every lane's address is misaligned, the cause is that of the lowest, and nothing is
accessed; 16 bytes are two accesses of 8, the lower address first (R98 to R100, R225, R239). -/
def Sys2Proof.Claims.LaneMemory : Prop :=
  ∀ (o : LMem) (s : State) (F : Focus) (w : Swath) (g : Frag) (b : Bool),
    let w0 := entered F w g b o.h
    let m := active F w g b o.h
    let n := szBytes o.sz
    let at_ (l : Nat) : Nat := memAddr o.m w l
    let lost (i : Instr) : Prop := ∀ l r, lanesOf m = l :: r → (∀ j ∈ l :: r, at_ j % n ≠ 0) →
      exec i s = .next ((marked s F w g b o.h).laneFault F (enteredFrag F g o.h) b
        { raise .misaligned with va := BitVec.ofNat 64 (at_ l), lane := l, lanes := m })
    let load (i : Instr) (va : LaneVa) (one : Nat → State → LRes Nat) : Prop :=
      LaneClear s F w g b o.h (memNames o.m) (vregs o.reg.toNat (memRegs o.sz)) →
      (∀ out s1, (∀ l ∈ lanesOf m, at_ l % n = 0) →
        Performed F va (fun l => one (at_ l)) (lanesOf m) (marked s F w g b o.h) out s1 →
        ∃ u, Goes s1 F (onward u b (g.pc + 1)) (exec i s) ∧
          Holds w0 u o.reg.toNat (memRegs o.sz) (out.map (fun x => (x.1, held o.sz x.2)))) ∧ lost i
    let store (i : Instr) (va : LaneVa) (one : Nat → Nat → State → LRes Unit) : Prop :=
      LaneClear s F w g b o.h (vregs o.reg.toNat (memRegs o.sz) ++ memNames o.m) [] →
      (∀ out s1, (∀ l ∈ lanesOf m, at_ l % n = 0) →
        Performed F va (fun l => one (at_ l) (w.vrN o.reg.toNat l (memRegs o.sz) % 2 ^ (8 * n)))
          (lanesOf m) (marked s F w g b o.h) out s1 →
        Goes s1 F (onward w0 b (g.pc + 1)) (exec i s)) ∧ lost i
    let nowhere : LaneVa := fun _ => none
    let mapped : LaneVa := fun l => some (at_ l)
    load (.laneLds o) nowhere (fun a => halvesRead (fun a n s => match scratchAt s F.fid a n false with
      | none => .trap (raise .range)
      | some (k, off) => .ok (scratchRd s k off n) s) a n) ∧
    load (.ldg o) mapped (fun a s =>
      (wideRead F (fun a n s => gLoad F .l1 false s a n) a n s).lane F a) ∧
    load (.laneLdc o) nowhere (fun a => halvesRead (fun a n s => match constRd s F a n with
      | none => .trap (raise .range)
      | some (.error r) => .trap r
      | some (.ok (v, s1)) => .ok v s1) a n) ∧
    store (.laneSts o) nowhere (fun a v => halvesWrite (fun a v n s =>
      match scratchAt s F.fid a n false with
      | none => .trap (raise .range)
      | some (k, off) => .ok () (s.scratchWr k off v n)) a v n) ∧
    store (.stg o) mapped (fun a v s =>
      (wideWrite F (fun a v n s => plainStore F s a v n) a v n s).lane F a) ∧
    (∀ (rd : Nat → Nat → State → LRes Nat) (a k lo hi : Nat) (s1 s2 : State),
      (k ≤ 8 → halvesRead rd a k s = rd a k s) ∧
      (rd a 8 s = .ok lo s1 → rd (a + 8) 8 s1 = .ok hi s2 →
        halvesRead rd a 16 s = .ok (lo + 2 ^ 64 * hi) s2)) ∧
    (∀ (wr : Nat → Nat → Nat → State → LRes Unit) (a v k : Nat) (s1 s2 : State),
      (k ≤ 8 → halvesWrite wr a v k s = wr a v k s) ∧
      (wr a (v % 2 ^ 64) 8 s = .ok () s1 → wr (a + 8) (v / 2 ^ 64) 8 s1 = .ok () s2 →
        halvesWrite wr a v 16 s = .ok () s2)) ∧
    -- a datum of 16 bytes is two accesses of 8 bytes, the lower address first (R225)
    (∀ (rd : Nat → Nat → State → MRes Nat) (a lo hi : Nat) (s1 s2 : State),
      rd a 8 s = .ok lo s1 → rd (a + 8) 8 (s1.stirAt F.agent a) = .ok hi s2 →
      wideRead F rd a 16 s = .ok (lo + 2 ^ 64 * hi) s2) ∧
    (∀ (wr : Nat → Nat → Nat → State → MRes Unit) (a v : Nat) (s1 s2 : State),
      wr a (v % 2 ^ 64) 8 s = .ok () s1 → wr (a + 8) (v / 2 ^ 64) 8 (s1.stirAt F.agent a) = .ok () s2 →
      wideWrite F wr a v 16 s = .ok () s2)

/-- The tolerant gather: lanes whose datum is present get it, the others keep their registers, and
predicate `k`d says which were absent; the absent units are asked for (R206, R207). -/
def Sys2Proof.Claims.TolerantGathers : Prop :=
  ∀ (o : LMem) (kd : BitVec 4) (s : State) (F : Focus) (w : Swath) (g : Frag) (b : Bool),
    let w0 := entered F w g b o.h
    let m := active F w g b o.h
    let n := szBytes o.sz
    let at_ (l : Nat) : Nat := memAddr o.m w l
    LaneClear s F w g b o.h (memNames o.m) (.k kd.toNat :: vregs o.reg.toNat (memRegs o.sz)) →
    (∀ l ∈ lanesOf m, at_ l % n = 0) →
    ∀ (out : List (Nat × Except XErr Nat)) (s1 : State),
      Performed F (fun l => some (at_ l)) (fun l => tolerantLoad F (at_ l) n) (lanesOf m)
        (marked s F w g b o.h) out s1 →
      ∃ u t, exec (.ldgT o kd) s = .next t ∧
        t = (s1.askFills (out.filterMap (fun x => match x.2 with | .error e => some e | .ok _ => none))
          F.ctx 3).updSwath F.party (fun _ => u) ∧
        (∀ l v, (l, Except.ok v) ∈ out →
          u.vrN o.reg.toNat l (memRegs o.sz) = held o.sz v % 2 ^ (32 * memRegs o.sz)) ∧
        (∀ l e r, (l, Except.error e) ∈ out → u.vr r l = w.vr r l) ∧
        (∀ (j : BitVec 4) l, l < 1024 → (j = kd ∧ j ≠ 0 ∧ m.getLsbD l = true →
            ((u.kr j).getLsbD l = true ↔ ∃ e, (l, Except.error e) ∈ out)) ∧
          (¬(j = kd ∧ j ≠ 0 ∧ m.getLsbD l = true) → (u.kr j).getLsbD l = (w.kr j).getLsbD l)) ∧
        eff u = eff (onward { w0 with regs := { w0.regs with v := u.regs.v, k := u.regs.k } } b (g.pc + 1))

/-- Lane atomics and ordered accesses: where the check of every lane passes and its access is then performed,
an atomic and an acquire
load give each lane the old value, a release store leaves the registers alone, and the fences do what
their scope says; with no lane active, the ordered forms only go on (R97, R199 to R204). -/
def Sys2Proof.Claims.LaneAtomics : Prop :=
  ∀ (o : LAtom) (h : LHdr) (p : BitVec 3) (s : State) (F : Focus) (w : Swath) (g : Frag) (b : Bool),
    let w0 := entered F w g b o.h
    let m := active F w g b o.h
    let regs := tyRegs o.ty
    let n := 4 * regs
    let at_ (l : Nat) : Nat := memAddr o.m w l
    let mk := marked s F w g b o.h
    let va : LaneVa := fun l => some (at_ l)
    let ok := ∀ l ∈ lanesOf m, at_ l % n = 0
    let within (s' : State) (r : LRes Nat) : LRes Nat :=
      if acquireClamped s' F o.scope.toNat then .trap (raise .scopeClamp) else r
    let clamps (i : Instr) : Prop := ∀ l r, lanesOf m = l :: r →
      acquireClamped mk F o.scope.toNat = true → exec i s = .next (mk.laneFault F (enteredFrag F g o.h) b
        { raise .scopeClamp with lane := l, lanes := m })
    let atomic (i : Instr) (k : Nat) (f : Nat → Nat → Option Nat) : Prop :=
      LaneClear s F w g b o.h (vregs o.va.toNat k ++ memNames o.m) (vregs o.vd.toNat regs) → ok →
      (∀ out s1, Performed F va (fun l s' => within s' ((loggedAtomic F l
          (scopeLevel s' F.launch o.scope.toNat) (o.scope = 6) s' (at_ l) n
          (f (w.vrN o.va.toNat l k))).lane F (at_ l))) (lanesOf m) mk out s1 →
        ∃ u, Goes s1 F (onwardRegion F u b (g.pc + 1)) (exec i s) ∧ Holds w0 u o.vd.toNat regs out) ∧
      clamps i
    let op (a : AOp) (v old : Nat) : Option Nat := some (a.new (32 * regs) old v)
    atomic (.laneAtomAdd o) regs (op .add) ∧ atomic (.laneAtomMin o) regs (op .min) ∧
    atomic (.laneAtomMax o) regs (op .max) ∧ atomic (.laneAtomUmin o) regs (op .umin) ∧
    atomic (.laneAtomUmax o) regs (op .umax) ∧ atomic (.laneAtomAnd o) regs (op .and) ∧
    atomic (.laneAtomOr o) regs (op .or) ∧ atomic (.laneAtomXor o) regs (op .xor) ∧
    atomic (.laneAtomXchg o) regs (op .xchg) ∧
    atomic (.laneAtomCas o) (2 * regs) (fun v old =>
      if old = v % 2 ^ (32 * regs) then some (v / 2 ^ (32 * regs)) else none) ∧
    atomic (.laneAtomFadd o) 1 (fun v old => some (binary32.add RNE 0 old v).1) ∧
    (LaneClear s F w g b o.h (memNames o.m) (vregs o.vd.toNat regs) →
      (m = 0 → Goes s F (onward w0 b (g.pc + 1)) (exec (.laneLdacq o) s)) ∧
      (m ≠ 0 → ok → (∀ out s1,
        Performed F va (fun l s' => within s' ((scopedLoad F s' o.scope.toNat (at_ l) n).lane F (at_ l)))
          (lanesOf m) mk out s1 →
        ∃ u, Goes (partyAcquire F s1 o.scope.toNat) F (onward u b (g.pc + 1)) (exec (.laneLdacq o) s) ∧
          Holds w0 u o.vd.toNat regs out) ∧ clamps (.laneLdacq o))) ∧
    (LaneClear s F w g b o.h (vregs o.va.toNat regs ++ memNames o.m) [] →
      (m = 0 → Goes s F (onward w0 b (g.pc + 1)) (exec (.laneStrel o) s)) ∧
      (m ≠ 0 → ok → ∀ sc c s1 out s2, releaseScope mk F o.scope.toNat = some (sc, c) →
        partyRelease F mk sc = .ok () s1 →
        Performed F va (fun l s' => (gStore F (scopeLevel s' F.launch sc) (sc = 6) s' (at_ l)
          (w.vrN o.va.toNat l regs) n).lane F (at_ l)) (lanesOf m) s1 out s2 →
        Goes s2 F (onward (w0.addLaneFlags (if c then flSCOPE else 0)) b (g.pc + 1))
          (exec (.laneStrel o) s))) ∧
    (let v0 := entered F w g b h
     let mk := marked s F w g b h
     LaneClear s F w g b h [] [] →
      (active F w g b h = 0 → Goes s F (onward v0 b (g.pc + 1)) (exec (.laneFenceFull h p) s) ∧
        Goes s F (onward v0 b (g.pc + 1)) (exec (.laneFenceAcq h p) s) ∧
        Goes s F (onward v0 b (g.pc + 1)) (exec (.laneFenceRel h p) s)) ∧
      (active F w g b h ≠ 0 → releaseScope mk F p.toNat = none →
        let stop := Host.Outcome.next (mk.laneFault F (enteredFrag F g h) b (raise .scopeClamp))
        exec (.laneFenceAcq h p) s = stop ∧ exec (.laneFenceFull h p) s = stop ∧
        exec (.laneFenceRel h p) s = stop) ∧
      (active F w g b h ≠ 0 → ∀ sc c, releaseScope mk F p.toNat = some (sc, c) →
        let u := onward (v0.addLaneFlags (if c then flSCOPE else 0)) b (g.pc + 1)
        Goes (partyAcquire F mk sc) F u (exec (.laneFenceAcq h p) s) ∧
        (∀ s1, partyRelease F mk sc = .ok () s1 →
          Goes (partyAcquire F s1 sc) F u (exec (.laneFenceFull h p) s) ∧
          Goes s1 F u (exec (.laneFenceRel h p) s))))

/-- Accumulator elements: `ACCRD` gives each active lane its element, `ACCWR` writes it, `ACCADD` adds to
it exactly in INT32 and with one rounding in FP32; a tile beyond the field's is `ILLEGAL`, an
element beyond 4,095 `RANGE` of the lowest such lane, and nothing is accessed while a matrix operation
that names the tile is not complete (R101, R102). -/
def Sys2Proof.Claims.AccumulatorForms : Prop :=
  ∀ (o : LAcc) (s : State) (F : Focus) (w : Swath) (g : Frag) (b : Bool) (f : Field),
    s.field? F.fid = some f →
    let w0 := entered F w g b o.h
    let mk := marked s F w g b o.h
    let ls := lanesOf (active F w g b o.h)
    let elem (l : Nat) : Nat := opVal o.e w .n32 l
    let key (l : Nat) : Nat := o.tile.toNat * 4096 + elem l
    let inRange := o.tile.toNat < f.tiles ∧ ∀ l ∈ ls, elem l < 4096
    let withAcc (acc : NMap W32) : State := s.updField F.fid (fun (x : Field) => { x with acc := acc })
    let stops (i : Instr) : Prop :=
      (f.tiles ≤ o.tile.toNat →
        exec i s = .next (s.laneFault F g b (raise .illegal))) ∧
      (o.tile.toNat < f.tiles → ∀ l, l ∈ ls → 4096 ≤ elem l → (∀ j ∈ ls, 4096 ≤ elem j → l ≤ j) →
        ∃ r, exec i s = .next (mk.laneFault F (enteredFrag F g o.h) b r) ∧ r.cause = .range ∧ r.lane = l) ∧
      (inRange → tileBusy f o.tile.toNat = true → exec i s = .next mk)
    (LaneClear s F w g b o.h (opNames o.e .n32) [.v o.reg.toNat] → stops (.accrd o) ∧
      (inRange → tileBusy f o.tile.toNat = false →
        ∃ u, Goes s F (onward u b (g.pc + 1)) (exec (.accrd o) s) ∧
          Holds w0 u o.reg.toNat 1 (ls.map (fun l => (l, (mgetD f.acc (key l) 0).toNat))))) ∧
    (LaneClear s F w g b o.h (.v o.reg.toNat :: opNames o.e .n32) [] → stops (.accwr o) ∧
      stops (.accadd o) ∧
      (inRange → tileBusy f o.tile.toNat = false → ls.Pairwise (fun i j => key i ≠ key j) →
        ∃ acc, Goes (withAcc acc) F (onward w0 b (g.pc + 1)) (exec (.accwr o) s) ∧
          (∀ l ∈ ls, mget acc (key l) = some (BitVec.ofNat 32 (w.vr o.reg.toNat l))) ∧
          (∀ k, (∀ l ∈ ls, k ≠ key l) → mget acc k = mget f.acc k)) ∧
      (inRange → tileBusy f o.tile.toNat = false → fmtACC g.fmt = 8 →
        ∃ acc, Goes (withAcc acc) F (onwardRegion F w0 b (g.pc + 1)) (exec (.accadd o) s) ∧
          (∀ k, mgetD acc k 0 = mgetD f.acc k 0 +
            ((ls.filter (fun l => key l == k)).map (fun l => BitVec.ofNat 32 (w.vr o.reg.toNat l))).foldl
              (· + ·) 0)) ∧
      (inRange → tileBusy f o.tile.toNat = false → fmtACC g.fmt ≠ 8 → ∀ l, ls = [l] →
        let r := binary32.add (effMode o.sub (enteredFrag F g o.h))
          (nthDraw (w.eng.laneGen l) 0).toNat (mgetD f.acc (key l) 0).toNat (w.vr o.reg.toNat l)
        ∃ acc u, Goes (withAcc acc) F (onwardRegion F u b (g.pc + 1)) (exec (.accadd o) s) ∧
          mget acc (key l) = some (BitVec.ofNat 32 r.1) ∧
          (∀ k, k ≠ key l → mget acc k = mget f.acc k) ∧
          flAll (u.regs.laneFlags.map (·.2)) = flAll (w.regs.laneFlags.map (·.2)) ||| r.2 ∧
          u = { w0 with regs := { w0.regs with laneFlags := u.regs.laneFlags },
                        eng := { w0.eng with lgen := u.eng.lgen } }))

/-- Lane loads, stores and tolerant gathers: `LaneMemory` and `TolerantGathers`. -/
def Obligations.LaneLoadsAndStores : Prop :=
  Claims.LaneMemory ∧ Claims.TolerantGathers

/-- Lane atomics, ordering forms and accumulator accesses: `LaneAtomics` and `AccumulatorForms`. -/
def Obligations.LaneAtomicsAndAccumulators : Prop :=
  Claims.LaneAtomics ∧ Claims.AccumulatorForms
/-! ### Windows between devices -/

/-- `WPOST`, `WGET` and `WCNTW` on a program's swath. A length of 0 or a nonzero reserved field is
`ENGINE_ARG`, an import number from 1,024 on `RANGE`, an entry that is no import of that permission
`WINDOW_INVALID`. An import that is not registered is asked for once, and the instruction waits; a
transfer beyond the registered length is `RANGE`; any other is issued, and the window counter rises by
one. `WCNTW` waits until the arrival counter of an export reaches its threshold and returns it (R210 to
R213, R329, R330). -/
def Sys2Proof.Claims.WindowIssue : Prop :=
  ∀ (d a c : BitVec 6) (b : BitVec 5) (st : BitVec 2) (s : State) (F : Focus) (w : Swath),
    F.pager = none →
    let off := (w.xpair b).1
    let v := (w.xpair b).2
    let num := (v.extractLsb' 0 16).toNat
    let len := (v.extractLsb' 16 32).toNat
    let regs := xs [a, b ++ 0#1, b ++ 1#1]
    let one (i : Instr) (post : Bool) : Prop :=
      (v.extractLsb' 48 16 ≠ 0 ∨ len = 0 → exec i s = .next (s.scalarFault F (raise .engineArg))) ∧
      (v.extractLsb' 48 16 = 0 → len ≠ 0 → 1024 ≤ num → exec i s = .next (s.scalarFault F (raise .range))) ∧
      (v.extractLsb' 48 16 = 0 → len ≠ 0 → num < 1024 → ∀ e s1,
        winEntry s F.die F.ctx num = .ok (e, s1) →
        (winImport e.words post = false → exec i s = .next (s.scalarFault F (raise .windowInvalid))) ∧
        (winImport e.words post = true →
          (e.reg = none → let t := s1.askImport F.ctx e
            ∀ v, (t.ctx? F.ctx).bind (·.win num) = some v →
              (v.reg = none →
                Goes t F { w with ctl := { w.ctl with wait := .wreg num } } (exec i s)) ∧
              (v.reg ≠ none → exec i s = .next t)) ∧
          (∀ n, e.reg = some n → n < off.toNat + len →
            exec i s = .next (s.scalarFault F (raise .range))) ∧
          (∀ n, e.reg = some n → off.toNat + len ≤ n →
            let t := s1.issueXfer F (newXfer s1.nextUid post (w.xr a) off.toNat num len e.words)
            ∀ w1, t.swathOf F.party = some w1 → Goes t F (past w1).scalarRegion (exec i s))))
    -- what issuing does: the transfer joins the swath's, the window counter rises by one, and its
    -- requests are sent; those of a `WGET` from another node that can be reached leave it sent
    (∀ (s1 : State) (u : Swath) (g : Field) (x : Xfer),
      s1.field? F.fid = some g → mget g.sws F.sw = some u → F.party = .scalar F.fid F.sw →
      let t := s1.issueXfer F x
      (∃ s2 g2, t = s2.sendXfer F.fid F.sw g2 { u with eng := { u.eng with
          xfers := u.eng.xfers ++ [x], windows := u.eng.windows + 1 } } x ∧
        s2.field? F.fid = some g2 ∧ mget g2.sws F.sw = some { u with eng := { u.eng with
          xfers := u.eng.xfers ++ [x], windows := u.eng.windows + 1 } } ∧
        s2.nextUid = s1.nextUid + 1 ∧ SameBytes s1 s2) ∧
      (x.post = false → x.node ≠ thisNode → x.revoked = false → s1.unreachable x.node = false →
        (∀ y ∈ u.eng.xfers, y.uid ≠ x.uid) → ∃ u2, t.swathAt F.fid F.sw = some u2 ∧
          u2.eng.windows = u.eng.windows + 1 ∧
          u2.eng.xfers = u.eng.xfers ++ [{ x with phase := .sent }] ∧ u2.regs = u.regs)) ∧
    (Clear s F w regs [] → w.eng.windows < 255 → one (.wpost a b st) true ∧ one (.wget a b st) false) ∧
    (Clear s F w (xs [a, c]) (xs [d]) →
      let k := (w.xr a).toNat
      (1024 ≤ k → exec (.wcntw d a c st) s = .next (s.scalarFault F (raise .range))) ∧
      (k < 1024 → acquireClamped s F 5 = false → ∀ e s1,
        winEntry s F.die F.ctx k = .ok (e, s1) →
        (winExport e.words = false →
          exec (.wcntw d a c st) s = .next (s.scalarFault F (raise .windowInvalid))) ∧
        (winExport e.words = true → ∀ n s2, arrivals s1 F k = .ok n s2 →
          ((w.xr c).toNat ≤ n.toNat →
            Goes (partyAcquire F s2 5) F (past (w.setX d.toNat n)) (exec (.wcntw d a c st) s)) ∧
          (n.toNat < (w.xr c).toNat →
            Goes s2 F { w with ctl := { w.ctl with wait := .wcntw d.toNat k (w.xr c) } }
              (exec (.wcntw d a c st) s))))) ∧
    (∀ fid sw dn k th n s1, s.residentAt fid sw = some (F, w) → w.ctl.wait = .wcntw dn k th →
      arrivals s F k = .ok n s1 →
      (th.toNat ≤ n.toNat → regionWar w.regs.chk w.ctl.rset [.x dn] = false →
        Goes (partyAcquire F s1 5) F
          (past (({ w with ctl := { w.ctl with wait := .none } } : Swath).setX dn n))
          (exec (.wcntwResume fid sw) s)) ∧
      (n.toNat < th.toNat → exec (.wcntwResume fid sw) s = .next s1))

/-- What becomes of a transfer to another agent: its accesses are sent on the lowest port of that agent; an
answer that fits marks it answered, an Unsupported Request ends it with `WINDOW_LOST`; an answered
`WPOST` sends its arrival write and is done; an answered `WGET` writes its bytes through the swath's core
L1, and is done once they are at the home; transfers count in order, the oldest first (R141, R211, R212,
R320, R331). -/
def Sys2Proof.Claims.WindowSteps : Prop :=
  ∀ (s : State) (fid sw : Nat) (f : Field) (w : Swath) (x : Xfer) (r : List Xfer),
    s.field? fid = some f → f.status = .resident → mget f.sws sw = some w →
    w.eng.xfers = x :: r → (∀ y ∈ r, y.uid ≠ x.uid) → x.waiting = false → x.node ≠ thisNode →
    let after (i : Instr) (msgs : List Out) (P : Swath → Prop) : Prop :=
      ∃ t u, exec i s = .next t ∧ t.swathAt fid sw = some u ∧ t.outbox = s.outbox ++ msgs ∧
        SameBytes s t ∧ u.regs = w.regs ∧ u.lanes = w.lanes ∧ P u
    (x.phase = .sent → heard s x.node = true → ∀ data, x.post = true ∨ data.length = x.len →
      after (.apertureResponse fid sw true data) [] (fun u => u.eng.windows = w.eng.windows ∧
        u.eng.xfers = { x with phase := .answered, data := data } :: r)) ∧
    (x.phase = .sent → heard s x.node = true → ∀ data,
      exec (.apertureResponse fid sw false data) s = .next (s.xferFault fid sw x (raise .windowLost))) ∧
    (x.phase = .answered → x.post = true → (∀ y ∈ r.head?, y.phase ≠ .done) →
      ∀ p, s.portTo x.node = some p → s.carries p = true →
      after (.wpostComplete fid sw)
        [.dataOut p x.node (apertureAddr x.pctx x.expno arrivalOff) (List.replicate 8 0)]
        (fun u => u.eng.xfers = r ∧ u.eng.windows = w.eng.windows - 1)) ∧
    (x.phase = .answered → x.post = false → x.revoked = false →
      ∀ s1, xferWrite (engineAgent f w) fid x.src.toNat 0 x.data s = .ok () s1 →
      exec (.wgetComplete fid sw) s = .next (s1.setXfer fid sw { x with phase := .written })) ∧
    (x.phase = .written → x.post = false → (∀ y ∈ r.head?, y.phase ≠ .done) →
      let A := engineAgent f w
      let l1 := xferL1 A x.src.toNat x.len
      let l2 := xferL2 A x.src.toNat x.len
      linesHold s (dirtyLines s l1 l2) = none →
      ∃ t u, exec (.wgetComplete fid sw) s = .next t ∧ t.swathAt fid sw = some u ∧
        SameBytes (s.flush l1 l2) t ∧
        u.eng.xfers = r ∧ u.eng.windows = w.eng.windows - 1 ∧ u.regs = w.regs) ∧
    (x.phase = .unsent → x.post = true →
      exec (.wpostComplete fid sw) s = .next (s.sendXfer fid sw f w x)) ∧
    (x.phase = .unsent → x.post = false → x.revoked = false →
      ∀ p, s.portTo x.node = some p → s.carries p = true →
      after (.wgetComplete fid sw) [.readOut p x.node (apertureAddr x.pctx x.expno x.off) x.len]
        (fun u => u.eng.xfers = { x with phase := .sent } :: r))

/-- Registration as the importer sees it: an acknowledgement keeps the length and lets every waiting
instruction of the context go on; a refusal forgets the entry and ends each with `WINDOW_INVALID`; no
answer makes the exporter a dead agent and ends each with `WINDOW_LOST` (R330). -/
def Sys2Proof.Claims.WindowRegistration : Prop :=
  ∀ (s : State) (fid sw len reason : Nat) (c : Nat) (e : WinEnt) (x : Context),
    s.askedImport fid sw = some (c, e) → s.ctx? c = some x →
    (heard s e.node = true → ∃ t x', exec (.wregAck fid sw len) s = .next t ∧ t.ctx? c = some x' ∧
      (e.stale = false → x'.win e.num = some { e with reg := some len, asked := false }) ∧
      (e.stale = true → ∀ v ∈ x'.wins, v ≠ e) ∧ SameBytes s t ∧
      (∀ k n g w, mget s.fields k = some g → g.ctx = c → mget g.sws n = some w →
        w.ctl.wait = .wreg e.num → ∃ w', t.swathAt k n = some w' ∧ w'.ctl.wait = .none ∧
          w'.regs = w.regs)) ∧
    (heard s e.node = true →
      exec (.wregNak fid sw reason) s = .next (s.endImport c e (raise .windowInvalid))) ∧
    exec (.wregTimeout fid sw) s =
      .next ((s.agentDead (fld (e.words.getD 1 0) 11 0)).endImport c e (raise .windowLost)) ∧
    (heard s e.node = true → s.wregWaiters c e.num = [] →
      ∃ t x', exec (.wregNak fid sw reason) s = .next t ∧
        t.ctx? c = some x' ∧ (∀ v ∈ x'.wins, v ≠ e) ∧ SameBytes s t)

/-- As exporter: WREG is answered with the length, or refused for no export in order, a wrong key, or a
permission that is not given; an access beyond the length or without the permission is an Unsupported
Request, a read answers the bytes at the home; an arrival write raises the counter of a writable
export by one; a message of an unknown type is dropped and logged (R330, R331). -/
def Sys2Proof.Claims.Exports : Prop :=
  ∀ (s : State) (node pctx expno : Nat) (rd wr : Bool) (key : W32) (off n : Nat),
    heard s node = true → node ≠ thisNode →
    -- the request has taken a number, and waits no more
    let s0 : State := { s with nextUid := s.nextUid + 1,
                               exportWaits := s.exportWaits.filter (fun v => v.uid != s.nextUid) }
    let replies (i : Instr) (m : Out) : Prop := exec i s = .next (s0.send m)
    let vendor (i : Instr) (m : List (Nat × Nat)) : Prop := exec i s = .next (s0.vendor node m)
    let addr := 2 ^ 63 + pctx * 2 ^ 50 + expno * 2 ^ 40 + off
    (exportEntry s0 pctx expno = .ok none →
      vendor (.wreg node pctx expno rd wr key) [(0, 0x23), (1, 1)] ∧
      (pctx < 2 ^ 13 → expno < 2 ^ 10 → off < 2 ^ 40 →
        replies (.apertureAccess node addr none n) (.answer ansUR []))) ∧
    (∀ ws, exportEntry s0 pctx expno = .ok (some ws) →
      let w0 := ws.getD 0 0
      let len := (ws.getD 2 0).toNat
      ((w0 >>> 32).setWidth 32 ≠ key →
        vendor (.wreg node pctx expno rd wr key) [(0, 0x23), (1, 2)]) ∧
      ((w0 >>> 32).setWidth 32 = key → (rd = true ∧ w0.getLsbD 2 = false) ∨
          (wr = true ∧ w0.getLsbD 3 = false) →
        vendor (.wreg node pctx expno rd wr key) [(0, 0x23), (1, 3)]) ∧
      ((w0 >>> 32).setWidth 32 = key → (rd = true → w0.getLsbD 2 = true) →
          (wr = true → w0.getLsbD 3 = true) →
        vendor (.wreg node pctx expno rd wr key) [(0, 0x22), (8, len)]) ∧
      (pctx < 2 ^ 13 → expno < 2 ^ 10 → off < 2 ^ 40 →
        (len < off + n ∨ w0.getLsbD 2 = false →
          replies (.apertureAccess node addr none n) (.answer ansUR [])) ∧
        (off + n ≤ len → w0.getLsbD 2 = true → ∀ ds,
          exportBytes s0 pctx ((ws.getD 1 0).toNat + off) false n = .ok ds →
          replies (.apertureAccess node addr none n) (.answer ansData (ds.map (fun d =>
            match d with
            | some p => BitVec.ofNat 8 (homeRd s0 p 1)
            | none => 0)))) ∧
        (∀ data, off ≠ 2 ^ 40 - 8 → off + data.length ≤ len → w0.getLsbD 3 = true → ∀ ds s1,
          exportBytes s0 pctx ((ws.getD 1 0).toNat + off) true data.length = .ok ds →
          exportWrite (ds.zip data) s0 = .ok () s1 →
          exec (.apertureAccess node addr (some data) 0) s = .next (s1.send (.answer ansDone [])))) ∧
      (∀ x xl s1, s.ctx? pctx = some x → w0.getLsbD 3 = true →
        forContext s0 0 pctx (winEntryVa x expno + 24) true = .ok xl →
        ∀ want, replayGate s0 0 pctx 18 noSwath (BitVec.ofNat 64 expno) = .go want →
        let v : W64 := BitVec.ofNat 64 (homeRd s0 xl.dpa 8) + 1
        let t := s1.logEvent 0 pctx 18 noSwath (BitVec.ofNat 64 expno) v
        homePutHold s0 xl.dpa v.toNat 8 = .ok () s1 →
        ((∀ x, want = some x → x = v) →
          exec (.windowArrivalWrite node pctx expno) s = .next (t.send (.answer ansDone []))) ∧
        (∀ x, want = some x → x ≠ v → exec (.windowArrivalWrite node pctx expno) s =
          .next ((t.stopContext pctx).send (.answer ansDone []))))) ∧
    (∀ kind, kind ∉ [0x21, 0x22, 0x23, 0x31, 0x32] →
      exec (.vendorMessageInvalid kind) s = .next (s.heathLog 7 0 0 0 (BitVec.ofNat 64 kind)))

/-- Window instructions and their transfers: `WindowIssue` and `WindowSteps`. -/
def Obligations.WindowTransfers : Prop :=
  Claims.WindowIssue ∧ Claims.WindowSteps

/-- Registration of imports and service of exports: `WindowRegistration` and `Exports`. -/
def Obligations.WindowRegistrationAndExports : Prop :=
  Claims.WindowRegistration ∧ Claims.Exports
/-! ### Pager cores: page forms, leases, service records -/

namespace Sys2Proof.Claims

/-- A pager core's swath after a wait that ended with the value `v` in `x`r. -/
def ended (w : Swath) (r : Nat) (v : W64) : Swath :=
  past (({ w with ctl := { w.ctl with wait := .none } } : Swath).setX r v)

/-- A pager core that waits, in a state of one. -/
def PagerWaits (s : State) (die : Nat) (p : Pager) (k : SWait) : Prop :=
  mget s.pagers die = some p ∧ p.sw.ctl.wait = k

end Sys2Proof.Claims

/-- The page forms of a pager core return the statuses of R248: 4 outside the pool, 1 where there is
nothing to do, 2 and 3 where the lease or the node does not serve, and 0 with the effect: the unit
filled into a victim frame and its requesters ready, the frame evicted, the dual-home window opened, the
upgrade asked of the home. An operand that is no unit base is `ENGINE_ARG` (R248, R309, R323, R326). -/
def Sys2Proof.Claims.PageForms : Prop :=
  ∀ (d a : BitVec 6) (b : BitVec 5) (st : BitVec 2) (s : State) (F : Focus) (w : Swath),
    F.pager.isSome = true →
    let dpa := (w.xr a).toNat
    let unit := dpa / 65536
    let gives (i : Instr) (s1 : State) (v : Nat) : Prop :=
      Goes s1 F (past (w.setX d.toNat (BitVec.ofNat 64 v))).scalarRegion (exec i s)
    let waits (i : Instr) (s1 : State) (k : SWait) : Prop :=
      Goes s1 F { w with ctl := { w.ctl with wait := k } } (exec i s)
    (Clear s F w (xs [a]) (xs [d]) →
      (dpa % 65536 ≠ 0 → ∀ i ∈ [Instr.pgfill d a st, .pgevict d a st, .pgupg d a st],
        exec i s = .next (s.scalarFault F (raise .engineArg))) ∧
      (dpa % 65536 = 0 → (dregion dpa).tag ≠ 3 →
        gives (.pgfill d a st) s 4 ∧ gives (.pgevict d a st) s 4) ∧
      (dpa % 65536 = 0 → (dregion dpa).tag = 3 →
        ((presentFrame s unit).isSome = true → gives (.pgfill d a st) (s.wakeUnit unit) 1) ∧
        (∀ k, presentFrame s unit = none → pageStatus s dpa = some k → gives (.pgfill d a st) s k) ∧
        (presentFrame s unit = none → pageStatus s dpa = none → cacheFrame s unit = none →
          (bypasses s unit (fillCharge s unit) = true → gives (.pgfill d a st) (s.wakeUnit unit) 7) ∧
          (bypasses s unit (fillCharge s unit) = false → ∀ f s1,
            s.takeFrame unit (fillCharge s unit) 0 = some (f, s1) →
            gives (.pgfill d a st) ((s1.fillFrame f).wakeUnit unit) 0)) ∧
        (cacheFrame s unit = none → gives (.pgevict d a st) s 1) ∧
        (∀ f, cacheFrame s unit = some f →
          (s.frame f).st = .clean ∨ (s.frame f).st = .dirty ∨ (s.frame f).st = .shared →
          (∀ k, pageStatus s dpa = some k → gives (.pgevict d a st) s k) ∧
          (pageStatus s dpa = none → backShut s f = false →
            gives (.pgevict d a st) (s.evictFrame f) 0))) ∧
      (dpa % 65536 = 0 → (cacheFrame s unit = none ∨ ∃ f, cacheFrame s unit = some f ∧
        (s.frame f).st ≠ .shared) → gives (.pgupg d a st) s 1) ∧
      (dpa % 65536 = 0 → ∀ f, cacheFrame s unit = some f → (s.frame f).st = .shared →
        (backing s dpa = none → gives (.pgupg d a st) s 2) ∧
        (∀ n l pa, backing s dpa = some (n, l, pa) →
          (l.st ≠ .live → gives (.pgupg d a st) s 2) ∧
          (l.st = .live → waits (.pgupg d a st) (s.beginUpgrade f) (.pgupg d.toNat unit) ∧
            ((s.beginUpgrade f).frame f).st = .upgrading ∧
            ((s.frame f).unit = unit → s.beginUpgrade f =
              (s.setFrame f { s.frame f with st := .upgrading }).vendor l.node
                [(0, 0x31), (8, pa / 65536 * 65536)]))))) ∧
    (Clear s F w (xs [a, b ++ 0#1, b ++ 1#1]) (xs [d]) →
      let dst := ((w.xpair b).1.extractLsb' 0 12).toNat
      let off := (w.xpair b).2.toNat
      (dpa % 65536 ≠ 0 → exec (.pgmove d a b st) s = .next (s.scalarFault F (raise .engineArg))) ∧
      (dpa % 65536 = 0 → (dregion dpa).tag ≠ 3 → gives (.pgmove d a b st) s 4) ∧
      (dpa % 65536 = 0 → (dregion dpa).tag = 3 → (∀ m ∈ s.moves, m.unit ≠ unit) →
        (∀ k, pageStatus s dpa = some k → gives (.pgmove d a b st) s k) ∧
        (pageStatus s dpa = none → (s.lease dst).st = .lost → gives (.pgmove d a b st) s 3) ∧
        (pageStatus s dpa = none → (s.lease dst).st ≠ .lost → (s.lease dst).st ≠ .live →
          gives (.pgmove d a b st) s 2) ∧
        (pageStatus s dpa = none → (s.lease dst).st = .live → (s.node (s.lease dst).node).lost = false →
          (s.node (s.lease dst).node).route ≠ 0 →
          (off % 65536 ≠ 0 ∨ (s.lease dst).len * 65536 ≤ off ∨ redirectsFull s (homeDie dpa) unit = true →
            gives (.pgmove d a b st) s 5) ∧
          (off % 65536 = 0 → off < (s.lease dst).len * 65536 →
            redirectsFull s (homeDie dpa) unit = false →
            ∃ m, m.unit = unit ∧ m.die = homeDie dpa ∧ m.dst = dst ∧ m.off = off ∧ m.copied = false ∧
              waits (.pgmove d a b st) { s with moves := s.moves ++ [m] } (.pgmove d.toNat unit)))))

/-- A fill gives a frame the bytes of its unit at the unit's home, and a write-back gives the home those of
the frame, sealed line by line where the unit is marked with a key; no other byte of device memory changes
with a fill, nor of the pool with a write-back. An eviction writes the copies of the unit's lines back,
leaves the home of a DIRTY frame with the frame's bytes, and the frame FREE with its fields cleared; the
other frames are as the write-backs left them (R248, R272, R405). -/
def Sys2Proof.Claims.FillsAndEvictions : Prop :=
  ∀ (s : State) (f pa : Nat), s.mem.wf = true → s.pool.wf = true →
    unitHomes s (s.frame f).unit = [pa] →
    let unit := (s.frame f).unit
    let base := frameDpa f
    (let t := s.fillFrame f
     (∀ i < 65536, t.mem.rd (base + i) = (poolUnit s pa (unitKey s unit)).rd i) ∧
     (∀ x, x < base ∨ base + 65536 ≤ x → t.mem.rd x = s.mem.rd x) ∧ t.pool = s.pool ∧
     ((t.frame f).st = .clean ∨ (t.frame f).st = .shared) ∧ (t.frame f).unit = unit ∧
     (∀ g, g ≠ f → t.frame g = s.frame g) ∧ t.fields = s.fields) ∧
    let home (s t : State) : Prop :=
      (unitKey s unit = none → ∀ i < 65536, t.pool.rd (pa + i) = s.mem.rd (base + i)) ∧
      (∀ k, unitKey s unit = some k → ∀ i < 512,
        t.pool.line (pa + 128 * i) = sealLine (some k) i (s.mem.line (base + 128 * i))) ∧
      (∀ x, x < pa ∨ pa + 65536 ≤ x → t.pool.rd x = s.pool.rd x)
    (let t := s.writeBackFrame f
     home s t ∧ t.mem = s.mem) ∧
    (let s1 := s.flushUnit unit
     let t := s.evictFrame f
     (t.frame f).st = .free ∧ (t.frame f).unit = 0 ∧ (t.frame f).lease = 0 ∧ (t.frame f).charge = 0 ∧
     (t.frame f).hold = 0 ∧ t.fields = s.fields ∧ t.mem = s1.mem ∧
     (∀ g, g ≠ f → t.frame g = s1.frame g) ∧
     ((s1.frame f).st = .dirty → home s1 t) ∧ ((s1.frame f).st ≠ .dirty → t.pool = s1.pool) ∧
     ((s.frame f).st = .dirty → (s1.frame f).st = .dirty) ∧
     ((∀ c, c ∈ s.l1 ∨ c ∈ s.l2 → inUnit unit c = true → c.dirty = 0) →
       s1.mem = s.mem ∧ s1.pool = s.pool ∧ s1.frames = s.frames) ∧
     ∀ c, (c ∈ t.l1 ∨ c ∈ t.l2) → inUnit unit c = false)

/-- `LEASEOP`: a lease number beyond 12 bits, an argument that is not 0 of another form than a renewal, and
a renewal of 0 or of 2^32 or more, is `ENGINE_ARG`;
an EMPTY lease is UNKNOWN (2); a query returns word 0 of the entry and changes nothing; an acknowledged
warning sets ACK; a renewal of a LIVE or EXPIRED lease sends RENEW and waits; a release of a LIVE lease
evicts its frames, sends RELEASE and waits, and one of an EXPIRED, REVOKED or LOST lease makes it EMPTY
at once (R249, R303, R305). -/
def Sys2Proof.Claims.LeaseOperations : Prop :=
  ∀ (d a b : BitVec 6) (st : BitVec 2) (s : State) (F : Focus) (w : Swath),
    F.pager.isSome = true →
    let n := (w.xr a).toNat
    let l := s.lease n
    let gives (i : Instr) (s1 : State) (v : W64) : Prop :=
      Goes s1 F (past (w.setX d.toNat v)).scalarRegion (exec i s)
    let waits (i : Instr) (s1 : State) (k : SWait) : Prop :=
      Goes s1 F { w with ctl := { w.ctl with wait := k } } (exec i s)
    let bad (i : Instr) : Prop := exec i s = .next (s.scalarFault F (raise .engineArg))
    (Clear s F w (xs [a, b]) (xs [d]) →
      (4096 ≤ n ∨ w.xr b ≠ 0 → bad (.leaseopQuery d a b st) ∧ bad (.leaseopRelease d a b st) ∧
        bad (.leaseopAckwarn d a b st)) ∧
      (n < 4096 → w.xr b = 0 →
        Goes s F (past (w.setX d.toNat (leaseWord l))) (exec (.leaseopQuery d a b st) s) ∧
        (l.st = .empty → gives (.leaseopAckwarn d a b st) s 2 ∧ gives (.leaseopRelease d a b st) s 2) ∧
        (l.st ≠ .empty → gives (.leaseopAckwarn d a b st) (s.setLease n { l with ack := true }) 0) ∧
        (l.st = .expired ∨ l.st = .revoked ∨ l.st = .lost →
          gives (.leaseopRelease d a b st) ((s.dropLease n).emptyLease n) 0) ∧
        (l.st = .live → w.ctl.wait = .none → (∀ f ∈ leaseFrames s n, backShut s f = false ∧ (s.frame f).st ≠ .filling ∧
            (s.frame f).st ≠ .writeback ∧ (s.frame f).st ≠ .upgrading) →
            (∀ c, c ∈ s.l1 ∨ c ∈ s.l2 → frameless s n c = true → c.dirty ≠ 0 →
              poolShut s (c.dpa / 512) = false) →
          let s1 := s.evictLease n
          waits (.leaseopRelease d a b st) ((s1.setLeaseSt n { s1.lease n with
            st := .releasing, remain := 0 }).leaseMsg F.die 7 n 0) (.leaseop d.toNat n true)) ∧
        (l.st = .releasing → waits (.leaseopRelease d a b st) (s.leaseMsg F.die 7 n 0)
          (.leaseop d.toNat n true)))) ∧
    (Clear s F w (xs [a, b]) (xs [d]) →
      let v := (w.xr b).toNat
      (4096 ≤ n ∨ v = 0 ∨ 2 ^ 32 ≤ v → bad (.leaseopRenew d a b st)) ∧
      (n < 4096 → 0 < v → v < 2 ^ 32 →
        (l.st = .empty → gives (.leaseopRenew d a b st) s 2) ∧
        (l.st = .live ∨ l.st = .expired → waits (.leaseopRenew d a b st) (s.leaseMsg F.die 2 n v)
          (.leaseop d.toNat n false)) ∧
        (l.st = .revoked ∨ l.st = .lost ∨ l.st = .releasing → gives (.leaseopRenew d a b st) s 1))) ∧
    -- a message goes out on the MGRPORT of the die, with its fields at the bytes of R314
    (∀ kind k ext p, mget s.pagers F.die = some p → s.carries p.mgrPort = true →
      s.leaseMsg F.die kind k ext = s.send (.lease p.mgrPort
        (vdm [(0, kind), (2, k), (4, (s.lease k).node), (24, ext)])))

/-- The answers about a lease: RENEW_ACK makes a LIVE or EXPIRED lease LIVE with the time granted, and
clears WARN and ACK above 10,000 ms; RELEASE_ACK empties a RELEASING lease; the core that waits gets 0;
a refusal gives it 1 and 100 ms without an answer 3, with no change of the lease (R249, R305, R306,
R314). -/
def Sys2Proof.Claims.LeaseAnswers : Prop :=
  ∀ (s : State) (n remain die r : Nat) (p : Pager) (k : Bool),
    PagerWaits s die p (.leaseop r n k) →
    let l := s.lease n
    let answered (i : Instr) (v : W64) (P : State → Prop) : Prop :=
      ∃ t q, exec i s = .next t ∧ mget t.pagers die = some q ∧
        eff q.sw = eff (ended p.sw r v).scalarRegion ∧ SameBytes s t ∧ t.fields = s.fields ∧ P t
    ((l.st = .live ∨ l.st = .expired) → k = false → answered (.renewAck n remain) 0 (fun t =>
      t.lease n = { l with st := .live, remain := remain, warn := l.warn && decide (remain ≤ 10000),
                           ack := l.ack && decide (remain ≤ 10000) } ∧
      ∀ m, m ≠ n → t.lease m = s.lease m)) ∧
    (k = false → answered (.renewNak n) 1 (fun t => t.leases = s.leases)) ∧
    (l.st = .releasing → k = true → answered (.releaseAck n) 0 (fun t => (t.lease n).st = .empty ∧
      (t.lease n).dbase = 0 ∧ (∀ x ∈ t.redirects, x.src ≠ n) ∧ ∀ m, m ≠ n → t.lease m = s.lease m)) ∧
    answered (.leaseopTimeout die) 3 (fun t => t.leases = s.leases)

/-- The life of a lease: GRANT fills an EMPTY one; at 10,000 ms a LIVE lease warns once, again each time
until it is acknowledged; at 0 it expires; REVOKE revokes a LIVE or EXPIRED one, frees its clean frames and
answers REVOKE_ACK once, when that is done and no store that no frame stands behind is left; a node that is lost takes every lease on it; anything out of
order is logged and changes no lease (R305, R306, R307, R311, R314). -/
def Sys2Proof.Claims.LeasesLiveAndEnd : Prop :=
  ∀ (s : State) (n node pool len remain : Nat) (safe : Bool),
    let l := s.lease n
    let goesTo (i : Instr) (P : State → Prop) : Prop := ∃ t, exec i s = .next t ∧ SameBytes s t ∧
      t.fields = s.fields ∧ P t
    let others (t : State) : Prop := ∀ m, m ≠ n → t.lease m = s.lease m
    (n < 4096 → node < 4095 → 0 < len → len ≤ 2 ^ 34 → remain < 2 ^ 32 → pool % 65536 = 0 →
      pool < 2 ^ 50 → l.st = .empty → goesTo (.grant n node pool len safe remain) (fun t =>
        others t ∧ (t.lease n).node = node ∧ (t.lease n).pbase = pool ∧ (t.lease n).len = len ∧
        (t.lease n).safe = safe ∧ (t.lease n).remain = remain ∧ (t.lease n).dbase = 0 ∧
        (t.lease n).st = if (t.node node).lost then .lost else .live)) ∧
    (l.st ≠ .empty → goesTo (.grant n node pool len safe remain) (fun t => t.leases = s.leases)) ∧
    (l.st = .live → l.remain ≤ 10000 → l.ack = false → l.warn = false →
      goesTo (.leaseWarn n) (fun t => others t ∧ t.lease n = { l with warn := true })) ∧
    (l.st = .live → l.warn = true → l.ack = false → exec (.leaseWarnRepeat n) s =
      .next (s.service (n % 4) { kind := 1, lease := n, event := 0, coords := 0 })) ∧
    (l.st = .live → l.remain = 0 →
      goesTo (.leaseExpire n) (fun t => others t ∧ t.lease n = { l with st := .expired })) ∧
    (let ack (p : Pager) : Out := .lease p.mgrPort (vdm [(0, 6), (2, n), (4, l.node), (24, 0)])
     ((l.st = .live ∨ l.st = .expired) → ∃ t, exec (.revoke n) s = .next t ∧ others t ∧
      t.lease n = { l with st := .revoked, remain := 0, ackDue := (t.lease n).ackDue } ∧
      (leaseFrames s n = [] → (∀ c, c ∈ s.l1 ∨ c ∈ s.l2 → frameless s n c = false) →
        (t.lease n).ackDue = false ∧
        ∀ p, mget s.pagers (n % 4) = some p → s.carries p.mgrPort = true →
          t.outbox.getLast? = some (ack p)) ∧
      (leaseFrames t n ≠ [] → (∀ f ∈ leaseFrames t n, (t.frame f).st ≠ .dirty) →
        (t.lease n).ackDue = true)) ∧
     (l.ackDue = false → exec (.revokeAck n) s = .next s) ∧
     (l.ackDue = true → (∀ f ∈ leaseFrames s n, (s.frame f).st = .dirty) →
      let s1 := s.drainLease n
      exec (.revokeAck n) s = .next (if leaseStirs s1 n then s1
        else (s1.leaseMsg (n % 4) 6 n 0).setLease n { s1.lease n with ackDue := false })) ∧
     (l.ackDue = true → (∃ f ∈ leaseFrames s n, (s.frame f).st ≠ .dirty) →
      exec (.revokeAck n) s = .next s)) ∧
    (¬(l.st = .live ∨ l.st = .expired) → goesTo (.revoke n) (fun t => t.leases = s.leases)) ∧
    (∃ t, exec (.nodeDown node) s = .next t ∧ (t.node node).lost = true ∧
      (l.node = node → l.st ≠ .empty → (t.lease n).st = .lost) ∧
      (l.node ≠ node → t.lease n = l)) ∧
    (∀ kind, goesTo (.leaseMessageInvalid kind) (fun t => t.leases = s.leases ∧
      t = s.heathLog 7 0 0 0 (BitVec.ofNat 64 kind)))

/-- Binding, routes and frame roles: a LIVE unbound lease is bound to a free range of pool space and is
unbound once no frame holds a unit of it; a route of a node changes by itself; a frame that is FREE takes
the role written, and a write that names no frame of the four dies does nothing (R13, R271, R302, R304,
R311, R313). Passing over LOCAL frames in an unbind is the model's choice (notes/assumptions/165.md). -/
def Sys2Proof.Claims.BindingsRoutesAndRoles : Prop :=
  ∀ (s : State) (n node die frame : Nat) (v : W64) (mask : BitVec 16),
    let l := s.lease n
    let base := (v.extractLsb' 16 36).toNat * 65536
    (l.st ≠ .live → exec (.leaseDbaseWrite n v) s = .next s) ∧
    (l.st = .live → l.dbase = 0 → base ≠ 0 → poolBase ≤ base → base + l.len * 65536 ≤ poolEnd →
      (∀ m k, (m, k) ∈ s.leases → m ≠ n → k.dbase ≠ 0 →
        base + l.len * 65536 ≤ k.dbase ∨ k.dbase + k.len * 65536 ≤ base) →
      ∃ t, exec (.leaseDbaseWrite n v) s = .next t ∧ t.lease n = { l with dbase := base } ∧
        (∀ m, m ≠ n → t.lease m = s.lease m) ∧ SameBytes s t ∧ t.fields = s.fields) ∧
    (l.st = .live → base = 0 →
      (∀ x ∈ s.frames, x.2.st = .free ∨ x.2.role = .local_ ∨ x.2.lease ≠ n) →
      ∃ t, exec (.leaseDbaseWrite n v) s = .next t ∧ t.lease n = { l with dbase := 0 } ∧
        SameBytes s t ∧ ∀ r ∈ t.redirects, r.src ≠ n) ∧
    (l.st = .live → l.dbase ≠ 0 → base ≠ 0 → exec (.leaseDbaseWrite n v) s = .next s) ∧
    (∃ t, exec (.routeWrite node mask) s = .next t ∧ (t.node node).route = mask ∧
      (∀ m, m ≠ node → (t.node m).route = (s.node m).route)) ∧
    (let f := die * framesPerDie + frame
     let e := s.frame f
     (4 ≤ die ∨ framesPerDie ≤ frame → exec (.frameRoleWrite die frame v) s = .next s) ∧
     (e.st ≠ .free ∨ (e.role = .retired ∧ s.setsFixed = true) →
      exec (.frameRoleWrite die frame v) s = .next s) ∧
     (die < 4 → frame < framesPerDie → e.st = .free → s.setsFixed = false →
      let puts (r : FrRole) : Prop := exec (.frameRoleWrite die frame v) s =
        .next (s.setFrame f { e with role := r, unit := 0, lease := 0 })
      ((v.extractLsb' 61 3) = 0 → puts .direct) ∧ ((v.extractLsb' 61 3) = 1 → puts .cache) ∧
      ((v.extractLsb' 61 3) = 2 → puts .reserve) ∧ ((v.extractLsb' 61 3) = 4 → puts .retired) ∧
      ((v.extractLsb' 61 3) = 3 ∨ 5 ≤ (v.extractLsb' 61 3).toNat →
        exec (.frameRoleWrite die frame v) s = .next s)))

/-- Service records: one that waits enters a queue with room under a free index: of the lease records and of
a context's fault records the oldest, and no fault record of a context without a share while another
waits; DEQ gives the
oldest queued one's index, or bit 63 alone when none comes; COMPLETE frees the dequeued record and RETRY
makes its requesters ready; a record of another kind than a fault is freed by every action; an action
that is reserved does nothing to a fault's (R302, R308, R309, R310, R397). The number that a record gets as
it enters is the model's reading (notes/assumptions/152.md). -/
def Sys2Proof.Claims.ServiceRecords : Prop :=
  ∀ (s : State) (die idx : Nat) (p : Pager), mget s.pagers die = some p →
    ((∃ r ∈ p.recs, r.st = .waiting) → (∃ i < 1024, p.used.contains i = false) →
      ∃ t q i k r, exec (.serviceRecordAdmit die) s = .next t ∧ mget t.pagers die = some q ∧ i < 1024 ∧
        p.used.contains i = false ∧ p.recs[k]? = some r ∧ r.st = .waiting ∧
        (∀ j o, p.recs[j]? = some o → o.st = .waiting →
          (o.kind = 0 ∧ r.kind = 0 ∧ o.ctx = r.ctx) ∨ (o.kind ≠ 0 ∧ r.kind ≠ 0) → k ≤ j) ∧
        (r.kind = 0 → faultShare s r.ctx = 0 →
          ∀ o ∈ p.recs, o.st = .waiting → o.kind = 0 ∧ faultShare s o.ctx = 0) ∧
        q.recs = p.recs.set k { r with st := .queued, idx := i, seq := p.seq } ∧
        q.seq = p.seq + 1 ∧ t.fields = s.fields ∧ SameBytes s t) ∧
    (∀ rd len, p.sw.ctl.wait = .deq rd len →
      let read (v : W64) : Swath :=
        past (({ p.sw with ctl := { p.sw.ctl with wait := .none } } : Swath).setX rd v) len
      (∀ i recs, takeRecord p.recs = some (i, recs) → ∃ t q, exec (.deq die) s = .next t ∧
        mget t.pagers die = some q ∧ q.recs = recs ∧
        eff q.sw = eff (read (BitVec.ofNat 64 i)) ∧ SameBytes s t) ∧
      (takeRecord p.recs = none → ∃ t q, exec (.deqTimeout die) s = .next t ∧
        mget t.pagers die = some q ∧ q.recs = p.recs ∧
        eff q.sw = eff (read (BitVec.ofNat 64 (2 ^ 63))) ∧ SameBytes s t)) ∧
    (s.dequeued die idx = none →
      exec (.pagerCompleteRetry die idx) s = .next s ∧ exec (.pagerCompleteBind die idx) s = .next s ∧
      exec (.pagerCompleteTerminal die idx) s = .next s ∧
      exec (.pagerCompleteReserved die idx 3) s = .next s) ∧
    (∀ r, s.dequeued die idx = some r →
      (r.kind ≠ 0 → ∀ i ∈ [Instr.pagerCompleteRetry die idx, .pagerCompleteBind die idx,
          .pagerCompleteTerminal die idx, .pagerCompleteReserved die idx 3],
        exec i s = .next (s.freeRec die idx)) ∧
      (r.kind = 0 →
        exec (.pagerCompleteRetry die idx) s =
          .next (r.reqs.foldl State.wake (s.freeRec die idx)) ∧
        exec (.pagerCompleteTerminal die idx) s =
          .next (r.reqs.foldl (fun s q => s.endRequester r.cause q) (s.freeRec die idx)) ∧
        exec (.pagerCompleteReserved die idx 3) s = .next s ∧
        (r.cause ≠ Cause.firstTouch.code → exec (.pagerCompleteBind die idx) s = .next s) ∧
        (r.cause = Cause.firstTouch.code →
          (∀ e, bindAt s (32 + die) r.ctx r.va.toNat = .error e →
            exec (.pagerCompleteBind die idx) s = .next s) ∧
          (∀ k s1, bindAt s (32 + die) r.ctx r.va.toNat = .ok (k, s1) →
            let s2 : State := { s1 with pagers := mupd s1.pagers die (fun p => { p with result := k }) }
            exec (.pagerCompleteBind die idx) s =
              .next (if k ≤ 1 then s2.completeRetry die idx else s2))))) ∧
    (∀ v : W64, (∃ t q, exec (.pagerWindowWrite die 0x38 v) s = .next t ∧ mget t.pagers die = some q ∧
      q.mgrPort = (v.extractLsb' 0 4).toNat ∧ q.sw = p.sw) ∧
      (die ≠ 0 ∨ s.ckptRuns = true → exec (.pagerWindowWrite die 0x18 v) s = .next s) ∧
      (die = 0 → s.ckptRuns = false → v.getLsbD 12 = false → exec (.pagerWindowWrite die 0x18 v) s =
        .next { s with ckpt := (v.extractLsb' 0 14).setWidth 64 }) ∧
      (die = 0 → s.ckptRuns = false → v.getLsbD 12 = true → exec (.pagerWindowWrite die 0x18 v) s =
        exec (.checkpointStart (v.extractLsb' 0 12).toNat (v.getLsbD 13)) s)) ∧
    (p.running = false → p.imgLen ≠ 0 → ∃ t q, exec (.pagerRestart die) s = .next t ∧
      mget t.pagers die = some q ∧ q.running = true ∧ q.sw.regs.pc = 0 ∧ q.result = 0 ∧
      q.sram = p.sram ∧ (∀ r ∈ q.recs, r.st ≠ .dequeued) ∧ q.recs.length = p.recs.length)

/-- The page cache's own steps: a fill that has no frame starts for its group; one whose frame is
FILLING completes, and its waiters go on; an open dual-home window is copied and then switched; a LOCAL
frame that no range reaches is scrubbed and goes back to the reserve (R272, R274, R276, R326, R327). -/
def Sys2Proof.Claims.PageCacheEvents : Prop :=
  ∀ (s : State) (unit f die frame : Nat) (q : Fill),
    (s.fills.find? (fun x => x.unit == unit && x.frame.isNone) = none →
      exec (.pageFillStart unit) s = .next s) ∧
    (s.fills = [q] → q.unit = unit → q.frame = none → q.group = 0 → q.rq ≠ 4 →
      presentFrame s unit = none → pageStatus s (unit * 65536) = none →
      bypasses s unit q.ctx = false → cacheFrame s unit = none → ∀ s1,
      s.takeFrame unit q.ctx 0 = some (f, s1) →
      ∃ t, exec (.pageFillStart unit) s = .next t ∧ t.fills = [{ q with frame := some f }] ∧
        (t.frame f).st = .filling ∧ (t.frame f).unit = unit) ∧
    (s.fills.find? (fun x => x.unit == unit && x.frame.isSome) = some q → q.frame = some f →
      (s.frame f).st = .filling → (s.frame f).unit = unit →
      (∀ x ∈ s.fills, x.unit = unit → x.snooped = false) → portShut s unit = false →
      leaseGone (s.fillFrame f) f = false → (∀ k g, mget s.fields k = some g → g.status ≠ .swapped) →
      ∃ t, exec (.pageFillComplete unit) s = .next t ∧ t.mem = (s.fillFrame f).mem ∧
        t.pool = s.pool ∧ t.frames = (s.fillFrame f).frames ∧
        (∀ x ∈ t.fills, ¬(x.unit = unit ∧ x.frame.isSome = true)) ∧
        ∀ d p r, mget s.pagers d = some p → p.sw.ctl.wait = .pgfill r unit →
          ∃ p', mget t.pagers d = some p' ∧ eff p'.sw = eff (ended p.sw r 0).scalarRegion) ∧
    (∀ m, s.moves.find? (fun m => m.die == die) = some m →
      (m.copied = false → ∀ a b, unitHomes s m.unit = [a, b] → portShut s m.unit = false →
        (∀ q, s.poolPort (s.lease m.dst).node m.unit = some q → s.heath.fenced.getLsbD q = false) →
        ∃ t, exec (.pgmoveSwitch die) s = .next t ∧
        t.pool = (s.putPoolUnit b (unitKey s m.unit) (poolUnit s a (unitKey s m.unit))).pool ∧
        t.mem = s.mem ∧ { m with copied := true } ∈ t.moves) ∧
      (m.copied = true → ∃ t, exec (.pgmoveSwitch die) s = .next t ∧
        (∀ x ∈ t.moves, x.unit ≠ m.unit) ∧ SameBytes s t ∧
        t.redirects.find? (fun r => r.unit == m.unit) =
          some { die := die, unit := m.unit, src := m.src, dst := m.dst, off := m.off } ∧
        ∀ d p r, mget s.pagers d = some p → p.sw.ctl.wait = .pgmove r m.unit →
          ∃ p', mget t.pagers d = some p' ∧ eff p'.sw = eff (ended p.sw r 0).scalarRegion)) ∧
    (s.mem.wf = true → (s.frame frame).role = .local_ →
      (∀ x ∈ s.ctxs, ∀ r ∈ x.2.ranges,
        overlaps r.dbase (r.len * 65536) ((s.frame frame).unit * 65536) 65536 = false) →
      ∃ t, exec (.localFrameScrub frame) s = .next t ∧ (t.frame frame).role = .reserve ∧
        (t.frame frame).st = .free ∧ (∀ i < 65536, t.mem.rd (frameDpa frame + i) = 0) ∧
        (∀ x, x < frameDpa frame ∨ frameDpa frame + 65536 ≤ x → t.mem.rd x = s.mem.rd x) ∧
        t.pool = s.pool)

/-- The whole-device checkpoint: one that may not start changes nothing; one that starts is
in phase 1, and places no field; its first step leaves no dirty copy, and phase 2 begins; each further
step copies the next frame to its place in the lease, sealed line by line where the frame's unit is marked
with a key, and after the last frame the run ends in phase 3;
a lease that expires ends it too, as failed (R315). -/
def Obligations.CheckpointsCopyTheDevice : Prop :=
  ∀ (s : State) (n : Nat) (halt : Bool),
    let l := s.lease n
    (l.st ≠ .live ∨ l.dbase = 0 ∨ l.safe = false ∨ l.len < 3146113 ∨ s.ckptRuns = true →
      exec (.checkpointStart n halt) s = .next s) ∧
    (l.st = .live → l.dbase ≠ 0 → l.safe = true → 3146113 ≤ l.len → s.ckptRuns = false →
      ∃ t, exec (.checkpointStart n halt) s = .next t ∧ t.ckptStat = 1 ∧ t.placing = false ∧
        (n < 4096 → t.ckpt.extractLsb' 12 2 = (if halt then 3#2 else 1#2) ∧
          (t.ckpt.extractLsb' 0 12).toNat = n)) ∧
    (s.ckptRuns = false → exec .checkpointComplete s = .next s) ∧
    (s.ckptStat.extractLsb' 0 2 = 1#2 →
      linesHold s (dirtyLines s (fun _ => true) (fun _ => true)) = none →
      ∃ t, exec .checkpointComplete s = .next t ∧ t.ckptStat.extractLsb' 0 2 = 2#2 ∧
        (∀ c ∈ t.l1, c.dirty = 0) ∧ (∀ c ∈ t.l2, c.dirty = 0) ∧ t.fields = s.fields) ∧
    (s.ckptStat.extractLsb' 0 2 = 2#2 →
      let k := s.lease (s.ckpt.extractLsb' 0 12).toNat
      let f := nextCopied s s.frames.length s.heath.ckptAt
      let base := poolAddr k.node k.pbase
      (∀ q, s.poolPort k.node ((k.dbase + Nat.min f allFrames * 65536) / 65536) = some q →
        s.heath.fenced.getLsbD q = false) →
      (f < allFrames → s.mem.wf = true → s.pool.wf = true →
        ∃ t, exec .checkpointComplete s = .next t ∧ t.ckptRuns = true ∧ t.heath.ckptAt = f + 1 ∧
          (let key := if (s.frame f).st = .free then none else unitKey s (s.frame f).unit
           (key = none → ∀ i < 65536, t.pool.rd (base + f * 65536 + i) = s.mem.rd (frameDpa f + i)) ∧
           (∀ k, key = some k → ∀ i < 512, t.pool.line (base + f * 65536 + 128 * i) =
             sealLine (some k) i (s.mem.line (frameDpa f + 128 * i)))) ∧
          (∀ x, x < base + f * 65536 ∨ base + f * 65536 + 65536 ≤ x → t.pool.rd x = s.pool.rd x) ∧
          t.mem = s.mem ∧ t.fields = s.fields) ∧
      (allFrames ≤ f → ∃ t, exec .checkpointComplete s = .next t ∧ t.ckptStat = 3 ∧
        t.heath.halted = s.ckpt.getLsbD 13 ∧ t.mem = s.mem ∧ t.fields = s.fields)) ∧
    (s.ckptRuns = true → (s.ckpt.extractLsb' 0 12).toNat = n → l.st = .live → l.remain = 0 →
      ∃ t, exec (.leaseExpire n) s = .next t ∧ t.ckptStat = 7 ∧ t.heath.halted = false ∧
        SameBytes s t)

/-- Pager forms, fills and evictions: `PageForms` and `FillsAndEvictions`. -/
def Obligations.PageCacheForms : Prop :=
  Claims.PageForms ∧ Claims.FillsAndEvictions

/-- LEASEOP and its answers: `LeaseOperations` and `LeaseAnswers`. -/
def Obligations.LeaseForms : Prop :=
  Claims.LeaseOperations ∧ Claims.LeaseAnswers

/-- Leases run out, nodes are lost, bindings and frame roles: `LeasesLiveAndEnd` and
`BindingsRoutesAndRoles`. -/
def Obligations.LeasesNodesAndRoles : Prop :=
  Claims.LeasesLiveAndEnd ∧ Claims.BindingsRoutesAndRoles

/-- Service of faults, and what the page cache does by itself: `ServiceRecords` and `PageCacheEvents`.
-/
def Obligations.ServiceRecordsAndPageCacheSteps : Prop :=
  Claims.ServiceRecords ∧ Claims.PageCacheEvents
/-! ### Content -/

namespace Sys2Proof.Claims

/-- The result quad of a content form: the name's halves, the status, the count (R338). -/
def quadded (w : Swath) (d : BitVec 4) (n : BitVec 128) (status count : Nat) : Swath :=
  (((w.setX (4 * d.toNat) (n.setWidth 64)).setX (4 * d.toNat + 1) ((n >>> 64).setWidth 64)).setX
    (4 * d.toNat + 2) (BitVec.ofNat 64 status)).setX (4 * d.toNat + 3) (BitVec.ofNat 64 count)

/-- The registers that a content form writes. -/
def quadOf (d : BitVec 4) : List RegName :=
  [.x (4 * d.toNat), .x (4 * d.toNat + 1), .x (4 * d.toNat + 2), .x (4 * d.toNat + 3)]

end Sys2Proof.Claims

/-- References: a name that is present in a region that follows no other gains one reference up to the
highest count, which stays; dropping one lowers the count; the empty name has none; no other region and
no memory changes (R338, R340, R364, R368). -/
def Sys2Proof.Claims.ContentReferences : Prop :=
  ∀ (s : State) (id : Nat) (g : Region) (n : BitVec 128), mget s.regions id = some g →
    let up := s.gainRef id n
    let down := s.dropRef id n
    let c := countOf s id n
    (g.follow = false → present s g n = true →
      countOf up id n = min (c + 1) 0xFFFFFF ∧
      countOf down id n = if c = 0xFFFFFF then c else c - 1) ∧
    (n = 0 → up = s ∧ down = s ∧ c = 0) ∧
    (g.follow = true → up = s ∧ down = s ∧ c = 0) ∧
    up.mem = s.mem ∧ up.pool = s.pool ∧ up.fields = s.fields ∧
    down.mem = s.mem ∧ down.pool = s.pool ∧ down.fields = s.fields ∧
    (∀ k, k ≠ id → mget up.regions k = mget s.regions k ∧ mget down.regions k = mget s.regions k)

/-- The content forms on lines, names and root cells complete with their result quad: EMPTY for the empty
name or line, NO_NAME for one that is not present, NO_REF where there is no reference to drop, FOUND or
PINNED with the count, NEW for a line inserted; where the lookup of the name meets a lost bucket or a fault of
a follower's image, that fault. A reserved bit of the region operand or a name that is
not well formed is `ENGINE_ARG`, a region that the context may not use `DENIED`, a line address that is
not aligned `MISALIGNED` (R337, R338, R341 to R345, R368, R434). -/
def Sys2Proof.Claims.ContentForms : Prop :=
  ∀ (d : BitVec 4) (a b : BitVec 6) (p : BitVec 5) (q : BitVec 4) (st : BitVec 2) (s : State)
    (F : Focus) (w : Swath), F.pager = none →
    let gives (i : Instr) (s1 : State) (n : BitVec 128) (status count : Nat) : Prop :=
      Goes s1 F (past (quadded w d n status count)).scalarRegion (exec i s)
    let traps (i : Instr) (c : Cause) : Prop := exec i s = .next (s.scalarFault F (raise c))
    let id := (w.xr b).toNat
    (Clear s F w (xs [a, b]) (quadOf d) →
      let va := (w.xr a).toNat
      (2 ^ 16 ≤ id → traps (.cins d a b st) .engineArg ∧ traps (.cnode d a b st) .engineArg) ∧
      (id < 2 ^ 16 → usableRegion s F.ctx id false = none →
        traps (.cins d a b st) .denied ∧ traps (.cnode d a b st) .denied) ∧
      (id < 2 ^ 16 → (usableRegion s F.ctx id false).isSome = true → va % 128 = 0 →
        ∀ v s1, readLine F va 0 16 s = .ok v s1 →
        let line := BitVec.ofNat 1024 v
        (line = 0 → gives (.cins d a b st) s1 0 2 0) ∧
        (line ≠ 0 → ∀ r t, insertLine s1 id 1 line = .ok r t →
          gives (.cins d a b st) t r.name r.status r.count) ∧
        ((∃ n ∈ children8 line, wellFormedName n = false) → exec (.cnode d a b st) s =
          .next (s.scalarFault F { raise .contentMalformed with va := BitVec.ofNat 64 va })) ∧
        (∀ t r, insertNode s1 id line = .ok (.ok r t) →
          gives (.cnode d a b st) t r.name r.status r.count))) ∧
    (Clear s F w (xs [b, p ++ 0#1, p ++ 1#1]) (quadOf d) →
      let n := (w.xpair p).2 ++ (w.xpair p).1
      let bad := 2 ^ 16 ≤ id ∨ wellFormedName n = false
      (bad → traps (.cref d p b st) .engineArg ∧ traps (.cunref d p b st) .engineArg ∧
        traps (.cstat d p b st) .engineArg) ∧
      (¬ bad → usableRegion s F.ctx id false = none →
        traps (.cref d p b st) .denied ∧ traps (.cunref d p b st) .denied) ∧
      (¬ bad → ∀ g, usableRegion s F.ctx id false = some g →
        (n = 0 → gives (.cref d p b st) s n 2 0 ∧ gives (.cunref d p b st) s n 2 0) ∧
        (n ≠ 0 → present s g n = false → lookupFault s F.ctx g n = none →
          gives (.cref d p b st) s n 5 0 ∧ gives (.cunref d p b st) s n 5 0) ∧
        (∀ e, lookupFault s F.ctx g n = some e → e.gate = none →
          exec (.cref d p b st) s = .next (s.scalarFault F (e.raise 0)) ∧
          exec (.cunref d p b st) s = .next (s.scalarFault F (e.raise 0))) ∧
        (n ≠ 0 → present s g n = true → lookupFault s F.ctx g n = none →
          (let c := countOf (s.gainRef id n) id n
           gives (.cref d p b st) (s.gainRef id n) n (if c = 0xFFFFFF then 8 else 0) c) ∧
          (countOf s id n = 0 → gives (.cunref d p b st) s n 6 0) ∧
          (countOf s id n ≠ 0 → let c := countOf (s.dropRef id n) id n
            gives (.cunref d p b st) (s.dropRef id n) n (if c = 0xFFFFFF then 8 else 0) c))) ∧
      (¬ bad → ∀ g, usableRegion s F.ctx id true = some g → lookupFault s F.ctx g n = none →
        let gives (status count : Nat) : Prop :=
          Goes s F (past (quadded w d n status count)) (exec (.cstat d p b st) s)
        (n = 0 → gives 2 0) ∧ (n ≠ 0 → present s g n = false → gives 5 0) ∧
        (n ≠ 0 → present s g n = true →
          gives (if countOf s id n = 0xFFFFFF then 8 else 0) (countOf s id n)))) ∧
    (Clear s F w (xs [p ++ 0#1, p ++ 1#1, q ++ 0#2, q ++ 1#2, q ++ 2#2, q ++ 3#2]) (quadOf d) →
      let va := (w.xpair p).1.toNat
      let reg := (w.xpair p).2.toNat
      let old := w.xr (q ++ 1#2) ++ w.xr (q ++ 0#2)
      let new := w.xr (q ++ 3#2) ++ w.xr (q ++ 2#2)
      (2 ^ 16 ≤ reg ∨ wellFormedName old = false ∨ wellFormedName new = false →
        traps (.cswap d p q st) .engineArg) ∧
      (reg < 2 ^ 16 → wellFormedName old = true → wellFormedName new = true →
        (usableRegion s F.ctx reg false).isSome = true → va % 16 = 0 → acquireClamped s F 5 = false →
        ∀ xl, translate s F.agent.cluster F.ctx va (F.agent.access true true false) = .ok xl →
        ∀ r s1, swapRoot F s reg va old new = .ok r s1 →
        gives (.cswap d p q st) s1 r.name r.status r.count))

/-- Bindings and copies: `CBIND` binds a root to a window that is mapped, free and in order and takes a
reference; it answers 12, 9, 5 or 11 where the window is not mapped, bound already, the root is not
present, or 64 bindings stand. `CUNBIND` removes the binding that starts at its operand and drops the
reference, or answers 10. `CCOPY` starts a copy of a tree with a reference, and counts as a chain; each
step writes the next line, and the last one drops the reference (R346 to R348). The lookup of a follower's
name must not fault (R368); what `CUNBIND` answers beside NOT_BOUND is free (notes/assumptions/2.md). -/
def Sys2Proof.Claims.ContentBindings : Prop :=
  ∀ (d : BitVec 4) (a b : BitVec 5) (c : BitVec 6) (st : BitVec 2) (s : State) (F : Focus) (w : Swath),
    F.pager = none →
    let gives (i : Instr) (s1 : State) (n : BitVec 128) (status count : Nat) : Prop :=
      Goes s1 F (past (quadded w d n status count)).scalarRegion (exec i s)
    let regs := xs [a ++ 0#1, a ++ 1#1, b ++ 0#1, b ++ 1#1]
    let at_ := (w.xpair a).1.toNat
    let shape := (w.xpair a).2
    let root := (w.xpair b).2 ++ (w.xpair b).1
    let id := (shape.extractLsb' 0 16).toNat
    let depth := (shape.extractLsb' 16 4).toNat
    let span := 128 * 8 ^ depth
    let len := max 65536 span
    let fnd (k : Nat) : Nat := if k = 0xFFFFFF then 8 else 0
    (Clear s F w regs (quadOf d) → shape.toNat < 2 ^ 20 → badRoot root depth = false →
      ∀ g x, usableRegion s F.ctx id true = some g → s.ctx? F.ctx = some x →
      lookupFault s F.ctx g root = none →
      (at_ % len = 0 →
        let k := countOf s id root
        let mapped := windowMapped s F.agent.cluster F.ctx at_ (len / 65536)
        let clash := ∃ v ∈ x.bindings, at_ < v.win.toNat + v.len ∧ v.win.toNat < at_ + len
        let here := root = 0 ∨ present s g root = true
        (mapped = false → gives (.cbind d a b st) s root 12 k) ∧
        (mapped = true → clash → gives (.cbind d a b st) s root 9 k) ∧
        (mapped = true → ¬ clash → ¬ here → gives (.cbind d a b st) s root 5 k) ∧
        (mapped = true → ¬ clash → here → 64 ≤ x.bindings.length →
          gives (.cbind d a b st) s root 11 k) ∧
        (mapped = true → ¬ clash → here → x.bindings.length < 64 →
          let v : Binding := { id := s.nextUid, region := id, name := root, depth := depth,
                               win := (w.xpair a).1, len := len }
          let s1 := State.gainRef { s.updCtx F.ctx (fun (y : Context) =>
            { y with bindings := y.bindings ++ [v] }) with nextUid := s.nextUid + 1 } id root
          gives (.cbind d a b st) s1 root (if root = 0 then 2 else fnd (countOf s1 id root))
            (countOf s1 id root))) ∧
      (at_ % 128 = 0 → depth ≤ 11 → w.eng.copies < 255 →
        (root ≠ 0 → present s g root = false → gives (.ccopy d a b st) s root 5 0) ∧
        (root = 0 ∨ present s g root = true →
          let s1 := s.gainRef id root
          let k := countOf s1 id root
          let t : CopyTree := { region := id, name := root, depth := depth, dst := (w.xpair a).1,
                                len := span, pos := 0 }
          let u : Swath := { w with eng := { w.eng with
            chains := w.eng.chains ++ [{ newChain s1.nextUid 0 with ccopy := some t }],
            copies := w.eng.copies + 1 } }
          Goes { s1 with nextUid := s1.nextUid + 1 } F
            (past (quadded u d root (if root = 0 then 2 else fnd k) k)).scalarRegion
            (exec (.ccopy d a b st) s)))) ∧
    (Clear s F w (xs [c]) (quadOf d) → ∀ x, s.ctx? F.ctx = some x →
      ((∀ v ∈ x.bindings, v.win ≠ w.xr c) → ∃ n k s1,
        (s1 = { s with freeCtr := s.freeCtr + 2 }) ∧ gives (.cunbind d c st) s1 n 10 k) ∧
      (∀ v s1, x.bindings.find? (fun v => v.win == w.xr c) = some v →
        (∀ g, mget s.regions v.region = some g → lookupFault s F.ctx g v.name = none) →
        s.unbind F.ctx v = .ok () s1 →
        gives (.cunbind d c st) s1 v.name
          (if v.name = 0 then 2 else fnd (countOf s1 v.region v.name)) (countOf s1 v.region v.name))) ∧
    (∀ fid sw uid f u ch t line s1, s.chainAt fid sw uid = some (f, u, ch) → ch.ccopy = some t →
      ch.revoked = false → treeLine s (engineAgent f u) t = .ok line →
      putLine (engineAgent f u) fid ((t.dst.toNat + t.pos) % 2 ^ 64) line 0 128 s = .ok () s1 →
      ∃ ch', ch'.ccopy = some { t with pos := t.pos + 128 } ∧ ch'.uid = ch.uid ∧
        ch'.done = decide (t.len ≤ t.pos + 128) ∧
        exec (.ccopyComplete fid sw uid) s = .next
          ((if t.len ≤ t.pos + 128 then s1.dropRef t.region t.name else s1).setChain fid sw ch'))

/-- Regions: the host driver makes one from a number, a capacity and a store that are in order, and any
other command leaves it FREE; each is answered with the region's descriptor, zeros where it is FREE; Teasel
reclaims the entry queued first of all regions; a destroyed region loses its bindings and copies, and is
FREE once its store has been scrubbed; its descriptor has the fields of R352 (R351 to R355, R365). A store
in HBM has no image, so that creation writes nothing. That creation and destruction are the requests that
Heath answers so is the model's reading (notes/assumptions/158.md). -/
def Sys2Proof.Claims.ContentRegions : Prop :=
  ∀ (s : State) (via : Via) (id capk owner store home : Nat),
    let make := Instr.regionCreate via id capk owner store home none
    (mget s.regions id = none → s.regionDescriptor id = List.replicate 32 0) ∧
    (Heard s via → id = 0 ∨ 255 < id ∨ (mget s.regions id).isSome = true ∨ capk = 0 ∨ 2048 < capk ∨ 4 ≤ home ∨
      store % 65536 ≠ 0 → exec make s = .next (s.answerRegion id)) ∧
    (Heard s via → mget s.regions id = none → exec (.regionDestroy via id) s = .next (s.answerRegion id)) ∧
    (Heard s via → 0 < id → id ≤ 255 → mget s.regions id = none → 0 < capk → capk ≤ 2048 → home < 4 →
      store % 65536 = 0 → (dregion store).tag = 0 → inOneRegion store (storeBytes capk store) = true →
      directoryBytes s home + 512 * capk * 128 ≤ s.llcCarved home →
      ∃ t g, exec make s = .next t ∧ mget t.regions id = some g ∧ g.st = .live ∧ g.capk = capk ∧
        g.owner = owner ∧ g.store = store ∧ g.home = home ∧ g.dir = [] ∧ g.follow = false ∧
        (∀ k, k ≠ id → mget t.regions k = mget s.regions k) ∧ SameBytes s t) ∧
    (∀ g, mget s.regions id = some g →
      (g.st = .live → s.scrubFirst = false → reclaimsNext s id = true → reclaimHold s id = none →
        exec (.contentReclaim id) s = .next (s.reclaimOne id) ∧
        (∀ k u r e, g.reclaims = (k, u) :: r → mget g.dir k = some e → e.count ≠ 0 →
          ∃ t h, exec (.contentReclaim id) s = .next t ∧ mget t.regions id = some h ∧
            h.reclaims = r ∧ mget h.dir k = some { e with q := false } ∧ SameBytes s t)) ∧
      (Heard s via → g.st ≠ .live → exec (.regionDestroy via id) s = .next (s.answerRegion id)) ∧
      (Heard s via → g.st = .live → exec (.regionDestroy via id) s = .next
        ((((s.setRegion id { g with st := .destroying }).unbindRegion id).endCopies id).answerRegion id)) ∧
      (g.st = .destroying → g.follow = true ∨ zeroHold s g.store (storeBytes g.capk g.store) = none →
        ∃ t, exec (.regionScrubComplete id) s = .next t ∧
        mget t.regions id = none ∧ (∀ k, k ≠ id → mget t.regions k = mget s.regions k)) ∧
      (g.st ≠ .destroying → exec (.regionScrubComplete id) s = .next s) ∧
      (g.home < 4 → g.capk < 2 ^ 20 → g.owner < 4096 → g.agent < 4096 → g.store < 2 ^ 52 →
        g.dir.length < 2 ^ 24 → ∃ a b c d, g.descriptor = [a, b, c, d] ∧
        fld a 1 0 = (match g.st with | .free => 0 | .live => 1 | .destroying => 2) ∧
        a.getLsbD 2 = g.follow ∧ fld a 4 3 = g.home ∧ fld a 7 5 = 0 ∧ fld a 27 8 = g.capk ∧
        fld a 39 28 = g.owner ∧ fld a 51 40 = g.agent ∧ fld a 63 52 = 0 ∧
        fld b 51 16 = g.store / 65536 ∧ fld b 15 0 = 0 ∧ fld c 23 0 = g.dir.length ∧
        fld c 47 24 = (g.dir.filter (fun e => e.2.count == 0xFFFFFF)).length ∧
        fld d 23 0 = (g.dir.filter (fun e => e.2.q && e.2.count == 0)).length))

/-- Content references and the content forms: `ContentReferences` and `ContentForms`. -/
def Obligations.ContentReferencesAndForms : Prop :=
  Claims.ContentReferences ∧ Claims.ContentForms

/-- Content bindings, tree copies and regions: `ContentBindings` and `ContentRegions`. -/
def Obligations.ContentBindingsAndRegions : Prop :=
  Claims.ContentBindings ∧ Claims.ContentRegions
/-! ### Contexts -/

namespace Sys2Proof.Claims

/-- A context form has completed with a status and a value; fields that stand on what their context no
longer holds leave their core (R299, R371). -/
def Answers (s1 : State) (F : Focus) (w : Swath) (d : BitVec 5) (k : Nat) (v : W64)
    (r : Host.Outcome State Fault Refusal) : Prop :=
  ∃ w', r = .next (s1.updSwath F.party (fun _ => w')).evictDisplaced ∧
    eff w' = eff ((w.setX (2 * d.toNat) (BitVec.ofNat 64 k)).setX (2 * d.toNat + 1) v)

/-- The registers that a context form writes. -/
def pairOf (d : BitVec 5) : List RegName := [.x (2 * d.toNat), .x (2 * d.toNat + 1)]

end Sys2Proof.Claims

/-- Every context form completes with the status and the value of its act, in the register pair, and ends
its region, but for `CTXINFO`; a trap of the act is the form's (R371, R374 to R382). -/
def Sys2Proof.Claims.ContextForms : Prop :=
  ∀ (d e : BitVec 5) (a b : BitVec 6) (st : BitVec 2) (s : State) (F : Focus) (w : Swath),
    F.pager = none →
    let C := swathCaller F
    let form (i : Instr) (regs : List (BitVec 6)) (ends : Bool) (act : CtxOut) : Prop :=
      Clear s F w (xs regs) (pairOf d) →
      (∀ s1 k v, act = .done s1 k v → s1.swathOf F.party = some w →
        Answers s1 F (if ends then (past w).scalarRegion else past w) d k v (exec i s)) ∧
      (∀ r, act = .trap r → exec i s = .next (s.scalarFault F r).evictDisplaced)
    form (.ctxnew d a st) [a] true (ctxNew C (w.xr a).toNat s) ∧
    form (.ctxgrant d a b st) [a, b] true (ctxGrant C (w.xr a) (w.xr b).toNat s) ∧
    form (.ctxrevoke d a b st) [a, b] true (ctxRevoke C (w.xr a) (w.xr b) s) ∧
    form (.ctxbudg d a b st) [a, b] true (ctxBudg C (w.xr a) (w.xr b).toNat s) ∧
    form (.ctxq d a b st) [a, b] true (ctxQ C (w.xr a) (w.xr b) s) ∧
    form (.ctxinfo d e b st) [b, e ++ 0#1, e ++ 1#1] false
      (ctxInfo C (w.xpair e).1 (w.xpair e).2 (w.xr b).toNat s) ∧
    form (.ctxkill d a st) [a] true (ctxKill C (w.xr a) s) ∧
    form (.rflt d a b st) [a, b] true (rflt C (w.xr a).toNat (w.xr b) s)

/-- What the context forms do. A new context is a live child with the policy asked for, which exceeds its
parent's in nothing, and holds nothing; a protected one takes a free key slot, and a key in it. Only a holder of the CREATE capability makes, grants, revokes,
budgets or kills. A revoked grant is gone, and no range anywhere descends from it. Budgets wait for the
next boundary and must fit; a queue is bound to one context under a tag of its own; a killed context
is to be scrubbed, and holds no grant and no range (R372, R374, R377 to R379, R381, R399, R404). -/
def Sys2Proof.Claims.ContextsMadeAndEnded : Prop :=
  ∀ (C : Caller) (s s1 t : State) (idv gid : W64) (va k : Nat) (v : W64) (ds : List W64) (x : Context),
    s.ctx? C.ctx = some x →
    let id := idv.toNat
    (x.policy.create = false → ctxNew C va s = .trap (raise .denied) ∧
      (id < 4096 → ctxGrant C idv va s = .trap (raise .denied) ∧
        ctxRevoke C idv gid s = .trap (raise .denied) ∧ ctxBudg C idv va s = .trap (raise .denied) ∧
        ctxKill C idv s = .trap (raise .denied))) ∧
    (4096 ≤ id → ctxGrant C idv va s = .trap (raise .engineArg) ∧
      ctxRevoke C idv gid s = .trap (raise .engineArg) ∧ ctxBudg C idv va s = .trap (raise .engineArg) ∧
      ctxKill C idv s = .trap (raise .engineArg)) ∧
    (x.policy.create = true → va % 64 = 0 → C.rds va 8 s = .ok ds s1 → s1.ctx? C.ctx = some x →
      newOk ds = true →
      let p := readPolicy (ds.getD 5 0)
      (7 ≤ x.depth → ctxNew C va s = .done s1 1 0) ∧
      (x.depth < 7 → exceeds p x.policy = true → ctxNew C va s = .done s1 7 0) ∧
      (x.depth < 7 → exceeds p x.policy = false → p.prot = false → ctxNew C va s = .done t k v → k = 0 →
        ∃ y, t.ctx? v.toNat = some y ∧ s1.ctx? v.toNat = none ∧ v.toNat < 4096 ∧ y.parent = C.ctx ∧
          y.depth = x.depth + 1 ∧ y.state = .live ∧ y.policy = p ∧ y.key = x.key ∧ y.grants = [] ∧
          y.ranges = [] ∧ y.bindings = [] ∧ (∀ c, c ≠ v.toNat → t.ctx? c = s1.ctx? c) ∧
          t.mem = s1.mem ∧ t.pool = s1.pool) ∧
      (x.depth < 7 → exceeds p x.policy = false → p.prot = true →
        (freeKeySlot s1 = none → ctxNew C va s = .done s1 15 0) ∧
        (∀ slot, freeKeySlot s1 = some slot → ctxNew C va s = .done t k v → k = 0 →
          ∃ y, t.ctx? v.toNat = some y ∧ s1.ctx? v.toNat = none ∧ y.parent = C.ctx ∧ y.policy = p ∧
            y.key = some slot ∧ (mget t.keys slot).isSome = true ∧
            (∀ c z, s1.ctx? c = some z → z.key ≠ some slot)))) ∧
    (ctxRevoke C idv gid s = .done t 0 v → ∃ y g, s.ctx? id = some y ∧ g ∈ y.grants ∧
      g.id = gid.toNat ∧ (∀ y', t.ctx? id = some y' → ∀ h ∈ y'.grants, h.id ≠ gid.toNat) ∧
      (g.kind = .range → ∀ c z, t.ctx? c = some z → ∀ e ∈ z.ranges, (id, gid.toNat) ∉ e.lineage)) ∧
    (C.rds va 4 s = .ok ds s1 → ctxBudg C idv va s = .done t 0 v → ∃ y, t.ctx? id = some y ∧
      y.pending = some (readBudgets ds) ∧ 0 < (readBudgets ds).quantum ∧
      (∀ c, c ≠ id → t.ctx? c = s1.ctx? c)) ∧
    (ctxQ C idv gid s = .done t 0 v → let q := (gid.extractLsb' 0 10).toNat
      (gid.getLsbD 32 = true → (t.queue q).binding = none) ∧
      (gid.getLsbD 32 = false → ∃ b, (t.queue q).binding = some b ∧ b.ctx = id ∧
        b.pasid = (gid.extractLsb' 10 20).toNat ∧ b.cls = (gid.extractLsb' 30 2).toNat) ∧
      (∀ n, n ≠ q → t.queue n = s.queue n) ∧ t.ctxs = s.ctxs) ∧
    (id < 4096 → x.policy.create = true → isChild s C.ctx id = false → ctxKill C idv s = .done s 3 0) ∧
    (ctxKill C idv s = .done t 0 v → ∀ y, t.ctx? id = some y →
      y.state = .scrubbing ∧ y.grants = [] ∧ y.ranges = [])

/-- A grant gives a child no more than its caller holds: each new range of the child lies in an entry of
the caller, in DPA, with no permission that the entry lacks, and the child's other ranges stay (R375,
R376). -/
def Sys2Proof.Claims.Grants : Prop :=
  ∀ (C : Caller) (s s1 t : State) (idv : W64) (va : Nat) (v : W64) (ds : List W64) (x y y' : Context),
    C.rds va 4 s = .ok ds s1 → ctxGrant C idv va s = .done t 0 v →
    s1.ctx? C.ctx = some x → s1.ctx? idv.toNat = some y → t.ctx? idv.toNat = some y' →
    y.parent = C.ctx ∧ y.state = .live ∧
    (∃ g ∈ y'.grants, g.id = v.toNat ∧ ∀ h ∈ y.grants, h.id ≠ v.toNat) ∧
    (∀ e ∈ y.ranges, e ∈ y'.ranges) ∧
    ∀ r ∈ y'.ranges, r ∈ y.ranges ∨ (C.ctx ≠ 0 → ∃ e ∈ x.ranges, e.dbase ≤ r.dbase ∧
      r.dbase + r.len * 65536 ≤ e.dbase + e.len * 65536 ∧ (r.r = true → e.r = true) ∧
      (r.w = true → e.w = true) ∧ (r.x = true → e.x = true))

/-- `CTXINFO` writes the four dwords of its item and returns the first; `RFLT` reflects a record to the
parent of the caller, wakes or ends the requester of a waiting record of its own, and releases a
FAULTED slot; an action above 3 and a record with a nonzero reserved bit are `ENGINE_ARG`, and a context
that is no descendant `DENIED` (R371, R380, R382, R387). -/
def Sys2Proof.Claims.ContextReports : Prop :=
  ∀ (C : Caller) (s s1 : State) (idv item : W64) (va : Nat) (ws : List W64) (x : Context),
    let id := idv.toNat
    (id < 4096 → infoItem item.toNat = true → s.ctx? id = some x → s.descends C.ctx id = true →
      va % 32 = 0 → ∀ l, infoWords s id x item.toNat = some l → C.wrs va l s = .ok () s1 →
      ctxInfo C idv item va s = .done { s1 with freeCtr := s1.freeCtr + 4 } 0 (l.headD 0) ∧
        l.length = 4) ∧
    (4096 ≤ id ∨ infoItem item.toNat = false → ctxInfo C idv item va s = .trap (raise .engineArg)) ∧
    (id < 4096 → infoItem item.toNat = true → s.descends C.ctx id = false →
      ctxInfo C idv item va s = .trap (raise .denied)) ∧
    (3 < item.toNat → rflt C va item s = .trap (raise .engineArg)) ∧
    (item.toNat ≤ 3 → va % 64 = 0 → C.rds va 8 s = .ok ws s1 →
      let c := fld (ws.getD 0 0) 43 32
      (recordOk ws = false → rflt C va item s = .trap (raise .engineArg)) ∧
      (recordOk ws = true → s1.descends C.ctx c = false → rflt C va item s = .trap (raise .denied)) ∧
      (recordOk ws = true → (s1.ctx? c).isSome = true → s1.descends C.ctx c = true →
        (item = 0 → C.ctx = 0 → rflt C va item s = .done s1 13 0) ∧
        (item = 0 → C.ctx ≠ 0 → ∀ z, s1.ctx? C.ctx = some z → rflt C va item s =
          .done (State.ringPush 0 false none 8 s1 z.parent (reflectWords ws)) 0 0) ∧
        (∀ q, item = 1 → s1.s2waits = [q] → q.owner = C.ctx → q.ctx = c →
          q.seq = BitVec.ofNat 32 (fld (ws.getD 7 0) 31 0) →
          rflt C va item s = .done (State.wake { s1 with s2waits := [] } q.req) 0 0) ∧
        (∀ q, item = 2 → s1.s2waits = [q] → q.owner = C.ctx → q.ctx = c →
          q.seq = BitVec.ofNat 32 (fld (ws.getD 7 0) 31 0) →
          rflt C va item s = .done (State.deliver { s1 with s2waits := [] } q ws) 0 0) ∧
        (∀ fid f l, item = 3 → s1.fields = [(fid, f)] → f.status = .faulted → f.ctx = c →
          f.num = fld (ws.getD 3 0) 23 0 → f.mx = fld (ws.getD 3 0) 28 24 →
          f.my = fld (ws.getD 3 0) 33 29 → mget s1.launches f.launch = some l →
          l.ltag.toNat = fld (ws.getD 4 0) 31 0 →
          rflt C va item s = .done (s1.releaseSlot fid) 0 0) ∧
        (item = 1 ∨ item = 2 → s1.s2waits = [] → rflt C va item s = .done s1 12 0) ∧
        (item = 3 → s1.fields = [] → rflt C va item s = .done s1 12 0)))

/-- The scrub of a killed subtree: each step finishes its next unit, and all of them stay kept from every
other holder; once none is left the subtree's contexts are gone, with the marks of their key domains (R406). -/
def Obligations.SubtreesAreScrubbed : Prop :=
  ∀ (s : State) (c : Nat) (x : Context), s.ctx? c = some x →
    (∀ u ∈ x.scrubHeld, s.scrubbing u.1 u.2 = true) ∧
    (∀ u r, x.scrubLeft = u :: r → ∃ t y, exec (.contextScrubUnit c) s = .next t ∧
      t.ctx? c = some y ∧ y.scrubLeft = r ∧ y.scrubHeld = x.scrubHeld ∧ y.state = x.state ∧
      (u.1 ≠ 5 → SameBytes s t) ∧
      (u.1 = 5 → s.mem.wf = true → ∀ i < 65536, t.mem.rd (frameDpa u.2 + i) = 0)) ∧
    (x.scrubLeft = [] → exec (.contextScrubUnit c) s = .next s) ∧
    (scrubRoot s c = true → x.scrubLeft = [] → ∃ t, exec (.contextScrubComplete c) s = .next t ∧
      (∀ i, s.descends c i = true → t.ctx? i = none) ∧
      (∀ i, s.descends c i = false → t.ctx? i = s.ctx? i) ∧ SameBytes s t ∧ t.fields = s.fields) ∧
    (x.scrubLeft ≠ [] → exec (.contextScrubComplete c) s = .next s)

/-- The context forms in a swath, and what they report: `ContextForms` and `ContextReports`. -/
def Obligations.ContextFormsAnswer : Prop :=
  Claims.ContextForms ∧ Claims.ContextReports

/-- Contexts are made, limited and ended; no grant exceeds the caller: `ContextsMadeAndEnded` and
`Grants`. -/
def Obligations.ContextsAndGrants : Prop :=
  Claims.ContextsMadeAndEnded ∧ Claims.Grants
/-! ### Issue decisions, placement and swap-outs -/

namespace Sys2Proof.Claims

/-- `p` is the party that a decision must choose among `cs`: ready, and with no ready one before it. -/
def FirstOf (key : Cand → List Nat) (cs : List Cand) (p : Option PartyId) : Prop :=
  match p with
  | some p => ∃ c ∈ cs, c.party = p ∧ c.ready = true ∧
      ∀ d ∈ cs, d.ready = true → keyLt (key d) (key c) = false
  | none => ∀ c ∈ cs, c.ready = false

end Sys2Proof.Claims

/-- An issue decision chooses the ready candidate that comes first by the keys of R122: exhausted
contexts last, the more urgent class, aged candidates in the order of their aging, then age; with none
ready it chooses none. A pager core that waits for nothing goes on. A candidate passed over 32 times
becomes aged (R121, R122, R396). -/
def Obligations.DecisionsChooseTheFirstReadyParty : Prop :=
  ∀ (s : State) (core quad : Nat),
    (core < 192 → let s0 := s.replayParks core quad
      ∃ t, exec (.scalarIssueDecision core quad) s = .next t ∧
        FirstOf (Cand.key s0 core quad false) (scalarCands s0 core quad) t.chosen) ∧
    (∀ p, 192 ≤ core → mget s.pagers (core - 192) = some p → p.running = true → p.sw.ctl.wait = .none →
      exec (.scalarIssueDecision core quad) s = .next { s with chosen := some (.pager (core - 192)) }) ∧
    (∃ t, exec (.laneIssueDecision core quad) s = .next t ∧
      FirstOf (Cand.key s core quad true) (laneCands s core quad) t.chosen) ∧
    (∀ fid sw w, s.swathAt fid sw = some w → 32 ≤ w.ctl.passed → w.ctl.aged = none →
      ∃ w', exec (.candidateAges (.scalar fid sw)) s =
        .next { s.updSwathAt fid sw (fun _ => w') with nextUid := s.nextUid + 1 } ∧
        w'.ctl.aged = some s.nextUid ∧ w'.regs = w.regs ∧ w'.lanes = w.lanes) ∧
    (∀ fid sw w, s.swathAt fid sw = some w → w.ctl.passed < 32 ∨ w.ctl.aged.isSome = true →
      exec (.candidateAges (.scalar fid sw)) s = .next s)

/-- A distributor places the first waiting candidate that fits its die at the seats of its corner, and
ends with `CAPACITY` one that nothing could ever place; it places nothing while fields are halted, and
nothing on a core that the device does not have (R9, R113 to R118, R315). -/
def Sys2Proof.Claims.Placement : Prop :=
  ∀ (s : State) (core : Nat),
    (s.placing = false ∨ 192 ≤ core → exec (.fieldPlace core) s = .next s) ∧
    (s.placing = true → core < 192 →
      (∀ c, (waitOrder s).find? (hopeless s) = some c →
        exec (.fieldPlace core) s = .next (s.failCapacity c)) ∧
      ((waitOrder s).find? (hopeless s) = none →
        (∀ c seats, (waitOrder s).find? (fun c => (dieCores (core / 48)).any (fitsOn s c [])) = some c →
          seatsOf s c core (standingBut s []) = some seats →
          exec (.fieldPlace core) s = .next (s.seat c seats)) ∧
        (waitOrder s = [] → exec (.fieldPlace core) s = .next s))) ∧
    (∀ n l seat, mget s.launches n = some l → l.lrec.mw = 0 → l.slots = [] →
      ∃ f, (s.placeFresh n l [seat]).field? s.nextFid = some f ∧ f.status = .resident ∧
        f.core = seat.core ∧ f.launch = n ∧ f.ctx = l.ctx ∧ f.num = l.next ∧ f.slot = 0 ∧
        f.tiles = l.lrec.acc ∧ f.scrKib = l.lrec.scr ∧ f.acc = [] ∧ f.spad = [] ∧
        f.bars.length = l.lrec.barr ∧ ∀ i w, (i, w) ∈ f.sws → w.regs.pc = l.lrec.scode ∧
          w.regs.x = [] ∧ w.regs.v = [] ∧ w.meet.hs = .idle ∧ w.ctl.level = 0)

/-- Fields leave their cores: a stop that is asked for swaps the field out and delivers its record, once
its slot holds it; a field whose slice is over leaves; a reconvergence wait that runs out halts it; an urgent claim and a
slice's end halt the fields of the quadrants concerned: at the end of a context's quantum on a quadrant,
for a candidate of another context that could go there, every field of its groups with something on the
quadrant, of the candidate's class or a less urgent one, ends its slice. A swapped field that its slot
already holds is written there again, and one whose slot waits is still to be saved. A group that may not go
stays (R125, R284, R297, R298, R300, R416). -/
def Sys2Proof.Claims.SwapOuts : Prop :=
  ∀ (s : State) (fid sw core quad c : Nat) (f : Field), s.field? fid = some f →
    (∀ t, f.stop = some t → t.halted = false →
      ((∀ g ∈ (s.swapGroup fid).groupOf fid, g.2.saving = false) →
        exec (.fieldSwapOut fid) s = .next ((s.swapGroup fid).stopDone fid)) ∧
      (∀ g ∈ (s.swapGroup fid).groupOf fid, g.2.saving = true →
        exec (.fieldSwapOut fid) s = .next (s.swapGroup fid))) ∧
    (f.stop = none → sliceOver s fid = true → exec (.fieldSwapOut fid) s = .next (s.swapGroup fid)) ∧
    (f.stop = none → sliceOver s fid = false → s.placing = true →
      ∀ c core l, roomFor s fid = some (c, core, l) →
      let t := l.foldl (fun s g => s.swapGroup g) s
      (∀ seats, seatsOf t c core (standingBut t []) = some seats →
        exec (.fieldSwapOut fid) s = .next (t.seat c seats)) ∧
      (seatsOf t c core (standingBut t []) = none → exec (.fieldSwapOut fid) s = .next t)) ∧
    (f.stop = none → sliceOver s fid = false → s.placing = false ∨ roomFor s fid = none →
      exec (.fieldSwapOut fid) s = .next s) ∧
    (∀ l, f.status = .resident → mget s.launches f.launch = some l → l.lrec.mw = 0 →
      let g := { f.leave .swapped with
        ready := (f.leave .swapped).resumable, readyAt := s.nextReady }
      let s0 := { s.setField fid g with nextReady := s.nextReady + 1 }
      let out (saving : Bool) : Prop := ∃ h, (s.swapGroup fid).field? fid = some h ∧
        h.status = .swapped ∧ h.slicing = false ∧ h.saving = saving
      (slotHold s0 (f.core / 48) f.ctx (slotVa l.lrec g) l.lrec g = none →
        ∀ s1, s0.storeSlot (f.core / 48) f.ctx (slotVa l.lrec g) l.lrec g = .ok s1 →
        s1.field? fid = some g → out false) ∧
      (∀ t, slotHold s0 (f.core / 48) f.ctx (slotVa l.lrec g) l.lrec g = some t →
        t.field? fid = some g → out true)) ∧
    (f.slicing = true → f.status = .resident →
      exec (.reconvWaitExpire fid) s = .next (s.swapGroup fid)) ∧
    (f.slicing = false → exec (.reconvWaitExpire fid) s = .next s) ∧
    (s.placing = true → ∀ qs, claimFor s (4 * core + quad) = some qs →
      exec (.urgentClaim core quad) s =
        .next ((qs.flatMap (quadGroups s)).eraseDups.foldl (fun s g => s.swapGroup g) s)) ∧
    (s.placing = false ∨ claimFor s (4 * core + quad) = none →
      exec (.urgentClaim core quad) s = .next s) ∧
    (∀ l w s1, mget f.sws sw = some w → mget s.launches f.launch = some l → f.status = .swapped →
      f.arena = false → let base := slotVa l.lrec f
      slotHold s (f.core / 48) f.ctx base l.lrec f = none →
      s.storeSlot (f.core / 48) f.ctx base l.lrec f = .ok s1 →
      exec (.registerLineScanOut fid sw) s =
        .next { s1.updField fid (fun g => { g with saving := false }) with
          slotWaits := s1.slotWaits.filter (fun x =>
            !(x.ctx == f.ctx && decide (base ≤ x.va) && decide (x.va < base + l.lrec.slotSize))) }) ∧
    (∀ w, mget f.sws sw = some w → f.status = .resident → f.saving = false →
      exec (.registerLineScanOut fid sw) s = .next (s.scanLine fid sw f w) ∧
      (quadLines s f.core w.quad ≤ 2048 → s.scanLine fid sw f w = s)) ∧
    -- the end of a context's quantum: the class of the first candidate of another context that it keeps
    -- from a quadrant of its own
    (let kept (a : Waiter) : Bool := (a.launch s).any (fun l =>
       l.ctx != c && (ownedQuads s l.ctx core).contains quad && cannotPlace s a)
     ((waitOrder s).find? kept = none → exec (.tenantSliceEnd c core quad) s = .next s) ∧
     (∀ a l, (waitOrder s).find? kept = some a → a.launch s = some l →
      ∃ t, exec (.tenantSliceEnd c core quad) s = .next t ∧ SameBytes s t ∧
        ∃ g, t.field? fid = some g ∧ g = { f with slicing := g.slicing } ∧
          (g.slicing = true ↔ f.slicing = true ∨
            ∃ e h, e ∈ quadGroups s (4 * core + quad) ∧ s.field? e = some h ∧ h.ctx = c ∧
              l.cls ≤ ((mget s.launches h.launch).map (·.cls)).getD 0 ∧
              fid ∈ (s.groupOf e).map (·.1))))

/-- A budget period ends at the next multiple of 20 µs: the use of every context starts again, pending
budgets govern, the frames' COUNT fields halve, and the clock follows the readings; where no ring record
waits for room, memory and registers stay (R273, R378, R397, R430). -/
def Sys2Proof.Claims.BudgetPeriods : Prop :=
  ∀ (s : State), ∃ t, exec .budgetPeriodBoundary s = .next t ∧
    t.time = BitVec.ofNat 64 (s.time.toNat / 20 * 20 + 20) ∧ t.heath.clockMhz = s.heath.nextClock ∧
    ((s.time.toNat / 20 * 20 + 20) / 1000 = s.time.toNat / 1000 → t.leases = s.leases) ∧
    (s.ringWaits = [] → (∀ c x, s.ctx? c = some x → ∃ y, t.ctx? c = some y ∧ y.budgets = x.pending.getD x.budgets ∧
      y.pending = none ∧ y.usedW = [] ∧ y.policy = x.policy ∧ y.grants = x.grants ∧ y.ranges = x.ranges) ∧
    (∀ k e, mget s.frames k = some e → mget t.frames k = some { e with count := e.count / 2 }) ∧
    t.fields = s.fields ∧ t.pagers = s.pagers ∧ SameBytes s t)

/-- What the device does of its own accord: a walk that completes fills the TLB of its gateway, and one
that faults leaves it; a write-back leaves the copy clean; an eviction takes its clean bytes and
changes no other copy and no memory; neither changes a field (R221, R222, R267). -/
def Sys2Proof.Claims.CopiesAndWalks : Prop :=
  ∀ (s : State) (gw ctx unit line : Nat) (va : W64),
    let p := isCopy unit ctx line
    (gw < 36 → 0 < tlbSize s gw → ∀ e, compose s gw ctx va.toNat = .ok e →
      ∃ t, exec (.walkComplete gw ctx va) s = .next t ∧
      (∃ x ∈ t.tlb, x.gateway = gw ∧ x.covers e.ctx e.va = true) ∧ t.fields = s.fields ∧ SameBytes s t) ∧
    (36 ≤ gw → exec (.walkComplete gw ctx va) s = .next s) ∧
    (∀ e, compose s gw ctx va.toNat = .error e → exec (.walkComplete gw ctx va) s = .next s) ∧
    (∃ t, exec (.cacheWriteback false unit ctx line) s = .next t ∧ t.fields = s.fields ∧
      (∀ c ∈ t.l1, p c = true → c.dirty = 0)) ∧
    (linesHold s (dirtyLines s (fun _ => false) p) = none →
      ∃ t, exec (.cacheWriteback true unit ctx line) s = .next t ∧ t.fields = s.fields ∧ t.l1 = s.l1 ∧
        (∀ c ∈ t.l2, p c = true → c.dirty = 0)) ∧
    (∃ t, exec (.cacheEvict false unit ctx line) s = .next t ∧ t.fields = s.fields ∧ SameBytes s t ∧
      t.l2 = s.l2 ∧ (∀ c ∈ t.l1, p c = true → c.valid = c.dirty) ∧
      (∀ c, p c = false → c.valid ≠ 0 → (c ∈ t.l1 ↔ c ∈ s.l1))) ∧
    (∃ t, exec (.cacheEvict true unit ctx line) s = .next t ∧ t.fields = s.fields ∧ SameBytes s t ∧
      t.l1 = s.l1 ∧ (∀ c ∈ t.l2, p c = true → c.valid = c.dirty) ∧
      (∀ c, p c = false → c.valid ≠ 0 → (c ∈ t.l2 ↔ c ∈ s.l2)))

/-- Placement, swap-outs and slices: `Placement` and `SwapOuts`. -/
def Obligations.FieldsArePlacedAndLeave : Prop :=
  Claims.Placement ∧ Claims.SwapOuts

/-- Budget periods, copies and walks: `BudgetPeriods` and `CopiesAndWalks`. -/
def Obligations.PeriodsCopiesAndWalks : Prop :=
  Claims.BudgetPeriods ∧ Claims.CopiesAndWalks

/-! ### The device as home, holder and owner -/

namespace Sys2Proof.Claims

/-- An HBM-direct line that agents may reach at this home, outside every content store. -/
def servable (s : State) (addr : Nat) : Prop :=
  dregion addr = .hbm ∧ (s.frame (frameOf addr)).role = .direct ∧ inContentStore s addr = false

/-- What an event leaves alone beside the directory, the outbox and Heath. -/
def SameCores (s t : State) : Prop :=
  t.fields = s.fields ∧ t.pagers = s.pagers ∧ t.ctxs = s.ctxs ∧ t.launches = s.launches

/-- The host's state of a half of a line, as the directory entry holds it. -/
def halfState (s : State) (line half : Nat) : Nat :=
  if half = 0 then (s.dirEnt line).hlo else (s.dirEnt line).hhi

end Sys2Proof.Claims

/-- A request at this home: one over fenced ports, or from a host whose link is down, does not arrive; one
from an agent without a slot, from a host that has trained as PCIe, or for an address that the agent may
not reach, receives Unsupported Request and is logged; a peer's fill returns the line and makes it a
sharer of the whole unit; a fill that meets an upgrade is held; one that meets another owner of the unit
asks that owner first, and the owner's answer makes both sharers; a host's fill names its half; a peer's
write of a half that the host does not hold reaches memory (R319 to R324, R328, R332, R354). -/
def Sys2Proof.Claims.HomeRequests : Prop :=
  ∀ (s : State) (node addr port slot : Nat) (d : BitVec 512),
    let line := addr / 128
    let unit := addr / 65536
    let arrives (host : Bool) : Prop := if host then s.heath.hostDown = false else heard s node = true
    (∃ t, exec (.unsupportedFeatureRequest port) s = .next t ∧ t.outbox = s.outbox ++ [.answer ansUR []] ∧
      (∃ e, t.heath.log.getLast? = some e ∧ e.event = 7 ∧ e.detail = BitVec.ofNat 64 port) ∧
      SameCores s t ∧ SameBytes s t) ∧
    (∀ host w x, ¬ arrives host → exec (.cxlMemRequest node addr host w x) s = .next s) ∧
    (∀ host w x, arrives host →
      (host = true ∧ s.heath.hostPcie = true) ∨ slotOf s node host = none ∨ dregion addr ≠ .hbm ∨
        (s.frame (frameOf addr)).role ≠ .direct ∨ inContentStore s addr = true →
      ∃ t, exec (.cxlMemRequest node addr host w x) s = .next t ∧
        t.outbox = s.outbox ++ [.answer ansUR []] ∧ t.dir = s.dir ∧ SameCores s t ∧ SameBytes s t) ∧
    (servable s addr → arrives false → slotOf s node false = some slot → slot < 48 →
      rebuilt s line = false → (∀ u ∈ s.upgrades, u.unit ≠ unit) →
      (unitOwner s unit = none → s.poisoned.contains line = false → mget s.sharers slot = some node →
        ∀ q, s.portTo node = some q → s.carries q = true →
        ∃ t, exec (.cxlMemRequest node addr false none false) s = .next t ∧
        t.outbox = s.outbox ++ [.dataOut q node addr (lineData (homeLine s (line * 128)) 0 128)] ∧
        (∀ k < 512, (t.dirEnt (unit * 512 + k)).shr.getLsbD slot = true) ∧
        (∀ l, l / 512 ≠ unit → t.dirEnt l = s.dirEnt l) ∧ SameCores s t ∧ SameBytes s t) ∧
      (∀ k q, unitOwner s unit = some k → k ≠ slot → s.slotPort k = some q → s.carries q = true →
        ∃ t, exec (.cxlMemRequest node addr false none false) s = .next t ∧
        t.snooping snpData k (unit * 65536) = true ∧
        t.heldFills = s.heldFills ++ [(slot, addr)] ∧ t.dir = s.dir ∧ SameCores s t ∧ SameBytes s t)) ∧
    (rebuilt s line = false → (∀ u ∈ s.upgrades, u.unit ≠ unit) → (∀ h ∈ s.heldFills, h.2 / 65536 ≠ unit) →
      unitOwner s unit = some slot → heardSlot s slot = true → s.snooping snpData slot (unit * 65536) = true →
      ∃ t, exec (.birspiblk slot addr) s = .next t ∧ t.snooping snpData slot (unit * 65536) = false ∧
        (∀ k < 512, (s.dirEnt (unit * 512 + k)).o = true → (t.dirEnt (unit * 512 + k)).o = false ∧
          (t.dirEnt (unit * 512 + k)).shr = slotBit (s.dirEnt (unit * 512 + k)).owner) ∧
        (∀ l, l / 512 ≠ unit → t.dirEnt l = s.dirEnt l) ∧ SameCores s t ∧ SameBytes s t) ∧
    (servable s addr → arrives false → slotOf s node false = some slot →
      (∃ u ∈ s.upgrades, u.unit = unit) →
      exec (.cxlMemRequest node addr false none false) s =
        .next { s with heldFills := s.heldFills ++ [(slot, addr)] }) ∧
    (servable s addr → arrives true → s.heath.hostPcie = false → rebuilt s line = false →
      (∀ u ∈ s.upgrades, u.unit ≠ unit) → (s.dirEnt line).o = false →
      s.poisoned.contains line = false → (∀ r ∈ s.deferred, r.line ≠ line) → ∀ excl,
      ∃ t, exec (.cxlMemRequest node addr true none excl) s = .next t ∧
        halfState t line (addr / 64 % 2) = (if excl then 2 else 1) ∧
        t.outbox = s.outbox ++
          [.dataOut hostPort 0 addr (lineData (homeLine s (line * 128)) (addr / 64 % 2 * 64) 64)] ∧
        SameCores s t ∧ SameBytes s t) ∧
    (s.mem.wf = true → servable s addr → arrives false → slotOf s node false = some slot →
      rebuilt s line = false → hostHalf s line (addr / 64 % 2) = 0 →
      ∃ t, exec (.cxlMemRequest node addr false (some d) false) s = .next t ∧
        t.outbox = s.outbox ++ [.answer ansDone []] ∧ t.pool = s.pool ∧
        (∀ i < 64, t.mem.rd (addr / 64 * 64 + i) = d.extractLsb' (8 * i) 8) ∧
        (∀ a, a < addr / 64 * 64 ∨ addr / 64 * 64 + 64 ≤ a → t.mem.rd a = s.mem.rd a) ∧ SameCores s t)

/-- An upgrade at the home: one from an agent that is no sharer, with a slot or without, is refused with
status 2; one from a sharer snoops every other sharer with 256 BISnpInvBlk; while one of the unit runs
another waits; each BIRspIBlk counts, and the last makes the owner the only holder and answers it (R323,
R325). -/
def Sys2Proof.Claims.HomeUpgrades : Prop :=
  ∀ (s : State) (node slot addr : Nat),
    let unit := addr / 65536
    (heard s node = false → exec (.upg node addr) s = .next s) ∧
    (heard s node = true → (∀ u ∈ s.upgrades, u.unit ≠ unit ∧ u.owed ≠ []) →
      ((∀ k, slotOf s node false = some k → (unitSharers s unit).contains k = false) →
        exec (.upg node addr) s = .next (s.vendor node [(0, 0x32), (1, 2), (8, unit * 65536)])) ∧
      (slotOf s node false = some slot → (unitSharers s unit).contains slot = true →
        (unitSharers s unit).filter (· != slot) ≠ [] →
        ∃ t u, exec (.upg node addr) s = .next t ∧ t.upgrades = s.upgrades ++ [u] ∧ u.unit = unit ∧
          u.owner = slot ∧ u.queued = [] ∧
          u.owed = ((unitSharers s unit).filter (· != slot)).map (fun n => (n, 256)) ∧
          t.dir = s.dir ∧ SameCores s t ∧ SameBytes s t ∧
          (∀ n ∈ unitSharers s unit, n ≠ slot → ∀ q, s.slotPort n = some q → s.carries q = true →
            ∀ i < 256, Out.snoop q 3 n (unit * 65536 + 256 * i) ∈ t.outbox))) ∧
    (heard s node = true → (∃ u ∈ s.upgrades, u.unit = unit) → ∃ t, exec (.upg node addr) s = .next t ∧
      t.outbox = s.outbox ∧ t.dir = s.dir ∧ t.upgrades.length = s.upgrades.length ∧
      SameCores s t ∧ SameBytes s t ∧
      ∀ u ∈ s.upgrades, u.unit = unit → { u with queued := u.queued ++ [node] } ∈ t.upgrades) ∧
    (heardSlot s slot = true → rebuilt s (addr / 128) = false → ∀ u n, s.upgrades = [u] → u.unit = unit → u.owed = [(slot, n)] →
      u.queued = [] → 2 ≤ n →
      ∃ t, exec (.birspiblk slot addr) s = .next t ∧ t.upgrades = [{ u with owed := [(slot, n - 1)] }] ∧
        t.dir = s.dir ∧ t.outbox = s.outbox ∧ SameCores s t ∧ SameBytes s t) ∧
    (heardSlot s slot = true → rebuilt s (addr / 128) = false → ∀ u q, s.upgrades = [u] →
      u.unit = unit → u.owed = [(slot, 1)] → u.queued = [] → u.owner ≠ 0 → (∀ h ∈ s.heldFills, h.2 / 65536 ≠ unit) →
      s.portTo (slotNode s u.owner) = some q → s.carries q = true →
      ∃ t, exec (.birspiblk slot addr) s = .next t ∧ t.upgrades = [] ∧
        t.outbox = s.outbox ++ [.vendor q (slotNode s u.owner)
          (vdm [(0, 0x32), (1, if u.fenced then 1 else 0), (8, unit * 65536)])] ∧
        (∀ k < 512, (t.dirEnt (unit * 512 + k)).o = true ∧
          (t.dirEnt (unit * 512 + k)).owner = u.owner ∧ (t.dirEnt (unit * 512 + k)).shr = 0) ∧
        (∀ l, l / 512 ≠ unit → t.dirEnt l = s.dirEnt l) ∧ SameCores s t ∧ SameBytes s t)

/-- The device as holder and as owner: a snoop that invalidates frees the frame and drops every copy of
the unit before it is answered, and a fill that meets it is marked; a snoop for data writes a DIRTY frame
back and leaves it SHARED; the answer to its own upgrade makes the frame CLEAN, or FREE when the home
does not count it as a sharer, and the waiting `PGUPG` returns 0, 6 or 1, also when the frame is gone;
nothing is taken from a home behind fenced ports (R323, R324, R332). -/
def Sys2Proof.Claims.HoldersGiveUp : Prop :=
  ∀ (s : State) (node addr f : Nat),
    (heard s node = false → exec (.bisnpinvblk node addr) s = .next s ∧
      exec (.bisnpdata node addr) s = .next s) ∧
    (heard s node = true → frameBacked s (some node) addr = none →
      exec (.bisnpinvblk node addr) s = .next (s.emit (s.portTo node) (.snoopAnswer · 3 node addr)) ∧
      exec (.bisnpdata node addr) s = .next (s.emit (s.portTo node) (.snoopAnswer · 2 node addr))) ∧
    (heard s node = true → frameBacked s (some node) addr = some f →
      ((s.frame f).st ≠ .filling → ∃ t, exec (.bisnpinvblk node addr) s = .next t ∧
        (t.frame f).st = .free ∧ (∀ c, (c ∈ t.l1 ↔ c ∈ s.l1 ∧ inUnit (s.frame f).unit c = false)) ∧
        (∀ c, (c ∈ t.l2 ↔ c ∈ s.l2 ∧ inUnit (s.frame f).unit c = false)) ∧
        t.outbox = (s.emit (s.portTo node) (.snoopAnswer · 3 node addr)).outbox ∧
        t.fields = s.fields ∧ SameBytes s t) ∧
      ((s.frame f).st = .filling → ∃ t, exec (.bisnpinvblk node addr) s = .next t ∧ t.frames = s.frames ∧
        (∀ x ∈ t.fills, x.unit = (s.frame f).unit → x.snooped = true) ∧
        t.outbox = (s.emit (s.portTo node) (.snoopAnswer · 3 node addr)).outbox ∧
        t.fields = s.fields ∧ SameBytes s t) ∧
      (backWaits s node addr = true → exec (.bisnpdata node addr) s = .next s) ∧
      (backWaits s node addr = false → (s.frame f).st = .clean ∨ (s.frame f).st = .dirty →
        ∃ t, exec (.bisnpdata node addr) s = .next t ∧
        (t.frame f).st = .shared ∧ (t.frame f).unit = (s.frame f).unit ∧ t.fields = s.fields ∧
        t.mem = s.mem ∧ t.pool = (if (s.frame f).st = .dirty then (s.writeBackFrame f).pool else s.pool))) ∧
    (∀ status, 2 < status → exec (.upgCmp addr status) s = .next s) ∧
    (∀ status, status ≤ 2 →
      (∀ g, frameBacked s none addr = some g → (s.frame g).st = .upgrading →
        homeHeard s (s.frame g).unit = false) →
      exec (.upgCmp addr status) s =
        .next (s.endPagerWaits (waitsPgupg s addr) (upgStatus status) true)) ∧
    (∀ status, status ≤ 2 → frameBacked s none addr = some f → (s.frame f).st = .upgrading →
      homeHeard s (s.frame f).unit = true → leaseGone s f = false → ∃ t, exec (.upgCmp addr status) s = .next t ∧
        (t.frame f).st = (if status = 2 then .free else .clean) ∧ t.fields = s.fields ∧ SameBytes s t ∧
        ∀ dn p r u, mget s.pagers dn = some p → p.sw.ctl.wait = .pgupg r u →
          waitsPgupg s addr (.pgupg r u) = some r →
          ∃ p', mget t.pagers dn = some p' ∧
            eff p'.sw = eff (ended p.sw r (if status = 0 then 0 else if status = 1 then 6 else 1)).scalarRegion)

/-- The host's halves: its answer to a snoop writes back what it held dirty, byte by byte, and the half
becomes I or S; an answer to nothing changes nothing; when the host link goes down every half becomes I
and a line with a half held exclusive is poisoned (R328, R333). -/
def Sys2Proof.Claims.HostHalves : Prop :=
  ∀ (s : State) (line : Nat) (hi inv : Bool),
    let addr := line * 128 + 64 * (if hi then 1 else 0)
    let kind := if inv then snpInv else snpData
    let asked := s.snooping kind 0 addr = true ∧ s.snooping snpRebuild 0 addr = false ∧
      ∀ h ∈ s.heldFills, h.2 / 65536 ≠ line / 512
    (s.snooping kind 0 addr = false → s.snooping snpRebuild 0 addr = false → ∀ d,
      exec (.hostSnoopResponse line hi inv d) s = .next s) ∧
    (asked → ∃ t, exec (.hostSnoopResponse line hi inv none) s = .next t ∧
      t.outbox = s.outbox.filter (fun o => !o.isSnoop kind 0 addr) ∧
      halfState t line (if hi then 1 else 0) = (if inv then 0 else 1) ∧
      halfState t line (if hi then 0 else 1) = halfState s line (if hi then 0 else 1) ∧
      SameCores s t ∧ SameBytes s t) ∧
    (asked → s.mem.wf = true → dregion (line * 128) = .hbm → ∀ d,
      ∃ t, exec (.hostSnoopResponse line hi inv (some d)) s = .next t ∧
        (∀ i < 64, t.mem.rd (addr + i) = d.extractLsb' (8 * i) 8) ∧
        (∀ a, a < addr ∨ addr + 64 ≤ a → t.mem.rd a = s.mem.rd a) ∧ t.pool = s.pool ∧
        halfState t line (if hi then 1 else 0) = (if inv then 0 else 1) ∧ SameCores s t) ∧
    (s.eccWaits = [] → ∃ t, exec .hostLinkDown s = .next t ∧ t.heath.hostDown = true ∧ SameCores s t ∧
      SameBytes s t ∧ (∀ e ∈ t.dir, e.2.hlo = 0 ∧ e.2.hhi = 0) ∧
      (∀ h, h ∈ t.heldFills ↔ h ∈ s.heldFills ∧ h.1 ≠ 0 ∧ h.1 ≠ hostExcl) ∧
      (∀ e ∈ s.dir, e.2.hlo = 2 ∨ e.2.hhi = 2 → e.1 ∈ t.poisoned) ∧
      (∀ l, l ∈ t.poisoned → l ∈ s.poisoned ∨ ∃ e ∈ s.dir, e.1 = l ∧ (e.2.hlo = 2 ∨ e.2.hhi = 2)))

/-- Dead agents: three missed heartbeats fence the agent's ports and log it; no entry of the directory
names it afterwards, and the lines it owned are poisoned; fewer missed heartbeats, and a walk for a live
agent, change nothing. A heartbeat counts for every agent whose ROUTE is nonzero, and goes out on its
lowest port; one that comes over a port that is not fenced ends the count; a retrained port is fenced no
longer (R332, R333, R431). -/
def Sys2Proof.Claims.DeadAgents : Prop :=
  ∀ (s : State) (node slot port : Nat),
    ((s.node node).missed < 3 → exec (.agentDead node) s = .next s) ∧
    (3 ≤ (s.node node).missed → exec (.agentDead node) s = .next (s.agentDead node)) ∧
    (s.upgrades = [] → s.fields = [] → s.eccWaits = [] → s.heldFills = [] → ∃ t, s.agentDead node = t ∧
      (s.node node).route &&& ~~~t.heath.fenced = 0 ∧ s.heath.fenced &&& ~~~t.heath.fenced = 0 ∧
      (∃ e ∈ t.heath.log, e.event = 6 ∧ e.detail = BitVec.ofNat 64 node) ∧
      (∀ k, slotOf s node false = some k →
        (∀ e ∈ t.dir, e.2.shr.getLsbD k = false ∧ (e.2.o = true → e.2.owner ≠ k)) ∧
        ∀ e ∈ s.dir, e.2.o = true → e.2.owner = k → e.1 ∈ t.poisoned)) ∧
    (∀ n, mget s.sharers slot = some n → (s.node n).dead = true →
      ∃ t, exec (.teaselDirectoryWalk slot) s = .next t ∧ SameCores s t ∧ SameBytes s t ∧
        (∀ e ∈ t.dir, e.2.shr.getLsbD slot = false ∧ (e.2.o = true → e.2.owner ≠ slot)) ∧
        ∀ e ∈ s.dir, e.2.o = true → e.2.owner = slot → e.1 ∈ t.poisoned) ∧
    (∀ n, mget s.sharers slot = some n → (s.node n).dead = false →
      exec (.teaselDirectoryWalk slot) s = .next s) ∧
    (s.nodes = [(node, s.node node)] → (s.node node).route ≠ 0 →
      ∃ t, exec .heartbeat s = .next t ∧ (t.node node).missed = (s.node node).missed + 1 ∧
        t.outbox = (s.emit (s.portTo node)
          (.heartbeat · node (Config.ownNode % 4095) s.time)).outbox ∧
        SameCores s t ∧ SameBytes s t) ∧
    ((s.node node).route = 0 ∨ heard s node = false → exec (.heartbeatReceive node) s = .next s) ∧
    ((s.node node).route ≠ 0 → heard s node = true → ∃ t, exec (.heartbeatReceive node) s = .next t ∧
      t.node node = { s.node node with missed := 0 } ∧ (∀ m, m ≠ node → t.node m = s.node m) ∧
      SameCores s t ∧ SameBytes s t) ∧
    (port < 16 → ∃ t, exec (.portRetrain port) s = .next t ∧ t.heath.fenced.getLsbD port = false ∧
      (∀ i, i ≠ port → t.heath.fenced.getLsbD i = s.heath.fenced.getLsbD i) ∧
      SameCores s t ∧ SameBytes s t)

/-- An uncorrectable directory entry: of a range that no agent may write, the entry names every eligible
agent as a sharer; of another, the eligible agents are asked, and the line's accesses wait; with the last
answer the entry is zero, the bytes that one agent alone returned dirty are written at the home, and the
line is poisoned when more than one did. A peer that stays silent is a dead agent; a host that does, for
its low half as slot 0 and its high half as slot 48, is one whose link is down. The error is logged (R334;
whose lease covers the line is notes/assumptions/2.md's free value, and what a silent host is
notes/assumptions/132.md's choice). -/
def Sys2Proof.Claims.DirectoryErrors : Prop :=
  ∀ (s : State) (line : Nat), s.heath.hostPcie = false → s.heath.hostDown = false →
    let logged (t : State) : Prop := ∃ e ∈ t.heath.log, e.event = 2 ∧ e.detail = BitVec.ofNat 64 line
    (rebuilt s line = false → Config.readOnlyClass line = true →
      ∃ t, exec (.directoryEccError line) s = .next t ∧ (t.dirEnt line).o = false ∧
        (∀ k, 0 < k → k < 48 → (t.dirEnt line).shr.getLsbD k = (Config.eligibleSlots line).contains k) ∧
        halfState t line 0 = (if (Config.eligibleSlots line).contains 0 then 1 else 0) ∧
        halfState t line 1 = halfState t line 0 ∧ logged t ∧ SameCores s t ∧ SameBytes s t) ∧
    (rebuilt s line = false → Config.readOnlyClass line = false →
      ∃ t, exec (.directoryEccError line) s = .next t ∧ logged t ∧ SameCores s t ∧ SameBytes s t ∧
        ((∀ k < 48, (Config.eligibleSlots line).contains k = false) → t.dirEnt line = .zero) ∧
        ((∃ k < 48, (Config.eligibleSlots line).contains k = true) → rebuilt t line = true ∧
          ∃ w, t.eccWaits = s.eccWaits ++ [w] ∧ w.line = line ∧ w.dirty = [] ∧
            (∀ k < 48, k ∈ w.owed ↔ (Config.eligibleSlots line).contains k = true) ∧
            (hostExcl ∈ w.owed ↔ (Config.eligibleSlots line).contains 0 = true))) ∧
    (∀ w slot, w ∈ s.eccWaits → w.line = line → slot ∈ w.owed → slot ≠ 0 → slot ≠ hostExcl →
      (∀ u ∈ s.upgrades, u.unit ≠ line / 512) →
      exec (.snoopTimeout slot (line * 128)) s = .next (s.agentDead (slotNode s slot))) ∧
    (∀ w slot, w ∈ s.eccWaits → w.line = line → slot ∈ w.owed → slot = 0 ∨ slot = hostExcl →
      (∀ u ∈ s.upgrades, u.unit ≠ line / 512) →
      exec (.snoopTimeout slot (line * 128)) s = .next (s.hostGone.heathLog 6 0 0 0 (w64 4095))) ∧
    (∀ w slot, s.eccWaits = [w] → w.line = line → w.owed = [slot] → w.fills = [] → slot ≠ 0 →
      heardSlot s slot = true →
      ∃ t, exec (.birspiblk slot (line * 128)) s = .next t ∧ t.eccWaits = [] ∧ t.dirEnt line = .zero ∧
        SameCores s t ∧
        (w.dirty = [] → SameBytes s t) ∧
        (∀ n lo hi, w.dirty = [(n, 0, lo), (n, 1, hi)] → s.mem.wf = true → dregion (line * 128) = .hbm →
          ∀ i < 128, t.mem.rd (line * 128 + i) =
            if i < 64 then lo.extractLsb' (8 * i) 8 else hi.extractLsb' (8 * (i - 64)) 8) ∧
        (∀ m n h k x y, m ≠ n → w.dirty = [(m, h, x), (n, k, y)] →
          line ∈ t.poisoned ∧ SameBytes s t))

/-- A sharer of an upgrade that has not answered every snoop when its timeout runs out is handled at once
as a dead agent, by the same change that three missed heartbeats make and whatever the count of its
missed heartbeats; a sharer that owes nothing is not (R325). -/
def Obligations.SilentSharersAreDeadAgents : Prop :=
  ∀ (s : State) (slot addr : Nat),
    ((∃ u ∈ s.upgrades, u.unit = addr / 65536 ∧ ∃ o ∈ u.owed, o.1 = slot) →
      exec (.snoopTimeout slot addr) s = .next (s.agentDead (slotNode s slot))) ∧
    ((∀ u ∈ s.upgrades, u.unit = addr / 65536 → ∀ o ∈ u.owed, o.1 ≠ slot) →
      (∀ w ∈ s.eccWaits, w.line = addr / 128 → slot ∉ w.owed) →
      exec (.snoopTimeout slot addr) s = .next s) ∧
    (∀ node, 3 ≤ (s.node node).missed → exec (.agentDead node) s = .next (s.agentDead node))

/-- Requests and upgrades at the home: `HomeRequests` and `HomeUpgrades`. -/
def Obligations.HomeServesAndUpgrades : Prop :=
  Claims.HomeRequests ∧ Claims.HomeUpgrades

/-- Snoops at a holder, and the host halves: `HoldersGiveUp` and `HostHalves`. -/
def Obligations.HoldersAndHostHalves : Prop :=
  Claims.HoldersGiveUp ∧ Claims.HostHalves

/-- Dead agents, heartbeats and uncorrectable directory entries: `DeadAgents` and `DirectoryErrors`. -/
def Obligations.DeadAgentsAndDirectoryErrors : Prop :=
  Claims.DeadAgents ∧ Claims.DirectoryErrors

/-! ### Submission, completion and debugging -/

/-- The queue port takes a write of 128 bytes at offset 0 of its page under the tag that is bound to the
queue, while the queue has room: TAIL, ACCEPTED and the device-wide acceptance number rise. A full queue is
busy and changes nothing; any other write is unsupported and logged, and any other access to a port or a
bank is unsupported. The status word holds ACCEPTED and OCC (R408, R409, R420, R427). -/
def Sys2Proof.Claims.QueuePort : Prop :=
  ∀ (s : State) (vf pasid : Option Nat) (page bar off at_ : Nat) (r : List W64),
    let q := s.queue page
    exec (.barUnsupportedAccess vf bar off) s = .next (s.send (.completion cplUnsupported)) ∧
    (q.recs.length ≤ 64 → (queueStatus s page).extractLsb' 32 32 = q.accepted ∧
      (queueStatus s page).extractLsb' 7 25 = 0 ∧ fld (queueStatus s page) 6 0 = q.recs.length) ∧
    (s.heath.bootStep < 6 ∨ at_ ≠ 0 ∨ r.length ≠ 16 ∨ enqueueAs s vf page pasid = none →
      ∃ t, exec (.enqueue vf page at_ pasid r) s = .next t ∧ t.queues = s.queues ∧ t.accNo = s.accNo ∧
        t.outbox = s.outbox ++ [.completion cplUnsupported] ∧ SameCores s t ∧ SameBytes s t ∧
        ∃ e, t.heath.log.getLast? = some e ∧ e.event = 7) ∧
    (page < 1024 → (q.binding = none ∨ pasid = none ∨ ∃ b p, q.binding = some b ∧ pasid = some p ∧ b.pasid ≠ p) →
      enqueueAs s vf page pasid = none) ∧
    (page = 1024 → vf ≠ none ∨ 1 ≤ pasid.getD 0 → enqueueAs s vf page pasid = none) ∧
    (6 ≤ s.heath.bootStep → r.length = 16 → ∀ c cls, enqueueAs s vf page pasid = some (c, cls) →
      (64 ≤ q.recs.length →
        exec (.enqueue vf page 0 pasid r) s = .next (s.send (.completion cplBusy))) ∧
      (q.recs.length < 64 → ∃ t x, exec (.enqueue vf page 0 pasid r) s = .next t ∧
        t.queue page = { q with tail := q.tail + 1, accepted := q.accepted + 1, recs := q.recs ++ [x] } ∧
        x.words = r ∧ x.ctx = c ∧ x.cls = cls ∧ x.accNo = s.accNo ∧ t.accNo = s.accNo + 1 ∧
        (∀ n, n ≠ page → t.queue n = s.queue n) ∧ t.outbox = s.outbox ++ [.completion cplDone] ∧
        SameCores s t ∧ SameBytes s t))

/-- An idle agent claims the oldest record of the management queue, else of the lowest queue of the most
urgent class; HEAD rises and OCC falls by one. An agent with a claim, and one with nothing to claim,
does nothing; a mismatch of an agent that runs is logged, and its claim stays (R412, R413). -/
def Sys2Proof.Claims.AgentClaims : Prop :=
  ∀ (s : State) (core : Nat),
    (192 ≤ core ∨ s.heath.bootStep < 6 ∨ (mget s.claims core).isSome = true ∨
        (∀ p ∈ s.queues, p.2.recs = []) →
      exec (.agentClaim core) s = .next s) ∧
    (core < 192 → 6 ≤ s.heath.bootStep → mget s.claims core = none → ∀ n r rest,
      (s.queue n).recs = r :: rest →
      (n = 1024 ∨ ((s.queue 1024).recs = [] ∧ chooseQueue s = some n)) →
      ∃ t, exec (.agentClaim core) s = .next t ∧ mget t.claims core = some r ∧
        t.queue n = { s.queue n with head := (s.queue n).head + 1, recs := rest } ∧
        (∀ m, m ≠ n → t.queue m = s.queue m) ∧ SameCores s t ∧ SameBytes s t) ∧
    ((s.queue 1024).recs = [] → ∀ n, chooseQueue s = some n →
      ∃ q, (n, q) ∈ s.queues ∧ q.recs ≠ [] ∧ ∀ m p, (m, p) ∈ s.queues → p.recs ≠ [] →
        let cls (q : Queue) := (q.binding.map (·.cls)).getD ((q.recs.head?.map (·.cls)).getD 0)
        cls q < cls p ∨ (cls q = cls p ∧ n ≤ m)) ∧
    (192 ≤ core ∨ s.heath.bootStep < 6 → exec (.agentMismatch core) s = .next s) ∧
    (core < 192 → 6 ≤ s.heath.bootStep → ∃ t, exec (.agentMismatch core) s = .next t ∧
      t.claims = s.claims ∧ SameCores s t ∧ SameBytes s t ∧
      ∃ e, t.heath.log.getLast? = some e ∧ e.event = 11 ∧ e.uindex = core)

/-- The agent's checks of a launch. A malformed enqueue record or launch record, and a range that the
context cannot use, refuse it with `LAUNCH_INVALID`; a range table that its owner must complete makes
the agent wait, and the claim keeps the launch record, which is read once; one that passes becomes a
launch of the least urgent of its classes, with no field yet (R105 to R107, R410, R411). -/
def Sys2Proof.Claims.LaunchChecks : Prop :=
  ∀ (s : State) (core : Nat) (c : Claim) (w : List W64),
    mget s.claims core = some c → c.queue ≠ 1024 →
    let va := (c.words.getD 2 0).toNat
    let goesTo (t : State) : Prop := exec (.launchCheck core) s = .next t
    let refused := (s.refuseLaunch (core / 48) c.ctx c.ltag .launchInvalid).endClaim core
    let kept : Claim := { c with lrec := some w }
    let r := readLaunch w
    let good : Prop := launchFields w = true ∧ launchShape r = true
    (c.waiting = true → goesTo s) ∧
    (c.waiting = false → enqueueOk s c = false → goesTo refused) ∧
    (c.waiting = false → enqueueOk s c = true → c.lrec = none →
      (judge1 s c.ctx false va 128 = .cannot → goesTo refused) ∧
      (∀ e a, judge1 s c.ctx false va 128 = .wait e a → goesTo (s.claimWaits core c e a)) ∧
      (judge1 s c.ctx false va 128 = .can → fetchLaunch s c.ctx va = .ok w →
        goesTo ({ s with claims := mput s.claims core kept }.checkLaunch core kept w))) ∧
    (c.waiting = false → enqueueOk s c = true → c.lrec = some w → goesTo (s.checkLaunch core c w)) ∧
    (¬ good → s.checkLaunch core c w = refused) ∧
    (good → judgeAll s c.ctx (launchRanges r) = .cannot → s.checkLaunch core c w = refused) ∧
    (good → ∀ e a, judgeAll s c.ctx (launchRanges r) = .wait e a →
      s.checkLaunch core c w = s.claimWaits core c e a) ∧
    (good → judgeAll s c.ctx (launchRanges r) = .can →
      ∃ t l, s.checkLaunch core c w = t ∧ mget t.launches (192 + c.accNo) = some l ∧
        l.lrec = r ∧ l.ctx = c.ctx ∧ l.ltag = c.ltag ∧ l.next = 0 ∧ l.finished = 0 ∧ l.done = false ∧
        r.cls ≤ l.cls ∧ c.cls ≤ l.cls ∧
        (∀ x, s.ctx? c.ctx = some x → l.cls = Nat.max r.cls (Nat.max c.cls x.policy.maxClass)) ∧
        mget t.claims core = none ∧ t.fields = s.fields ∧ t.ctxs = s.ctxs ∧ SameBytes s t) ∧
    (c.words.getD 3 0 ≠ 0 → enqueueOk s c = false) ∧
    (va % 128 ≠ 0 → enqueueOk s c = false)

/-- A management record runs its context form as context 0 and answers with a pair in memory and vector
2; one that would trap in a swath answers with 2^63 plus its cause; a malformed one is logged and
dropped (R371, R392, R411). -/
def Sys2Proof.Claims.ManagementRecords : Prop :=
  ∀ (s : State) (core : Nat) (c : Claim), mget s.claims core = some c → c.queue = 1024 →
    let d := c.words
    let dest := (d.getD 7 0).toNat
    (manageOk d = false → ∃ t, exec (.manageExecute core) s = .next t ∧ mget t.claims core = none ∧
      (∃ e, t.heath.log.getLast? = some e ∧ e.event = 7) ∧ t.outbox = s.outbox ∧
      SameCores s t ∧ SameBytes s t) ∧
    (8 ≤ (d.getD 4 0).toNat ∨ dest % 16 ≠ 0 → manageOk d = false) ∧
    (∀ x, manageOk d = true → forContext s 0 0 dest true = .ok x → resultHold s d = none →
      (∀ r s2, manageForm d s = .trap r →
        dpaCaller.wrs dest [BitVec.ofNat 64 (2 ^ 63 + r.cause.code.toNat), 0] s = .ok () s2 →
        exec (.manageExecute core) s = .next ((s2.send (.msix none 2)).endClaim core)) ∧
      (∀ s1 s2 k v, manageForm d s = .done s1 k v →
        dpaCaller.wrs dest [BitVec.ofNat 64 k, v] s1 = .ok () s2 →
        exec (.manageExecute core) s = .next (((s2.send (.msix none 2)).endClaim core).evictDisplaced)))

/-- A launch completes once every field has finished: without COMPL only the vector goes out; with one,
the word with LTAG, the count of FAULTED fields and bit 63 is written at it first; a fault that no pager
serves writes none. A launch that is not over, or is done, stays as it is (R414). -/
def Sys2Proof.Claims.LaunchCompletion : Prop :=
  ∀ (s : State) (n : Nat) (l : Launch), mget s.launches n = some l →
    (l.done = true ∨ l.complWait = true ∨ l.finished ≠ l.lrec.count * l.lrec.group →
      exec (.launchComplete n) s = .next s) ∧
    (l.done = false → l.complWait = false → l.finished = l.lrec.count * l.lrec.group →
      (l.lrec.compl = 0 → ∃ t, exec (.launchComplete n) s = .next t ∧
        mget t.launches n = some { l with done := true } ∧ t.fields = s.fields ∧ SameBytes s t ∧
        (∀ x v, l.irq = true → s.ctx? l.ctx = some x → x.vf = some v → s.masked.contains v = false →
          t.outbox = s.outbox ++ [.msix (some v) l.vec]) ∧
        (l.irq = false → t.outbox = s.outbox)) ∧
      (∀ x, l.lrec.compl ≠ 0 → forContext s 0 l.ctx l.lrec.compl.toNat true = .ok x →
        dregion x.dpa = .hbm → s.mem.wf = true → x.dpa % 8 = 0 →
        writeHold s (x.dpa / 128) (byteMask (x.dpa % 128) 8) = none →
        ∃ t, exec (.launchComplete n) s = .next t ∧ mget t.launches n = some { l with done := true } ∧
          t.mem.rdN x.dpa 8 = l.ltag.toNat + l.faulted % 2 ^ 24 * 2 ^ 32 + 2 ^ 63 ∧
          (∀ a, a < x.dpa ∨ x.dpa + 8 ≤ a → t.mem.rd a = s.mem.rd a) ∧ t.fields = s.fields) ∧
      (∀ e, l.lrec.compl ≠ 0 → forContext s 0 l.ctx l.lrec.compl.toNat true = .error e →
        e.cause.parks = false → e.gate = none →
        exec (.launchComplete n) s = .next (s.agentFault n e.cause.code)))

/-- A debugger command that Heath hears stops the fields that it names: a resident one halts at the bound
of a swap-out, one that is out is stopped at once with its record; a second stop of a stopped field changes
nothing. A release lets a stopped field enter the placement order again. READY of the slot follows, where
nothing keeps the write of that dword back (`quiet`): no other byte is written (R278, R415, R426). -/
def Sys2Proof.Claims.DebuggerCommands : Prop :=
  ∀ (s : State) (via : Via) (ctx ltag num fid : Nat) (f : Field), Heard s via →
    namedFields s ctx ltag num = [fid] → s.field? fid = some f →
    let quiet : Prop := f.saving = true ∨ ∃ l x, mget s.launches f.launch = some l ∧
      forContext s (f.core / 48) f.ctx (slotVa l.lrec f) true = .ok x ∧ s.slotWaits = [] ∧
      s.homeWrites = [] ∧ writeHold s (x.dpa / 128) (byteMask (x.dpa % 128) 8) = none
    let slotSays (t : State) (v : Nat) : Prop :=
      (f.saving = true → SameBytes s t) ∧
      (∀ l x, f.saving = false → mget s.launches f.launch = some l →
        forContext s (f.core / 48) f.ctx (slotVa l.lrec f) true = .ok x → dregion x.dpa = .hbm →
        s.mem.wf = true →
        t.mem.rdN x.dpa 8 = v ∧ ∀ a, a < x.dpa ∨ x.dpa + 8 ≤ a → t.mem.rd a = s.mem.rd a)
    (f.status = .resident → f.stop = none →
      ∃ t g, exec (.debugStop via ctx ltag num) s = .next t ∧ t.field? fid = some { f with stop := some g } ∧
        g.cmd = true ∧ g.brk = false ∧ g.halted = false ∧ (∀ i, i ≠ fid → t.field? i = s.field? i) ∧
        SameBytes s t) ∧
    (f.status = .swapped → f.stop = none → s.bankOf f.ctx = none → quiet →
      ∃ t g, exec (.debugStop via ctx ltag num) s = .next t ∧
        t.field? fid = some { f with ready := false, stop := some g } ∧ g.cmd = true ∧ g.halted = true ∧
        (∃ r, t.outbox = s.outbox ++ [.stopRec r]) ∧ slotSays t 1) ∧
    (∀ g, f.stop = some g → g.halted = true → f.status = .swapped →
      exec (.debugStop via ctx ltag num) s = .next s) ∧
    (∀ g, f.stop = some g → g.halted = true → quiet →
      ∃ t h, exec (.debugRelease via ctx ltag num) s = .next t ∧
      t.field? fid = some h ∧ h.stop = none ∧ h.sws = f.sws ∧ h.status = f.status ∧
      (∀ i, i ≠ fid → t.field? i = s.field? i) ∧
      (f.status = .swapped → f.ready = false → ({ f with stop := none } : Field).resumable = true →
        h.ready = true ∧ slotSays t 5) ∧
      (f.status ≠ .swapped ∨ ({ f with stop := none } : Field).resumable = false → SameBytes s t)) ∧
    (f.stop = none → exec (.debugRelease via ctx ltag num) s = .next s)

/-- The registers of a counter bank: CLR zeroes the counters and keeps the ranges; offset 0 sets the
enables; a bin takes its range; LOGBASE and the modes are written only while no log is in progress;
every other offset ignores a write, one that is not aligned is unsupported, and no other bank changes
(R420). -/
def Sys2Proof.Claims.BankWrites : Prop :=
  ∀ (s : State) (vf : Option Nat) (off i : Nat) (v : W64),
    let n := bankNoOf vf
    let b := mgetD s.banks n .zero
    let writes (e : Instr) (P : Bank → Prop) : Prop :=
      ∃ t, exec e s = .next t ∧ P (mgetD t.banks n .zero) ∧
        (∀ m, m ≠ n → mget t.banks m = mget s.banks m) ∧ t.outbox = s.outbox ∧ SameCores s t ∧ SameBytes s t
    writes (.counterClear vf) (fun c => c.counters = [] ∧ c.en = b.en ∧ c.logProd = b.logProd ∧
      ∀ k x, mget b.bins k = some x → ∃ y, mget c.bins k = some y ∧ y.lo = x.lo ∧ y.hi = x.hi ∧
        y.active = 0 ∧ y.masked = 0 ∧ y.predOff = 0 ∧ y.absent = 0 ∧ y.idle = 0 ∧ y.passes = 0) ∧
    writes (.counterBankWrite vf 0 v) (fun c => c.en = v.getLsbD 0 ∧ c.lcen = v.getLsbD 2 ∧
      (v.getLsbD 1 = true → c.counters = []) ∧ (v.getLsbD 1 = false → c.counters = b.counters)) ∧
    (i < 16 → writes (.counterBankWrite vf (0x100 + 16 * i) v) (fun c =>
      ∃ x, mget c.bins i = some x ∧ x.lo = v.extractLsb' 0 32 ∧ x.hi = v.extractLsb' 32 32 ∧
        c.counters = b.counters ∧ ∀ k, k ≠ i → mget c.bins k = mget b.bins k)) ∧
    (off % 8 ≠ 0 → exec (.counterBankWrite vf off v) s = .next (s.send (.completion cplUnsupported))) ∧
    (off % 8 = 0 → off ≠ 0 → off ≠ 0x600 → off ≠ 0x608 → (off < 0x100 ∨ 0x200 ≤ off ∨ off % 16 ≠ 0) →
      writes (.counterBankWrite vf off v) (fun c => c = b)) ∧
    (b.nr = false → b.logProd ≠ 0 → writes (.logModeWrite vf off v) (fun c => c = b)) ∧
    (b.nr = true ∨ b.logProd = 0 →
      writes (.logModeWrite vf 0x600 v) (fun c =>
        c = { b with logBase := v.extractLsb' 6 58 ++ 0#6 }) ∧
      writes (.logModeWrite vf 0x608 v) (fun c => c.logSz = (v.extractLsb' 0 5).toNat ∧
        c.trace = v.getLsbD 8 ∧ c.record = v.getLsbD 9 ∧ c.replay = v.getLsbD 10 ∧
        c.logBase = b.logBase ∧ c.logSeq = 0))

/-- What a read of a bank shows: the range of a bin, the enables, LOGBASE and the modes as they were last
written, with the bits that are reserved as 0; after CLR every counter is 0, but for those whose value is
free while the bank is enabled (R420; notes/assumptions/80.md). -/
def Sys2Proof.Claims.BankReads : Prop :=
  ∀ (s : State) (vf : Option Nat) (i j : Nat) (v : W64),
    let shows (e : Instr) (off : Nat) (x : W64) : Prop := ∃ t, exec e s = .next t ∧ bankRead t vf off = x
    let b := mgetD s.banks (bankNoOf vf) .zero
    shows (.counterBankWrite vf 0 v) 0 (v &&& 5) ∧
    (i < 16 → shows (.counterBankWrite vf (0x100 + 16 * i) v) (0x100 + 16 * i) v) ∧
    (b.nr = true ∨ b.logProd = 0 →
      shows (.logModeWrite vf 0x600 v) 0x600 (v &&& ~~~(0x3F : W64)) ∧
      shows (.logModeWrite vf 0x608 v) 0x608 (v &&& 0x71F)) ∧
    (1 ≤ i → i ≤ 12 → freeCounter i = false ∨ b.en = false → shows (.counterClear vf) (8 * i) 0) ∧
    (i < 16 → j < 8 → shows (.counterClear vf) (0x200 + 64 * i + 8 * j) 0)

/-- The queue port and the claims of the agents: `QueuePort` and `AgentClaims`. -/
def Obligations.SubmissionIsInOrder : Prop :=
  Claims.QueuePort ∧ Claims.AgentClaims

/-- Checks of a launch and its completion: `LaunchChecks` and `LaunchCompletion`. -/
def Obligations.LaunchesAreCheckedAndComplete : Prop :=
  Claims.LaunchChecks ∧ Claims.LaunchCompletion

/-- Debugger stops and counter banks: `DebuggerCommands`, `BankWrites` and `BankReads`. -/
def Obligations.DebuggersAndCounterBanks : Prop :=
  Claims.DebuggerCommands ∧ Claims.BankWrites ∧ Claims.BankReads

/-! ### Heath -/

/-- A reset clears the device: no field, launch, queue record, claim, lease, copy or translation stays,
and context 0 is as at reset; Heath keeps its log, and a staged image becomes the active one; the pool
stays. Power loss does the same, loses HBM and holds the device until a reset (R427 to R430). That the
pool nodes keep their bytes, and what HBM holds, are notes/assumptions/4.md. -/
def Sys2Proof.Claims.ResetEvents : Prop :=
  ∀ (s : State),
    (∃ t, exec .deviceReset s = .next t ∧ t.fields = [] ∧ t.launches = [] ∧ t.queues = [] ∧ t.claims = [] ∧
      t.ctxs = [(0, Context.root0)] ∧ t.leases = [] ∧ t.frames = [] ∧ t.l1 = [] ∧ t.l2 = [] ∧ t.tlb = [] ∧
      t.keys = [] ∧ t.dir = [] ∧ t.regions = [] ∧ t.banks = [] ∧ t.time = 0 ∧ t.pool = s.pool ∧
      t.heath.bootStep = 0 ∧ t.heath.log = s.heath.log ∧ t.heath.scrubMark = s.heath.scrubMark ∧
      t.heath.session = false ∧ t.heath.carved = [] ∧ t.heath.llcCarve = [] ∧ t.heath.held = false ∧
      (∀ i x, mget s.heath.images i = some x → mget t.heath.images i =
        some (if x.staged then { active := x.other, other := x.active, staged := false, fresh := true } else x)) ∧
      (s.mem.wf = true → ∀ a, t.mem.rd a = s.mem.rd a ∨ t.mem.rd a = 0) ∧
      (∀ a, 4 * hbmPerDie ≤ a → t.mem.rd a = 0) ∧
      (s.heath.scrubMark = true → ∀ f o, f < 4 * framesPerDie → o < 65536 →
        (s.frame f).role = .cache ∨ (s.frame f).role = .local_ ∨ (s.frame f).role = .reserve →
        t.mem.rd (frameDpa f + o) = 0)) ∧
    (∃ t, exec .powerLoss s = .next t ∧ t.fields = [] ∧ t.mem = [] ∧ t.heath.held = true ∧
      t.heath.log = s.heath.log ∧ ∀ ok, exec (.bootStepComplete ok) t = .next t)

/-- The boot sequence: each step ends before the next begins; steps 1 and 2 that fail are logged, and an
image that fails, newly active, goes back to its other slot, no other; the scrub-pending mark goes with step 3; the pager firmware starts at step 5;
after step 6 nothing is left (R407, R427, R428). Which images fail in step 2 is notes/assumptions/155.md's
free value. -/
def Sys2Proof.Claims.BootSteps : Prop :=
  ∀ (s : State),
    (s.heath.held = true ∨ 6 ≤ s.heath.bootStep → ∀ ok, exec (.bootStepComplete ok) s = .next s) ∧
    (s.heath.held = false → s.heath.bootStep < 6 →
      (∃ t, exec (.bootStepComplete true) s = .next t ∧ t.heath.bootStep = s.heath.bootStep + 1 ∧
        t.heath.log = s.heath.log ∧ t.fields = s.fields ∧ SameBytes s t ∧
        (s.heath.bootStep = 1 → t.keys = []) ∧
        t.heath.scrubMark = (if s.heath.bootStep = 2 then false else s.heath.scrubMark) ∧
        (s.heath.bootStep = 4 → ∀ d p, mget s.pagers d = some p → ∃ q, mget t.pagers d = some q ∧
          q.running = true ∧ q.sw = Swath.zero ∧ q.imgLen = 4 * (Config.pagerImage d).length)) ∧
      (∃ t, exec (.bootStepComplete false) s = .next t ∧ t.heath.bootStep = s.heath.bootStep ∧
        t.fields = s.fields ∧ SameBytes s t ∧
        (s.heath.bootStep < 2 → ∃ e, t.heath.log.getLast? = some e ∧ e.event = 10 ∧
          e.uindex = s.heath.bootStep) ∧
        (s.heath.bootStep = 0 → (s.heath.image 0).fresh = true →
          t.heath.held = false ∧ (t.heath.image 0).active = (s.heath.image 0).other) ∧
        (s.heath.bootStep = 0 → (s.heath.image 0).fresh = false → t.heath.held = true) ∧
        (s.heath.bootStep = 1 → t.heath.held = false ∧ t.heath.image 0 = s.heath.image 0 ∧
          ∀ i, t.heath.image i = s.heath.image i ∨ ((s.heath.image i).fresh = true ∧
            t.heath.image i = { active := (s.heath.image i).other, other := (s.heath.image i).active,
                                staged := false, fresh := false }))))

/-- Heath answers each request of its list with one message once its own image runs, and says nothing
before; measurements cover the versions of the three images, the log is read entry by entry, a sensor is
read, the algorithm offered is ML-DSA-44 over SHA3-256, and a session opens and ends. What DSP0236 and
DSP0274 put into an answer is a free value (R14, R426, R429). -/
def Sys2Proof.Claims.HeathAnswers : Prop :=
  ∀ (s : State) (via : Via) (i : Instr) (k n : Nat),
    (Heard s via →
      (∃ t d, exec (.logRead via n) s = .next t ∧ t.outbox = s.outbox ++ [.answer 27 d] ∧
        t.heath = s.heath ∧ SameCores s t ∧ SameBytes s t ∧
        ∀ e, s.heath.log[n]? = some e → d = e.bytes ∧ d.length = 32) ∧
      (∃ t d, exec (.sensorRead via n) s = .next t ∧ t.outbox = s.outbox ++ [.answer 28 d] ∧
        d.length = 8 ∧ t.heath = s.heath ∧ SameCores s t ∧ SameBytes s t)) ∧
    ((i, k) ∈ [(Instr.mctpControl, 16), (.getVersion, 17), (.getCapabilities, 18), (.negotiateAlgorithms, 19),
      (.getDigests, 20), (.getCertificate, 21), (.challenge, 22), (.getMeasurements, 23), (.finish, 25)] →
    ∃ t, exec i s = .next t ∧ SameCores s t ∧ SameBytes s t ∧ t.heath = s.heath ∧
      (s.heath.bootStep = 0 → t.outbox = s.outbox) ∧
      (1 ≤ s.heath.bootStep → ∃ d, t.outbox = s.outbox ++ [.answer k d] ∧
        (i = .getMeasurements → ∃ r,
          d = [0, 1, 2].flatMap (fun m => leBytes 4 (s.heath.image m).active.toNat) ++ r) ∧
        (i = .negotiateAlgorithms → ∃ r, d = Config.mlDsa44Sha3 ++ r))) ∧
    (1 ≤ s.heath.bootStep →
      (∃ t d, exec .keyExchange s = .next t ∧ t.heath = { s.heath with session := true } ∧
        t.outbox = s.outbox ++ [.answer 24 d] ∧ SameCores s t ∧ SameBytes s t) ∧
      (∃ t d, exec .endSession s = .next t ∧ t.heath = { s.heath with session := false } ∧
        t.outbox = s.outbox ++ [.answer 26 d] ∧ SameCores s t ∧ SameBytes s t))

/-- Management commands: Heath hears none before its own image is verified, nor while that image's failure
holds the device; one that comes over PCIe from a virtual function is refused. A virtual function goes to
one live context that has none; an image is staged, and a key replaced, only inside a session, no lower
version and no key after the first pool access; a refused command changes nothing and is logged. The rings
of context 0 are set empty (R393, R402, R404, R426 to R428; what Heath does with a command that it refuses
is notes/assumptions/154.md). -/
def Sys2Proof.Claims.GuardedCommands : Prop :=
  ∀ (s : State) (via : Via) (vf c image n k : Nat) (x : Context) (ver : W32) (ok : Bool)
      (rb tb : W64) (rs ts : Nat) (key : BitVec 512) (m : W64) (o : Option Nat),
    let refused (i : Instr) : Prop := ∃ t, exec i s = .next t ∧ SameCores s t ∧ SameBytes s t ∧
      t.keys = s.keys ∧ t.heath.images = s.heath.images ∧
      (∃ e, t.heath.log.getLast? = some e ∧ e.event = 7)
    (∀ i ∈ [Instr.vfBind via vf o, .llcCarve via n k, .bankCarve via n m ok, .logRead via n,
        .updateStage via image ver ok, .sensorRead via n, .keyReplace via c key, .debugStop via c n k,
        .debugRelease via c n k, .regionCreate via n k c rs ts o, .regionDestroy via n],
      (s.heath.held = true ∨ s.heath.bootStep = 0 → exec i s = .next s) ∧
      (s.heath.held = false → s.heath.bootStep ≠ 0 → ∀ f, via = .pcie (some f) → refused i)) ∧
    (Heard s via → s.ctx? c = some x →
      (vf < 512 → x.state = .live → x.vf = none → (∀ y ∈ s.ctxs, y.2.vf ≠ some vf) →
        exec (.vfBind via vf (some c)) s = .next (s.updCtx c (fun x => { x with vf := some vf }))) ∧
      (512 ≤ vf ∨ x.state ≠ .live ∨ x.vf ≠ none ∨ (∃ y ∈ s.ctxs, y.2.vf = some vf) →
        refused (.vfBind via vf (some c)))) ∧
    (Heard s via → s.ctx? c = none → refused (.vfBind via vf (some c)) ∧ refused (.keyReplace via c key)) ∧
    (Heard s via → ∃ t, exec (.vfBind via vf none) s = .next t ∧ SameBytes s t ∧ t.fields = s.fields ∧
      ∀ d y, s.ctx? d = some y → ∃ z, t.ctx? d = some z ∧ z.vf ≠ some vf ∧ (y.vf ≠ some vf → z = y)) ∧
    (Heard s via → s.heath.session = false ∨ 3 ≤ image ∨ ver < (s.heath.image image).active →
      refused (.updateStage via image ver ok)) ∧
    (Heard s via → s.heath.session = true → image < 3 → (s.heath.image image).active ≤ ver →
      ∃ t, exec (.updateStage via image ver ok) s = .next t ∧ (t.heath.image image).other = ver ∧
        (t.heath.image image).staged = ok ∧ (t.heath.image image).active = (s.heath.image image).active ∧
        (∀ j, j ≠ image → t.heath.image j = s.heath.image j) ∧ SameCores s t ∧ SameBytes s t) ∧
    (Heard s via → s.ctx? c = some x → ∀ slot, x.key = some slot →
      (s.heath.session = false ∨ x.policy.prot = false ∨ x.poolUsed = true →
        refused (.keyReplace via c key)) ∧
      (s.heath.session = true → x.policy.prot = true → x.poolUsed = false →
        ∃ t, exec (.keyReplace via c key) s = .next t ∧ mget t.keys slot = some key ∧
          (∀ j, j ≠ slot → mget t.keys j = mget s.keys j) ∧ SameCores s t ∧ SameBytes s t)) ∧
    (Heard s via → s.ctx? c = some x → x.key = none → refused (.keyReplace via c key)) ∧
    (∀ y, s.ctx? 0 = some y → ∃ t, exec (.context0RingsSet rb tb rs ts) s = .next t ∧
      t.ctx? 0 = some { y with retry := { base := rb, size := rs, prod := 0, lost := 0 },
                               terminal := { base := tb, size := ts, prod := 0, lost := 0 } } ∧
      (∀ d, d ≠ 0 → t.ctx? d = s.ctx? d) ∧ SameBytes s t)

/-- Carving, from boot step 4 on: a die's LLC part takes 0 to 128 MiB in steps of 16, and what it gives up reads 0; a core's
banks are carved only while context 0 holds them ungranted, appear ascending at the end of the SRAM part
reading 0, and are released only from the end and while no range covers them; Teasel's zeroing ends a
release (R255, R256, R427). The order of the banks over several commands is notes/assumptions/92.md. -/
def Sys2Proof.Claims.Carving : Prop :=
  ∀ (s : State) (via : Via) (die mib core bank : Nat) (m : W64), Heard s via →
    let old := s.carvedBanks core
    let n := old.length
    let k := (bankList m).length
    let base := sramBase + core * 0x100000
    let refused (i : Instr) : Prop := ∃ t, exec i s = .next t ∧ SameCores s t ∧ SameBytes s t ∧
      t.heath.carved = s.heath.carved ∧ t.heath.llcCarve = s.heath.llcCarve ∧
      (∃ e, t.heath.log.getLast? = some e ∧ e.event = 7)
    (s.heath.bootStep < 4 ∨ 4 ≤ die ∨ 128 < mib ∨ mib % 16 ≠ 0 → refused (.llcCarve via die mib)) ∧
    (4 ≤ s.heath.bootStep → die < 4 → mib ≤ 128 → mib % 16 = 0 → s.mem.wf = true →
      ∃ t, exec (.llcCarve via die mib) s = .next t ∧ t.llcCarved die = mib * 0x100000 ∧
        (∀ d, d ≠ die → t.llcCarved d = s.llcCarved d) ∧ t.pool = s.pool ∧ SameCores s t ∧
        (∀ a, llcBase + die * 0x8000000 + mib * 0x100000 ≤ a →
          a < llcBase + die * 0x8000000 + s.llcCarved die → t.mem.rd a = 0) ∧
        (∀ a, a < llcBase + die * 0x8000000 + mib * 0x100000 ∨
          llcBase + die * 0x8000000 + s.llcCarved die ≤ a → t.mem.rd a = s.mem.rd a)) ∧
    (s.heath.bootStep < 4 ∨ 192 ≤ core → ∀ r, refused (.bankCarve via core m r)) ∧
    ((∃ b < 64, m.getLsbD b = true ∧ (b ∈ old ∨ unitBarred s 2 (64 * core + b) = true ∨
        ∃ y ∈ s.children 0, (bankMask y.2.grants core).getLsbD b = true)) →
      refused (.bankCarve via core m false)) ∧
    (4 ≤ s.heath.bootStep → core < 192 → s.mem.wf = true →
      (∀ b < 64, m.getLsbD b = true → b ∉ old ∧ unitBarred s 2 (64 * core + b) = false ∧
        ∀ y ∈ s.children 0, (bankMask y.2.grants core).getLsbD b = false) →
      ∃ t, exec (.bankCarve via core m false) s = .next t ∧ t.carvedBanks core = old ++ bankList m ∧
        (∀ i < 16384 * k, t.mem.rd (base + 16384 * n + i) = 0) ∧
        (∀ a, a < base + 16384 * n ∨ base + 16384 * (n + k) ≤ a → t.mem.rd a = s.mem.rd a) ∧
        t.pool = s.pool ∧ SameCores s t) ∧
    (n < k ∨ (∃ b ∈ old.drop (n - k), m.getLsbD b = false) → refused (.bankCarve via core m true)) ∧
    (0 < k → (∃ x ∈ s.ctxs, ∃ r ∈ x.2.ranges, r.dbase < base + 16384 * n ∧
        base + 16384 * (n - k) < r.dbase + r.len * 65536) → refused (.bankCarve via core m true)) ∧
    (4 ≤ s.heath.bootStep → core < 192 → s.mem.wf = true → k ≤ n → (∀ b ∈ old.drop (n - k), m.getLsbD b = true) →
      (∀ x ∈ s.ctxs, ∀ r ∈ x.2.ranges, base + 16384 * n ≤ r.dbase ∨
        r.dbase + r.len * 65536 ≤ base + 16384 * (n - k)) →
      ∃ t, exec (.bankCarve via core m true) s = .next t ∧ t.carvedBanks core = old.take (n - k) ∧
        (∀ b ∈ bankList m, (core, b) ∈ t.heath.released) ∧
        (∀ a, base + 16384 * (n - k) ≤ a → a < base + 16384 * n → t.mem.rd a = 0) ∧
        t.pool = s.pool ∧ SameCores s t) ∧
    (∃ t, exec (.releasedBankZero core bank) s = .next t ∧ (core, bank) ∉ t.heath.released ∧
      t.heath.carved = s.heath.carved ∧ SameCores s t ∧ SameBytes s t)

/-- Power and temperature: a sample enters the ten that the average is taken of; readings below 105 °C
are kept, and one at 105 °C or above resets the device with its log kept (R430). -/
def Sys2Proof.Claims.PowerAndTemperature : Prop :=
  ∀ (s : State) (mw : Nat) (l : List Nat),
    (∃ t, exec (.powerSample mw) s = .next t ∧ t.heath.power.getLast? = some mw ∧
      (s.heath.power.length < 10 → t.heath.power = s.heath.power ++ [mw]) ∧
      (s.heath.power.length = 10 → t.heath.power = s.heath.power.tail ++ [mw]) ∧
      SameCores s t ∧ SameBytes s t) ∧
    ((∀ x ∈ l, x < 105) → ∃ t, exec (.temperatureSample l) s = .next t ∧ t.heath.temps = l ∧
      SameCores s t ∧ SameBytes s t) ∧
    ((∃ x ∈ l, 105 ≤ x) → ∃ t, exec (.temperatureSample l) s = .next t ∧ t.fields = [] ∧
      t.heath.bootStep = 0 ∧ ∃ e, t.heath.log.getLast? = some e ∧ e.event = 9)

/-- Errors: each is logged, the fields on the unit are swapped out, and the unit is put under test; an
uncorrectable error poisons its line, or ends the fields on a unit of a core; an error in a unit under test
is a failure of the test. A unit that passes its test is in use again, one that fails is tested once more,
and one that fails twice is retired for good, or fenced, when it is an LLC slice whose successor cannot take
its pinned shares (R432 to R434). -/
def Sys2Proof.Claims.ErrorsAndTests : Prop :=
  ∀ (s : State) (cls idx line : Nat), 1 ≤ cls → unitExists cls idx = true →
    let fresh : Prop := s.heath.retired.contains (cls, idx) = false ∧
      (cls = 4 → s.heath.shutSlices.contains idx = false)
    let tested (u : State) : State :=
      let v := (fieldsOn u cls idx).foldl (fun s i => s.swapGroup i) u
      { v with heath := { v.heath with testing := v.heath.testing ++ [(cls, idx, 0)] } }
    let corrected := s.heathLog 1 cls idx 0 0
    let uncorrected := s.heathLog 2 cls idx 0 (BitVec.ofNat 64 line)
    -- the error, with whatever fields stand on the unit
    (fresh → underTest s cls idx = none →
      exec (.correctedError cls idx) s = .next (tested corrected) ∧
      exec (.uncorrectableError cls idx (some line)) s = .next (tested (uncorrected.poison line)) ∧
      exec (.uncorrectableError cls idx none) s =
        .next (((s.heathLog 2 cls idx 0 0).loseUnit cls idx).startTest cls idx)) ∧
    (fresh → ∀ n, underTest s cls idx = some n →
      exec (.correctedError cls idx) s = .next (corrected.testFails cls idx n) ∧
      exec (.uncorrectableError cls idx (some line)) s =
        .next ((uncorrected.poison line).testFails cls idx n)) ∧
    -- a field on the unit leaves it, and its image slot takes its state
    (∀ fid f l s1, fieldsOn s cls idx = [fid] → s.field? fid = some f → onUnit cls idx f = true →
      mget s.launches f.launch = some l → l.lrec.mw = 0 →
      let g := { f.leave .swapped with
        ready := (f.leave .swapped).resumable, readyAt := s.nextReady }
      let s0 := { s.setField fid g with nextReady := s.nextReady + 1 }
      slotHold s0 (f.core / 48) f.ctx (slotVa l.lrec g) l.lrec g = none →
      s0.storeSlot (f.core / 48) f.ctx (slotVa l.lrec g) l.lrec g = .ok s1 → s1.field? fid = some g →
      ∃ h, (tested s).field? fid = some h ∧ h.status = .swapped ∧ onUnit cls idx h = false) ∧
    (fresh → underTest s cls idx = none → fieldsOn s cls idx = [] →
      (∃ t, exec (.correctedError cls idx) s = .next t ∧ underTest t cls idx = some 0 ∧
        t.heath.retired = s.heath.retired ∧ SameCores s t ∧ SameBytes s t ∧
        ∃ e, t.heath.log.getLast? = some e ∧ e.event = 1 ∧ e.uclass = cls ∧ e.uindex = idx) ∧
      (∃ t, exec (.uncorrectableError cls idx (some line)) s = .next t ∧ underTest t cls idx = some 0 ∧
        line ∈ t.poisoned ∧ SameCores s t ∧ SameBytes s t ∧
        ∃ e, t.heath.log.getLast? = some e ∧ e.event = 2 ∧ e.uclass = cls ∧ e.uindex = idx)) ∧
    (underTest s cls idx = none → ∀ p, exec (.unitTestComplete cls idx p) s = .next s) ∧
    (∀ n, underTest s cls idx = some n →
      (∃ t, exec (.unitTestComplete cls idx true) s = .next t ∧ underTest t cls idx = none ∧
        t.heath.retired = s.heath.retired ∧ SameCores s t ∧ SameBytes s t ∧
        ∃ e, t.heath.log.getLast? = some e ∧ e.event = 3) ∧
      (n = 0 → ∃ t, exec (.unitTestComplete cls idx false) s = .next t ∧ underTest t cls idx = some 1 ∧
        t.heath.retired = s.heath.retired ∧ SameCores s t ∧ SameBytes s t) ∧
      (1 ≤ n → cls = 4 → sliceFits s idx = false →
        ∃ t, exec (.unitTestComplete cls idx false) s = .next t ∧ underTest t cls idx = none ∧
        idx ∈ t.heath.shutSlices ∧ t.heath.retired = s.heath.retired ∧
        ∃ e, t.heath.log.getLast? = some e ∧ e.event = 4 ∧ e.uclass = cls ∧ e.uindex = idx) ∧
      (1 ≤ n → cls ≠ 4 ∨ sliceFits s idx = true → ∃ t, exec (.unitTestComplete cls idx false) s = .next t ∧ underTest t cls idx = none ∧
        (cls, idx) ∈ t.heath.retired ∧ unitBarred t cls idx = true ∧
        ∃ e, t.heath.log.getLast? = some e ∧ e.event = 4 ∧ e.uclass = cls ∧ e.uindex = idx))

/-- A tag parity error of an L2 takes every line of the set without write-back, and no other; with no
dirty line in an L2 of the die, and none in an LLC slice where the summary cannot be read, no context is
told (R435; whether a summary is readable is free, and so is what the LLC slices hold,
notes/assumptions/111.md). -/
def Sys2Proof.Claims.TagParity : Prop :=
  ∀ (s : State) (unit set : Nat), unit < 32 →
    (∀ c ∈ s.l2, c.unit / 8 = unit / 8 → c.dirty = 0) →
    Config.freeBool s.freeCtr = true ∨ llcDirty s (unit / 8) = [] →
    ∃ t, exec (.tagParityError true unit set) s = .next t ∧ t.l1 = s.l1 ∧
      (∀ c, c ∈ t.l2 ↔ c ∈ s.l2 ∧ ¬(c.unit = unit ∧ Config.cacheSet c.ctx c.va = set)) ∧
      t.ringWaits = s.ringWaits ∧ SameCores s t ∧ SameBytes s t ∧
      ∃ e, t.heath.log.getLast? = some e ∧ e.event = 5 ∧ e.detail = BitVec.ofNat 64 set

/-- Management records and management commands: `ManagementRecords` and `GuardedCommands`. -/
def Obligations.ManagementCommandsAreGuarded : Prop :=
  Claims.ManagementRecords ∧ Claims.GuardedCommands

/-- Device reset, power loss and the boot sequence: `ResetEvents` and `BootSteps`. -/
def Obligations.ResetAndBoot : Prop :=
  Claims.ResetEvents ∧ Claims.BootSteps

/-- Requests that Heath answers, and carving: `HeathAnswers` and `Carving`. -/
def Obligations.HeathAnswersAndCarves : Prop :=
  Claims.HeathAnswers ∧ Claims.Carving

/-- Power, temperature, errors, tests and tag parity: `PowerAndTemperature` and `ErrorsAndTests` and
`TagParity`. -/
def Obligations.ErrorsTestsAndRetirement : Prop :=
  Claims.PowerAndTemperature ∧ Claims.ErrorsAndTests ∧ Claims.TagParity

/-! ### Decoding, the step, and what every step keeps -/

/-- Words that the chapters write out decode to the instructions that they stand for (R16 to R24). -/
def Obligations.DecodedWords : Prop :=
  decode (.scalar 0x2028DFF6) = .ok (.addi 5 6 (BitVec.ofInt 11 (-3)) 2) ∧
  decode (.scalar 0xFE02468A) = .ok (.lit 0x2468A) ∧
  decode (.scalar 0x8A018008) = .ok (.bars 0 12 0) ∧
  decode (.scalar 0xA000C38C) = .ok (.atomAdd 0 6 7 0 3 0) ∧
  decode (.scalar 0x94010000) = .ok (.mmul 0 8 0) ∧
  decode (.scalar 0xC0080049) = .ok (.mfsr 1 0x12 1) ∧
  decode (.scalar 0xD238C000) = .ok (.pgfill 7 6 0) ∧
  decode (.scalar 0xD8528A84) = .ok (.ctxgrant 5 20 21 0) ∧
  decode (.lane (0x10C10141#32 ++ 0x81CA7510#32 ++ 0#32)) =
    .ok (.ffma { h := { guard := 2, neg := true, stall := 3, mark := true }, ty := .f32, sub := 1,
                 vd := 4, va := 5, b := .reg 6, c := .reg 7 }) ∧
  decode (.lane (0x50400000#32 ++ 0x00040000#32 ++ 0x00050004#32)) =
    .ok (.brd { guard := 1, neg := false, stall := 0, mark := false } 0x00050004) ∧
  decode (.lane (0x7001C180#32 ++ 0x410401B9#32 ++ 0#32)) =
    .ok (.laneAtomAdd { h := { guard := 1, neg := false, stall := 0, mark := false }, ty := .n32,
                        scope := 3, vd := 7, va := 6,
                        m := { base := .uni 1, idx := some 4, sc := 2, disp := 0 } })

/-- Decoding loses no bit: for every instruction with a word, of either stream and with every operand
that its fields can hold, the decoder reads the instruction back from its word (R16 to R24, R38). -/
def Obligations.DecodeUndoesEncode : Prop :=
  ∀ (i : Instr) (c : Code), i.err = none → encode i = some c → decode c = .ok i

/-- Each word has one meaning: a word that decodes is the word of its instruction, which meets none of
the conditions of R38 (R38). -/
def Obligations.EncodeUndoesDecode : Prop :=
  ∀ (i : Instr) (c : Code), decode c = .ok i → encode i = some c ∧ i.err = none

/-- A step runs the decoded instruction. With nothing brought about before it, the chosen party fetches
the word at its PC and `step` is that instruction's `exec`, after which no party is chosen; a word that
is no instruction traps `ILLEGAL`; a fetch that traps is that trap; a lane stream at or beyond its code
section traps `RANGE`. A fetch finds what is at the home, or what stood there before, when the launch has
fetched from the line or it was written while the launch ran (R234). A step that another brought about comes
first, and with no party chosen the device does what it does of itself (R16, R20, R38, R91, R286;
notes/assumptions/1.md and 9.md). -/
def Obligations.StepRunsTheDecodedInstruction : Prop :=
  ∀ (s s1 : State) (F : Focus) (w : Swath) (g : Frag) (second : Bool) (i : Instr) (r : Raise),
    (∀ p l, s.agenda = p :: l → step s = runPending p { s with agenda := l }) ∧
    (s.agenda = [] → s.scalarFocus = some (F, w) →
      (∀ v, fetchScalar s F w 0 = .word v s1 → decode (.scalar v) = .ok i →
        step s = restAfter (exec i s1)) ∧
      (∀ v e, fetchScalar s F w 0 = .word v s1 → decode (.scalar v) = .error e →
        step s = .next (s1.scalarFault F (raise .illegal)).rest) ∧
      (fetchScalar s F w 0 = .trap r → step s = .next (s.scalarFault F r).rest) ∧
      (∀ xl, F.pager = none → translate s F.agent.cluster F.ctx w.regs.pc.toNat
          (F.agent.access false false true) = .ok xl → xl.zero = false →
        let was := (oldLine s F.launch (xl.dpa / 128)).map
          (fun l => BitVec.ofNat 32 (lineBytes l (xl.dpa % 128) 4))
        ∃ v t, fetchScalar s F w 0 = .word v t ∧
          (v = BitVec.ofNat 32 (homeRd s xl.dpa 4) ∨ was = some v)) ∧
      (∀ d p, F.pager = some d → mget s.pagers d = some p → w.regs.pc.toNat + 4 ≤ p.imgLen →
        fetchScalar s F w 0 = .word (BitVec.ofNat 32 (p.sram.rdN w.regs.pc.toNat 4)) s)) ∧
    (s.agenda = [] → s.laneFocus = some (F, w, g, second) → atHandlerEnd w g second = false →
      (∀ v, fetchLane s F g.pc = .word v s1 → decode (.lane v) = .ok i →
        step s = restAfter (exec i s1)) ∧
      (∀ v e, fetchLane s F g.pc = .word v s1 → decode (.lane v) = .error e →
        step s = .next (s1.laneFault F g second (raise .illegal)).rest) ∧
      (fetchLane s F g.pc = .trap r → step s = .next (s.laneFault F g second r).rest) ∧
      (∀ l, mget s.launches F.launch = some l → l.lrec.llen ≤ g.pc.toNat →
        fetchLane s F g.pc = .trap (raise .range))) ∧
    (s.agenda = [] → s.chosen = none → spontaneous (Config.happening s.freeCtr) = true →
      step s = wakeAfter (exec (Config.happening s.freeCtr) { s with freeCtr := s.freeCtr + 1 })) ∧
    (∀ t, restAfter (.next t) = .next ({ t with chosen := none, freeCtr := t.freeCtr + 1 } : State).wakeAll)

/-- What reset leaves: no field, launch, queue record, lease, frame role or cached copy; the four pager
cores stopped with every register 0; context 0 live, the root of the tree and the holder of every
capability: its policy bars nothing, and its budgets are at their highest; every byte of memory reads 0 (R301, R302, R392, R427). The contents of memory, the policy of
context 0 and the EMPTY leases are the model's: notes/assumptions/3.md, 20.md and 22.md. -/
def Obligations.ResetLeaves : Prop :=
  let s := State.reset
  s.memWf ∧ (∀ a, s.mem.rd a = 0 ∧ s.pool.rd a = 0) ∧ s.fields = [] ∧ s.launches = [] ∧ s.chosen = none ∧
  s.agenda = [] ∧ s.time = 0 ∧ (∀ f, (s.frame f).role = .direct ∧ (s.frame f).st = .free) ∧
  (∀ l, (s.lease l).st = .empty) ∧ s.l1 = [] ∧ s.l2 = [] ∧ s.tlb = [] ∧ s.heath.bootStep = 0 ∧
  (∀ d < 4, ∃ p, mget s.pagers d = some p ∧ p.running = false ∧ p.recs = [] ∧
    (∀ r, p.sw.xr r = 0) ∧ p.sw.regs.pc = 0 ∧ p.sw.regs.fmt = 0 ∧ p.sw.regs.flags = 0) ∧
  (∃ x, s.ctx? 0 = some x ∧ x.state = .live ∧ x.depth = 0 ∧ x.parent = 0 ∧ x.vf = none ∧ x.key = none ∧
    x.policy = { widest := 6, clampTrap := false, debug := true, tlbi := true, create := true,
                 maxClass := 0, prot := false, rwait := 0 } ∧
    x.budgets.weight = 65535 ∧ x.budgets.quantum = 2 ^ 32 - 1 ∧ x.budgets.poolbw = 2 ^ 32 - 1 ∧
    x.budgets.gwbw = 2 ^ 32 - 1 ∧ x.budgets.faultsh = 255) ∧
  (∀ c, c ≠ 0 → s.ctx? c = none) ∧ (∀ q, (s.queue q).recs = [] ∧ (s.queue q).binding = none)

/-- Every step keeps memory canonical: addresses rise strictly and nothing that reads 0 is listed, in
global memory and in the pool. The form is the model's own (notes/assumptions/3.md). -/
def Obligations.StepKeepsMemoryCanonical : Prop :=
  ∀ (s t : State), s.memWf → step s = .next t → t.memWf

/-- No step stops the machine: whatever the state, the next step has a next state, since every condition
that the rules name is a trap, a wait or an answer (R286, R293). -/
def Obligations.EveryStepGoesOn : Prop :=
  ∀ (s : State), goesOn (step s)
end

