-- ==== Sys2Proof/Laws/Dispatch.lean ====
section
/-! SUPPORT. The dispatch, one equation per constructor: what `exec` of an instruction is, so that a proof
never unfolds `exec`. -/

namespace Sys2Proof.Machine
open Sys2Proof

theorem exec_add {s} {d} {a} {b} {st} : exec (.add d a b st) s = execAdd d a b st s := rfl
theorem exec_sub {s} {d} {a} {b} {st} : exec (.sub d a b st) s = execSub d a b st s := rfl
theorem exec_mul {s} {d} {a} {b} {st} : exec (.mul d a b st) s = execMul d a b st s := rfl
theorem exec_mulh {s} {d} {a} {b} {st} : exec (.mulh d a b st) s = execMulh d a b st s := rfl
theorem exec_mulhu {s} {d} {a} {b} {st} : exec (.mulhu d a b st) s = execMulhu d a b st s := rfl
theorem exec_div {s} {d} {a} {b} {st} : exec (.div d a b st) s = execDiv d a b st s := rfl
theorem exec_divu {s} {d} {a} {b} {st} : exec (.divu d a b st) s = execDivu d a b st s := rfl
theorem exec_rem {s} {d} {a} {b} {st} : exec (.rem d a b st) s = execRem d a b st s := rfl
theorem exec_remu {s} {d} {a} {b} {st} : exec (.remu d a b st) s = execRemu d a b st s := rfl
theorem exec_and {s} {d} {a} {b} {st} : exec (.and d a b st) s = execAnd d a b st s := rfl
theorem exec_or {s} {d} {a} {b} {st} : exec (.or d a b st) s = execOr d a b st s := rfl
theorem exec_xor {s} {d} {a} {b} {st} : exec (.xor d a b st) s = execXor d a b st s := rfl
theorem exec_shl {s} {d} {a} {b} {st} : exec (.shl d a b st) s = execShl d a b st s := rfl
theorem exec_shr {s} {d} {a} {b} {st} : exec (.shr d a b st) s = execShr d a b st s := rfl
theorem exec_sar {s} {d} {a} {b} {st} : exec (.sar d a b st) s = execSar d a b st s := rfl
theorem exec_min {s} {d} {a} {b} {st} : exec (.min d a b st) s = execMin d a b st s := rfl
theorem exec_minu {s} {d} {a} {b} {st} : exec (.minu d a b st) s = execMinu d a b st s := rfl
theorem exec_max {s} {d} {a} {b} {st} : exec (.max d a b st) s = execMax d a b st s := rfl
theorem exec_maxu {s} {d} {a} {b} {st} : exec (.maxu d a b st) s = execMaxu d a b st s := rfl
theorem exec_cmp {s} {d} {a} {b} {c} {st} : exec (.cmp d a b c st) s = execCmp d a b c st s := rfl
theorem exec_sel {s} {d} {a} {b} {c} {st} : exec (.sel d a b c st) s = execSel d a b c st s := rfl
theorem exec_clz {s} {d} {a} {st} : exec (.clz d a st) s = execClz d a st s := rfl
theorem exec_ctz {s} {d} {a} {st} : exec (.ctz d a st) s = execCtz d a st s := rfl
theorem exec_popc {s} {d} {a} {st} : exec (.popc d a st) s = execPopc d a st s := rfl
theorem exec_addi {s} {d} {a} {im} {st} : exec (.addi d a im st) s = execAddi d a im st s := rfl
theorem exec_andi {s} {d} {a} {im} {st} : exec (.andi d a im st) s = execAndi d a im st s := rfl
theorem exec_ori {s} {d} {a} {im} {st} : exec (.ori d a im st) s = execOri d a im st s := rfl
theorem exec_xori {s} {d} {a} {im} {st} : exec (.xori d a im st) s = execXori d a im st s := rfl
theorem exec_shli {s} {d} {a} {h} {st} : exec (.shli d a h st) s = execShli d a h st s := rfl
theorem exec_shri {s} {d} {a} {h} {st} : exec (.shri d a h st) s = execShri d a h st s := rfl
theorem exec_sari {s} {d} {a} {h} {st} : exec (.sari d a h st) s = execSari d a h st s := rfl
theorem exec_slti {s} {d} {a} {im} {st} : exec (.slti d a im st) s = execSlti d a im st s := rfl
theorem exec_sltiu {s} {d} {a} {im} {st} : exec (.sltiu d a im st) s = execSltiu d a im st s := rfl
theorem exec_muli {s} {d} {a} {im} {st} : exec (.muli d a im st) s = execMuli d a im st s := rfl
theorem exec_movpc {s} {d} {im} {st} : exec (.movpc d im st) s = execMovpc d im st s := rfl
theorem exec_ldb {s} {d} {a} {im} {st} : exec (.ldb d a im st) s = execLdb d a im st s := rfl
theorem exec_ldbu {s} {d} {a} {im} {st} : exec (.ldbu d a im st) s = execLdbu d a im st s := rfl
theorem exec_ldh {s} {d} {a} {im} {st} : exec (.ldh d a im st) s = execLdh d a im st s := rfl
theorem exec_ldhu {s} {d} {a} {im} {st} : exec (.ldhu d a im st) s = execLdhu d a im st s := rfl
theorem exec_ldw {s} {d} {a} {im} {st} : exec (.ldw d a im st) s = execLdw d a im st s := rfl
theorem exec_ldwu {s} {d} {a} {im} {st} : exec (.ldwu d a im st) s = execLdwu d a im st s := rfl
theorem exec_ldd {s} {d} {a} {im} {st} : exec (.ldd d a im st) s = execLdd d a im st s := rfl
theorem exec_stb {s} {d} {a} {im} {st} : exec (.stb d a im st) s = execStb d a im st s := rfl
theorem exec_sth {s} {d} {a} {im} {st} : exec (.sth d a im st) s = execSth d a im st s := rfl
theorem exec_stw {s} {d} {a} {im} {st} : exec (.stw d a im st) s = execStw d a im st s := rfl
theorem exec_std {s} {d} {a} {im} {st} : exec (.std d a im st) s = execStd d a im st s := rfl
theorem exec_lds {s} {d} {a} {im} {st} : exec (.lds d a im st) s = execLds d a im st s := rfl
theorem exec_sts {s} {d} {a} {im} {st} : exec (.sts d a im st) s = execSts d a im st s := rfl
theorem exec_ldc {s} {d} {a} {im} {st} : exec (.ldc d a im st) s = execLdc d a im st s := rfl
theorem exec_beq {s} {a} {b} {o} {st} : exec (.beq a b o st) s = execBeq a b o st s := rfl
theorem exec_bne {s} {a} {b} {o} {st} : exec (.bne a b o st) s = execBne a b o st s := rfl
theorem exec_blt {s} {a} {b} {o} {st} : exec (.blt a b o st) s = execBlt a b o st s := rfl
theorem exec_bge {s} {a} {b} {o} {st} : exec (.bge a b o st) s = execBge a b o st s := rfl
theorem exec_bltu {s} {a} {b} {o} {st} : exec (.bltu a b o st) s = execBltu a b o st s := rfl
theorem exec_bgeu {s} {a} {b} {o} {st} : exec (.bgeu a b o st) s = execBgeu a b o st s := rfl
theorem exec_jal {s} {d} {im} {st} : exec (.jal d im st) s = execJal d im st s := rfl
theorem exec_jalr {s} {d} {a} {im} {st} : exec (.jalr d a im st) s = execJalr d a im st s := rfl
theorem exec_lrun {s} {a} {im} {st} : exec (.lrun a im st) s = execLrun a im st s := rfl
theorem exec_lgo {s} {st} : exec (.lgo st) s = execLgo st s := rfl
theorem exec_lwait {s} {d} {a} {im} {st} : exec (.lwait d a im st) s = execLwait d a im st s := rfl
theorem exec_movxw {s} {d} {a} {st} : exec (.movxw d a st) s = execMovxw d a st s := rfl
theorem exec_movwx {s} {d} {a} {st} : exec (.movwx d a st) s = execMovwx d a st s := rfl
theorem exec_setfmt {s} {a} {m} {st} : exec (.setfmt a m st) s = execSetfmt a m st s := rfl
theorem exec_bara {s} {n} {a} {st} : exec (.bara n a st) s = execBara n a st s := rfl
theorem exec_barw {s} {n} {st} : exec (.barw n st) s = execBarw n st s := rfl
theorem exec_bars {s} {n} {a} {st} : exec (.bars n a st) s = execBars n a st s := rfl
theorem exec_waitm {s} {d} {a} {b} {w} {c} {st} : exec (.waitm d a b w c st) s = execWaitm d a b w c st s := rfl
theorem exec_yield {s} {st} : exec (.yield st) s = execYield st s := rfl
theorem exec_exit {s} {st} : exec (.exit st) s = execExit st s := rfl
theorem exec_mloadFp {s} {a} {st} : exec (.mloadFp a st) s = execMloadFp a st s := rfl
theorem exec_mloadTern {s} {a} {st} : exec (.mloadTern a st) s = execMloadTern a st s := rfl
theorem exec_mflipFp {s} {st} : exec (.mflipFp st) s = execMflipFp st s := rfl
theorem exec_mflipTern {s} {st} : exec (.mflipTern st) s = execMflipTern st s := rfl
theorem exec_mmul {s} {t} {a} {st} : exec (.mmul t a st) s = execMmul t a st s := rfl
theorem exec_mtern {s} {t} {a} {st} : exec (.mtern t a st) s = execMtern t a st s := rfl
theorem exec_mzero {s} {t} {st} : exec (.mzero t st) s = execMzero t st s := rfl
theorem exec_mdrain {s} {t} {a} {st} : exec (.mdrain t a st) s = execMdrain t a st s := rfl
theorem exec_mfence {s} {d} {st} : exec (.mfence d st) s = execMfence d st s := rfl
theorem exec_mwait {s} {a} {st} : exec (.mwait a st) s = execMwait a st s := rfl
theorem exec_mgrow {s} {d} {a} {b} {st} : exec (.mgrow d a b st) s = execMgrow d a b st s := rfl
theorem exec_cpgo {s} {a} {st} : exec (.cpgo a st) s = execCpgo a st s := rfl
theorem exec_waitc {s} {c} {a} {st} : exec (.waitc c a st) s = execWaitc c a st s := rfl
theorem exec_pbinit {s} {a} {b} {st} : exec (.pbinit a b st) s = execPbinit a b st s := rfl
theorem exec_pbarv {s} {d} {a} {b} {st} : exec (.pbarv d a b st) s = execPbarv d a b st s := rfl
theorem exec_pbwait {s} {d} {a} {b} {st} : exec (.pbwait d a b st) s = execPbwait d a b st s := rfl
theorem exec_atomAdd {s} {d} {a} {b} {w} {p} {st} : exec (.atomAdd d a b w p st) s = execAtomAdd d a b w p st s := rfl
theorem exec_atomXchg {s} {d} {a} {b} {w} {p} {st} : exec (.atomXchg d a b w p st) s = execAtomXchg d a b w p st s := rfl
theorem exec_atomMin {s} {d} {a} {b} {w} {p} {st} : exec (.atomMin d a b w p st) s = execAtomMin d a b w p st s := rfl
theorem exec_atomMax {s} {d} {a} {b} {w} {p} {st} : exec (.atomMax d a b w p st) s = execAtomMax d a b w p st s := rfl
theorem exec_atomUmin {s} {d} {a} {b} {w} {p} {st} : exec (.atomUmin d a b w p st) s = execAtomUmin d a b w p st s := rfl
theorem exec_atomUmax {s} {d} {a} {b} {w} {p} {st} : exec (.atomUmax d a b w p st) s = execAtomUmax d a b w p st s := rfl
theorem exec_atomAnd {s} {d} {a} {b} {w} {p} {st} : exec (.atomAnd d a b w p st) s = execAtomAnd d a b w p st s := rfl
theorem exec_atomOr {s} {d} {a} {b} {w} {p} {st} : exec (.atomOr d a b w p st) s = execAtomOr d a b w p st s := rfl
theorem exec_atomXor {s} {d} {a} {b} {w} {p} {st} : exec (.atomXor d a b w p st) s = execAtomXor d a b w p st s := rfl
theorem exec_atomCas {s} {d} {a} {b} {w} {p} {st} : exec (.atomCas d a b w p st) s = execAtomCas d a b w p st s := rfl
theorem exec_ldacq {s} {d} {a} {w} {p} {st} : exec (.ldacq d a w p st) s = execLdacq d a w p st s := rfl
theorem exec_strel {s} {a} {b} {w} {p} {st} : exec (.strel a b w p st) s = execStrel a b w p st s := rfl
theorem exec_fenceFull {s} {p} {st} : exec (.fenceFull p st) s = execFenceFull p st s := rfl
theorem exec_fenceAcq {s} {p} {st} : exec (.fenceAcq p st) s = execFenceAcq p st s := rfl
theorem exec_fenceRel {s} {p} {st} : exec (.fenceRel p st) s = execFenceRel p st s := rfl
theorem exec_cwb {s} {p} {a} {b} {st} : exec (.cwb p a b st) s = execCwb p a b st s := rfl
theorem exec_cinv {s} {p} {a} {b} {st} : exec (.cinv p a b st) s = execCinv p a b st s := rfl
theorem exec_cwbi {s} {p} {a} {b} {st} : exec (.cwbi p a b st) s = execCwbi p a b st s := rfl
theorem exec_pfh {s} {d} {a} {b} {st} : exec (.pfh d a b st) s = execPfh d a b st s := rfl
theorem exec_wpost {s} {a} {b} {st} : exec (.wpost a b st) s = execWpost a b st s := rfl
theorem exec_wget {s} {a} {b} {st} : exec (.wget a b st) s = execWget a b st s := rfl
theorem exec_wcntw {s} {d} {a} {b} {st} : exec (.wcntw d a b st) s = execWcntw d a b st s := rfl
theorem exec_sigrel {s} {p} {a} {b} {st} : exec (.sigrel p a b st) s = execSigrel p a b st s := rfl
theorem exec_sigacq {s} {d} {a} {p} {st} : exec (.sigacq d a p st) s = execSigacq d a p st s := rfl
theorem exec_mfsr {s} {d} {r} {st} : exec (.mfsr d r st) s = execMfsr d r st s := rfl
theorem exec_mtsr {s} {a} {r} {st} : exec (.mtsr a r st) s = execMtsr a r st s := rfl
theorem exec_trap {s} {c} {st} : exec (.trap c st) s = execTrap c st s := rfl
theorem exec_tret {s} {st} : exec (.tret st) s = execTret st s := rfl
theorem exec_trun {s} {a} {b} {st} : exec (.trun a b st) s = execTrun a b st s := rfl
theorem exec_rgn {s} {st} : exec (.rgn st) s = execRgn st s := rfl
theorem exec_mapft {s} {d} {a} {st} : exec (.mapft d a st) s = execMapft d a st s := rfl
theorem exec_park {s} {st} : exec (.park st) s = execPark st s := rfl
theorem exec_parkTerm {s} {st} : exec (.parkTerm st) s = execParkTerm st s := rfl
theorem exec_tlbiR {s} {d} {a} {b} {st} : exec (.tlbiR d a b st) s = execTlbiR d a b st s := rfl
theorem exec_tlbiCtx {s} {d} {st} : exec (.tlbiCtx d st) s = execTlbiCtx d st s := rfl
theorem exec_brkpt {s} {c} {st} : exec (.brkpt c st) s = execBrkpt c st s := rfl
theorem exec_pgfill {s} {d} {a} {st} : exec (.pgfill d a st) s = execPgfill d a st s := rfl
theorem exec_pgevict {s} {d} {a} {st} : exec (.pgevict d a st) s = execPgevict d a st s := rfl
theorem exec_pgmove {s} {d} {a} {b} {st} : exec (.pgmove d a b st) s = execPgmove d a b st s := rfl
theorem exec_pgupg {s} {d} {a} {st} : exec (.pgupg d a st) s = execPgupg d a st s := rfl
theorem exec_leaseopRenew {s} {d} {a} {b} {st} : exec (.leaseopRenew d a b st) s = execLeaseopRenew d a b st s := rfl
theorem exec_leaseopQuery {s} {d} {a} {b} {st} : exec (.leaseopQuery d a b st) s = execLeaseopQuery d a b st s := rfl
theorem exec_leaseopRelease {s} {d} {a} {b} {st} : exec (.leaseopRelease d a b st) s = execLeaseopRelease d a b st s := rfl
theorem exec_leaseopAckwarn {s} {d} {a} {b} {st} : exec (.leaseopAckwarn d a b st) s = execLeaseopAckwarn d a b st s := rfl
theorem exec_cins {s} {d} {a} {b} {st} : exec (.cins d a b st) s = execCins d a b st s := rfl
theorem exec_cnode {s} {d} {a} {b} {st} : exec (.cnode d a b st) s = execCnode d a b st s := rfl
theorem exec_cref {s} {d} {a} {b} {st} : exec (.cref d a b st) s = execCref d a b st s := rfl
theorem exec_cunref {s} {d} {a} {b} {st} : exec (.cunref d a b st) s = execCunref d a b st s := rfl
theorem exec_cswap {s} {d} {a} {b} {st} : exec (.cswap d a b st) s = execCswap d a b st s := rfl
theorem exec_cbind {s} {d} {a} {b} {st} : exec (.cbind d a b st) s = execCbind d a b st s := rfl
theorem exec_cunbind {s} {d} {a} {st} : exec (.cunbind d a st) s = execCunbind d a st s := rfl
theorem exec_ccopy {s} {d} {a} {b} {st} : exec (.ccopy d a b st) s = execCcopy d a b st s := rfl
theorem exec_cstat {s} {d} {a} {b} {st} : exec (.cstat d a b st) s = execCstat d a b st s := rfl
theorem exec_ctxnew {s} {d} {a} {st} : exec (.ctxnew d a st) s = execCtxnew d a st s := rfl
theorem exec_ctxgrant {s} {d} {a} {b} {st} : exec (.ctxgrant d a b st) s = execCtxgrant d a b st s := rfl
theorem exec_ctxrevoke {s} {d} {a} {b} {st} : exec (.ctxrevoke d a b st) s = execCtxrevoke d a b st s := rfl
theorem exec_ctxbudg {s} {d} {a} {b} {st} : exec (.ctxbudg d a b st) s = execCtxbudg d a b st s := rfl
theorem exec_ctxq {s} {d} {a} {b} {st} : exec (.ctxq d a b st) s = execCtxq d a b st s := rfl
theorem exec_ctxinfo {s} {d} {a} {b} {st} : exec (.ctxinfo d a b st) s = execCtxinfo d a b st s := rfl
theorem exec_ctxkill {s} {d} {a} {st} : exec (.ctxkill d a st) s = execCtxkill d a st s := rfl
theorem exec_rflt {s} {d} {a} {b} {st} : exec (.rflt d a b st) s = execRflt d a b st s := rfl
theorem exec_lit {s} {im} : exec (.lit im) s = execLit im s := rfl
theorem exec_iadd {s} {o} : exec (.iadd o) s = execIadd o s := rfl
theorem exec_isub {s} {o} : exec (.isub o) s = execIsub o s := rfl
theorem exec_imul {s} {o} : exec (.imul o) s = execImul o s := rfl
theorem exec_imulh {s} {o} : exec (.imulh o) s = execImulh o s := rfl
theorem exec_imad {s} {o} : exec (.imad o) s = execImad o s := rfl
theorem exec_idiv {s} {o} : exec (.idiv o) s = execIdiv o s := rfl
theorem exec_irem {s} {o} : exec (.irem o) s = execIrem o s := rfl
theorem exec_imin {s} {o} : exec (.imin o) s = execImin o s := rfl
theorem exec_imax {s} {o} : exec (.imax o) s = execImax o s := rfl
theorem exec_laneAnd {s} {o} : exec (.laneAnd o) s = execLaneAnd o s := rfl
theorem exec_laneOr {s} {o} : exec (.laneOr o) s = execLaneOr o s := rfl
theorem exec_laneXor {s} {o} : exec (.laneXor o) s = execLaneXor o s := rfl
theorem exec_laneShl {s} {o} : exec (.laneShl o) s = execLaneShl o s := rfl
theorem exec_laneShr {s} {o} : exec (.laneShr o) s = execLaneShr o s := rfl
theorem exec_bfe {s} {o} : exec (.bfe o) s = execBfe o s := rfl
theorem exec_bfi {s} {o} : exec (.bfi o) s = execBfi o s := rfl
theorem exec_lanePopc {s} {o} : exec (.lanePopc o) s = execLanePopc o s := rfl
theorem exec_laneClz {s} {o} : exec (.laneClz o) s = execLaneClz o s := rfl
theorem exec_isetp {s} {o} : exec (.isetp o) s = execIsetp o s := rfl
theorem exec_fadd {s} {o} : exec (.fadd o) s = execFadd o s := rfl
theorem exec_fsub {s} {o} : exec (.fsub o) s = execFsub o s := rfl
theorem exec_fmul {s} {o} : exec (.fmul o) s = execFmul o s := rfl
theorem exec_ffma {s} {o} : exec (.ffma o) s = execFfma o s := rfl
theorem exec_fmin {s} {o} : exec (.fmin o) s = execFmin o s := rfl
theorem exec_fmax {s} {o} : exec (.fmax o) s = execFmax o s := rfl
theorem exec_frcp {s} {o} : exec (.frcp o) s = execFrcp o s := rfl
theorem exec_fsqrt {s} {o} : exec (.fsqrt o) s = execFsqrt o s := rfl
theorem exec_frsq {s} {o} : exec (.frsq o) s = execFrsq o s := rfl
theorem exec_fexp2 {s} {o} : exec (.fexp2 o) s = execFexp2 o s := rfl
theorem exec_flog2 {s} {o} : exec (.flog2 o) s = execFlog2 o s := rfl
theorem exec_fsetp {s} {o} : exec (.fsetp o) s = execFsetp o s := rfl
theorem exec_padd {s} {o} : exec (.padd o) s = execPadd o s := rfl
theorem exec_psub {s} {o} : exec (.psub o) s = execPsub o s := rfl
theorem exec_pmul {s} {o} : exec (.pmul o) s = execPmul o s := rfl
theorem exec_pfma {s} {o} : exec (.pfma o) s = execPfma o s := rfl
theorem exec_pmin {s} {o} : exec (.pmin o) s = execPmin o s := rfl
theorem exec_pmax {s} {o} : exec (.pmax o) s = execPmax o s := rfl
theorem exec_dotb {s} {o} : exec (.dotb o) s = execDotb o s := rfl
theorem exec_doth {s} {o} : exec (.doth o) s = execDoth o s := rfl
theorem exec_cvt {s} {o} : exec (.cvt o) s = execCvt o s := rfl
theorem exec_cvtn {s} {o} : exec (.cvtn o) s = execCvtn o s := rfl
theorem exec_cvtw {s} {o} : exec (.cvtw o) s = execCvtw o s := rfl
theorem exec_laneMov {s} {o} : exec (.laneMov o) s = execLaneMov o s := rfl
theorem exec_laneSel {s} {o} : exec (.laneSel o) s = execLaneSel o s := rfl
theorem exec_xlane {s} {o} : exec (.xlane o) s = execXlane o s := rfl
theorem exec_lred {s} {o} : exec (.lred o) s = execLred o s := rfl
theorem exec_vote {s} {o} : exec (.vote o) s = execVote o s := rfl
theorem exec_kmix {s} {o} : exec (.kmix o) s = execKmix o s := rfl
theorem exec_lmfsr {s} {o} : exec (.lmfsr o) s = execLmfsr o s := rfl
theorem exec_scan {s} {o} : exec (.scan o) s = execScan o s := rfl
theorem exec_bru {s} {h} {off} : exec (.bru h off) s = execBru h off s := rfl
theorem exec_brd {s} {h} {off} : exec (.brd h off) s = execBrd h off s := rfl
theorem exec_join {s} {h} : exec (.join h) s = execJoin h s := rfl
theorem exec_lfmt {s} {h} {w} : exec (.lfmt h w) s = execLfmt h w s := rfl
theorem exec_lstop {s} {h} : exec (.lstop h) s = execLstop h s := rfl
theorem exec_lhold {s} {h} : exec (.lhold h) s = execLhold h s := rfl
theorem exec_lsig {s} {h} {n} : exec (.lsig h n) s = execLsig h n s := rfl
theorem exec_laneBara {s} {h} {bar} {n} : exec (.laneBara h bar n) s = execLaneBara h bar n s := rfl
theorem exec_laneBarw {s} {h} {bar} : exec (.laneBarw h bar) s = execLaneBarw h bar s := rfl
theorem exec_laneBars {s} {h} {bar} {n} : exec (.laneBars h bar n) s = execLaneBars h bar n s := rfl
theorem exec_lnop {s} {h} : exec (.lnop h) s = execLnop h s := rfl
theorem exec_laneLds {s} {o} : exec (.laneLds o) s = execLaneLds o s := rfl
theorem exec_laneSts {s} {o} : exec (.laneSts o) s = execLaneSts o s := rfl
theorem exec_ldg {s} {o} : exec (.ldg o) s = execLdg o s := rfl
theorem exec_stg {s} {o} : exec (.stg o) s = execStg o s := rfl
theorem exec_laneLdc {s} {o} : exec (.laneLdc o) s = execLaneLdc o s := rfl
theorem exec_laneAtomAdd {s} {o} : exec (.laneAtomAdd o) s = execLaneAtomAdd o s := rfl
theorem exec_laneAtomMin {s} {o} : exec (.laneAtomMin o) s = execLaneAtomMin o s := rfl
theorem exec_laneAtomMax {s} {o} : exec (.laneAtomMax o) s = execLaneAtomMax o s := rfl
theorem exec_laneAtomUmin {s} {o} : exec (.laneAtomUmin o) s = execLaneAtomUmin o s := rfl
theorem exec_laneAtomUmax {s} {o} : exec (.laneAtomUmax o) s = execLaneAtomUmax o s := rfl
theorem exec_laneAtomAnd {s} {o} : exec (.laneAtomAnd o) s = execLaneAtomAnd o s := rfl
theorem exec_laneAtomOr {s} {o} : exec (.laneAtomOr o) s = execLaneAtomOr o s := rfl
theorem exec_laneAtomXor {s} {o} : exec (.laneAtomXor o) s = execLaneAtomXor o s := rfl
theorem exec_laneAtomXchg {s} {o} : exec (.laneAtomXchg o) s = execLaneAtomXchg o s := rfl
theorem exec_laneAtomCas {s} {o} : exec (.laneAtomCas o) s = execLaneAtomCas o s := rfl
theorem exec_laneAtomFadd {s} {o} : exec (.laneAtomFadd o) s = execLaneAtomFadd o s := rfl
theorem exec_laneLdacq {s} {o} : exec (.laneLdacq o) s = execLaneLdacq o s := rfl
theorem exec_laneStrel {s} {o} : exec (.laneStrel o) s = execLaneStrel o s := rfl
theorem exec_laneFenceFull {s} {h} {scope} : exec (.laneFenceFull h scope) s = execLaneFenceFull h scope s := rfl
theorem exec_laneFenceAcq {s} {h} {scope} : exec (.laneFenceAcq h scope) s = execLaneFenceAcq h scope s := rfl
theorem exec_laneFenceRel {s} {h} {scope} : exec (.laneFenceRel h scope) s = execLaneFenceRel h scope s := rfl
theorem exec_accrd {s} {o} : exec (.accrd o) s = execAccrd o s := rfl
theorem exec_accwr {s} {o} : exec (.accwr o) s = execAccwr o s := rfl
theorem exec_accadd {s} {o} : exec (.accadd o) s = execAccadd o s := rfl
theorem exec_ldgT {s} {o} {kd} : exec (.ldgT o kd) s = execLdgT o kd s := rfl
theorem exec_scalarIssueDecision {s} {core} {quad} : exec (.scalarIssueDecision core quad) s = execScalarIssueDecision core quad s := rfl
theorem exec_laneIssueDecision {s} {core} {quad} : exec (.laneIssueDecision core quad) s = execLaneIssueDecision core quad s := rfl
theorem exec_candidateAges {s} {p} : exec (.candidateAges p) s = execCandidateAges p s := rfl
theorem exec_variableLatencyResult {s} {fid} {sw} : exec (.variableLatencyResult fid sw) s = execVariableLatencyResult fid sw s := rfl
theorem exec_lwaitResume {s} {fid} {sw} : exec (.lwaitResume fid sw) s = execLwaitResume fid sw s := rfl
theorem exec_barrierWaitResume {s} {p} : exec (.barrierWaitResume p) s = execBarrierWaitResume p s := rfl
theorem exec_waitmReread {s} {p} : exec (.waitmReread p) s = execWaitmReread p s := rfl
theorem exec_pbwaitResume {s} {fid} {sw} : exec (.pbwaitResume fid sw) s = execPbwaitResume fid sw s := rfl
theorem exec_wcntwResume {s} {fid} {sw} : exec (.wcntwResume fid sw) s = execWcntwResume fid sw s := rfl
theorem exec_mwaitResume {s} {fid} {sw} : exec (.mwaitResume fid sw) s = execMwaitResume fid sw s := rfl
theorem exec_waitcResume {s} {fid} {sw} : exec (.waitcResume fid sw) s = execWaitcResume fid sw s := rfl
theorem exec_exitResume {s} {fid} {sw} : exec (.exitResume fid sw) s = execExitResume fid sw s := rfl
theorem exec_armExchange {s} {fid} {sw} : exec (.armExchange fid sw) s = execArmExchange fid sw s := rfl
theorem exec_handlerEntry {s} {p} {va} : exec (.handlerEntry p va) s = execHandlerEntry p va s := rfl
theorem exec_pendingFaultTaken {s} {fid} {sw} {arm} : exec (.pendingFaultTaken fid sw arm) s = execPendingFaultTaken fid sw arm s := rfl
theorem exec_ringWriteRetry {s} {ctx} : exec (.ringWriteRetry ctx) s = execRingWriteRetry ctx s := rfl
theorem exec_fieldPlace {s} {core} : exec (.fieldPlace core) s = execFieldPlace core s := rfl
theorem exec_fieldSwapOut {s} {fid} : exec (.fieldSwapOut fid) s = execFieldSwapOut fid s := rfl
theorem exec_urgentClaim {s} {core} {quad} : exec (.urgentClaim core quad) s = execUrgentClaim core quad s := rfl
theorem exec_registerLineScanOut {s} {fid} {sw} : exec (.registerLineScanOut fid sw) s = execRegisterLineScanOut fid sw s := rfl
theorem exec_tenantSliceEnd {s} {ctx} {core} {quad} : exec (.tenantSliceEnd ctx core quad) s = execTenantSliceEnd ctx core quad s := rfl
theorem exec_reconvWaitExpire {s} {fid} : exec (.reconvWaitExpire fid) s = execReconvWaitExpire fid s := rfl
theorem exec_budgetPeriodBoundary {s} : exec .budgetPeriodBoundary s = execBudgetPeriodBoundary s := rfl
theorem exec_matrixKstepComplete {s} {fid} {sw} : exec (.matrixKstepComplete fid sw) s = execMatrixKstepComplete fid sw s := rfl
theorem exec_matrixOpComplete {s} {fid} {sw} : exec (.matrixOpComplete fid sw) s = execMatrixOpComplete fid sw s := rfl
theorem exec_matrixOpPause {s} {fid} {sw} : exec (.matrixOpPause fid sw) s = execMatrixOpPause fid sw s := rfl
theorem exec_chainCopy {s} {fid} {sw} {chain} : exec (.chainCopy fid sw chain) s = execChainCopy fid sw chain s := rfl
theorem exec_chainGather {s} {fid} {sw} {chain} : exec (.chainGather fid sw chain) s = execChainGather fid sw chain s := rfl
theorem exec_chainLoop {s} {fid} {sw} {chain} : exec (.chainLoop fid sw chain) s = execChainLoop fid sw chain s := rfl
theorem exec_chainSkipif {s} {fid} {sw} {chain} : exec (.chainSkipif fid sw chain) s = execChainSkipif fid sw chain s := rfl
theorem exec_chainArrive {s} {fid} {sw} {chain} : exec (.chainArrive fid sw chain) s = execChainArrive fid sw chain s := rfl
theorem exec_chainEnd {s} {fid} {sw} {chain} : exec (.chainEnd fid sw chain) s = execChainEnd fid sw chain s := rfl
theorem exec_chainComplete {s} {fid} {sw} : exec (.chainComplete fid sw) s = execChainComplete fid sw s := rfl
theorem exec_wpostComplete {s} {fid} {sw} : exec (.wpostComplete fid sw) s = execWpostComplete fid sw s := rfl
theorem exec_wgetComplete {s} {fid} {sw} : exec (.wgetComplete fid sw) s = execWgetComplete fid sw s := rfl
theorem exec_pfhComplete {s} {fid} {sw} : exec (.pfhComplete fid sw) s = execPfhComplete fid sw s := rfl
theorem exec_ccopyComplete {s} {fid} {sw} {chain} : exec (.ccopyComplete fid sw chain) s = execCcopyComplete fid sw chain s := rfl
theorem exec_walkComplete {s} {gateway} {ctx} {va} : exec (.walkComplete gateway ctx va) s = execWalkComplete gateway ctx va s := rfl
theorem exec_cacheWriteback {s} {l2} {unit} {ctx} {vaLine} : exec (.cacheWriteback l2 unit ctx vaLine) s = execCacheWriteback l2 unit ctx vaLine s := rfl
theorem exec_cacheEvict {s} {l2} {unit} {ctx} {vaLine} : exec (.cacheEvict l2 unit ctx vaLine) s = execCacheEvict l2 unit ctx vaLine s := rfl
theorem exec_pageFillStart {s} {unit} : exec (.pageFillStart unit) s = execPageFillStart unit s := rfl
theorem exec_pageFillComplete {s} {unit} : exec (.pageFillComplete unit) s = execPageFillComplete unit s := rfl
theorem exec_serviceRecordAdmit {s} {die} : exec (.serviceRecordAdmit die) s = execServiceRecordAdmit die s := rfl
theorem exec_deq {s} {die} : exec (.deq die) s = execDeq die s := rfl
theorem exec_deqTimeout {s} {die} : exec (.deqTimeout die) s = execDeqTimeout die s := rfl
theorem exec_pagerCompleteRetry {s} {die} {idx} : exec (.pagerCompleteRetry die idx) s = execPagerCompleteRetry die idx s := rfl
theorem exec_pagerCompleteBind {s} {die} {idx} : exec (.pagerCompleteBind die idx) s = execPagerCompleteBind die idx s := rfl
theorem exec_pagerCompleteTerminal {s} {die} {idx} : exec (.pagerCompleteTerminal die idx) s = execPagerCompleteTerminal die idx s := rfl
theorem exec_pagerCompleteReserved {s} {die} {idx} {action} : exec (.pagerCompleteReserved die idx action) s = execPagerCompleteReserved die idx action s := rfl
theorem exec_checkpointStart {s} {lease} {halt} : exec (.checkpointStart lease halt) s = execCheckpointStart lease halt s := rfl
theorem exec_checkpointComplete {s} : exec .checkpointComplete s = execCheckpointComplete s := rfl
theorem exec_leaseDbaseWrite {s} {lease} {value} : exec (.leaseDbaseWrite lease value) s = execLeaseDbaseWrite lease value s := rfl
theorem exec_routeWrite {s} {node} {mask} : exec (.routeWrite node mask) s = execRouteWrite node mask s := rfl
theorem exec_frameRoleWrite {s} {die} {frame} {value} : exec (.frameRoleWrite die frame value) s = execFrameRoleWrite die frame value s := rfl
theorem exec_pagerWindowWrite {s} {die} {off} {value} : exec (.pagerWindowWrite die off value) s = execPagerWindowWrite die off value s := rfl
theorem exec_pagerRestart {s} {die} : exec (.pagerRestart die) s = execPagerRestart die s := rfl
theorem exec_leaseWarn {s} {lease} : exec (.leaseWarn lease) s = execLeaseWarn lease s := rfl
theorem exec_leaseWarnRepeat {s} {lease} : exec (.leaseWarnRepeat lease) s = execLeaseWarnRepeat lease s := rfl
theorem exec_leaseExpire {s} {lease} : exec (.leaseExpire lease) s = execLeaseExpire lease s := rfl
theorem exec_grant {s} {lease} {node} {pool} {len} {safe} {remain} : exec (.grant lease node pool len safe remain) s = execGrant lease node pool len safe remain s := rfl
theorem exec_renewAck {s} {lease} {remain} : exec (.renewAck lease remain) s = execRenewAck lease remain s := rfl
theorem exec_renewNak {s} {lease} : exec (.renewNak lease) s = execRenewNak lease s := rfl
theorem exec_revoke {s} {lease} : exec (.revoke lease) s = execRevoke lease s := rfl
theorem exec_revokeAck {s} {lease} : exec (.revokeAck lease) s = execRevokeAck lease s := rfl
theorem exec_releaseAck {s} {lease} : exec (.releaseAck lease) s = execReleaseAck lease s := rfl
theorem exec_nodeDown {s} {node} : exec (.nodeDown node) s = execNodeDown node s := rfl
theorem exec_leaseMessageInvalid {s} {kind} : exec (.leaseMessageInvalid kind) s = execLeaseMessageInvalid kind s := rfl
theorem exec_leaseopTimeout {s} {die} : exec (.leaseopTimeout die) s = execLeaseopTimeout die s := rfl
theorem exec_pgmoveSwitch {s} {die} : exec (.pgmoveSwitch die) s = execPgmoveSwitch die s := rfl
theorem exec_upg {s} {slot} {addr} : exec (.upg slot addr) s = execUpg slot addr s := rfl
theorem exec_bisnpinvblk {s} {node} {addr} : exec (.bisnpinvblk node addr) s = execBisnpinvblk node addr s := rfl
theorem exec_birspiblk {s} {slot} {addr} : exec (.birspiblk slot addr) s = execBirspiblk slot addr s := rfl
theorem exec_upgCmp {s} {addr} {status} : exec (.upgCmp addr status) s = execUpgCmp addr status s := rfl
theorem exec_snoopTimeout {s} {slot} {addr} : exec (.snoopTimeout slot addr) s = execSnoopTimeout slot addr s := rfl
theorem exec_bisnpdata {s} {node} {addr} : exec (.bisnpdata node addr) s = execBisnpdata node addr s := rfl
theorem exec_hostSnoopResponse {s} {line} {hi} {inv} {dirty} : exec (.hostSnoopResponse line hi inv dirty) s = execHostSnoopResponse line hi inv dirty s := rfl
theorem exec_cxlMemRequest {s} {node} {addr} {host} {write} {excl} : exec (.cxlMemRequest node addr host write excl) s = execCxlMemRequest node addr host write excl s := rfl
theorem exec_unsupportedFeatureRequest {s} {port} : exec (.unsupportedFeatureRequest port) s = execUnsupportedFeatureRequest port s := rfl
theorem exec_wreg {s} {node} {pctx} {expno} {rd} {wr} {key} : exec (.wreg node pctx expno rd wr key) s = execWreg node pctx expno rd wr key s := rfl
theorem exec_wregAck {s} {fid} {sw} {len} : exec (.wregAck fid sw len) s = execWregAck fid sw len s := rfl
theorem exec_wregNak {s} {fid} {sw} {reason} : exec (.wregNak fid sw reason) s = execWregNak fid sw reason s := rfl
theorem exec_wregTimeout {s} {fid} {sw} : exec (.wregTimeout fid sw) s = execWregTimeout fid sw s := rfl
theorem exec_vendorMessageInvalid {s} {kind} : exec (.vendorMessageInvalid kind) s = execVendorMessageInvalid kind s := rfl
theorem exec_apertureAccess {s} {node} {addr} {write} {len} : exec (.apertureAccess node addr write len) s = execApertureAccess node addr write len s := rfl
theorem exec_apertureResponse {s} {fid} {sw} {ok} {data} : exec (.apertureResponse fid sw ok data) s = execApertureResponse fid sw ok data s := rfl
theorem exec_windowArrivalWrite {s} {node} {pctx} {expno} : exec (.windowArrivalWrite node pctx expno) s = execWindowArrivalWrite node pctx expno s := rfl
theorem exec_heartbeat {s} : exec .heartbeat s = execHeartbeat s := rfl
theorem exec_agentDead {s} {node} : exec (.agentDead node) s = execAgentDead node s := rfl
theorem exec_teaselDirectoryWalk {s} {slot} : exec (.teaselDirectoryWalk slot) s = execTeaselDirectoryWalk slot s := rfl
theorem exec_directoryEccError {s} {line} : exec (.directoryEccError line) s = execDirectoryEccError line s := rfl
theorem exec_portRetrain {s} {port} : exec (.portRetrain port) s = execPortRetrain port s := rfl
theorem exec_contentReclaim {s} {region} : exec (.contentReclaim region) s = execContentReclaim region s := rfl
theorem exec_contextScrubUnit {s} {ctx} : exec (.contextScrubUnit ctx) s = execContextScrubUnit ctx s := rfl
theorem exec_contextScrubComplete {s} {ctx} : exec (.contextScrubComplete ctx) s = execContextScrubComplete ctx s := rfl
theorem exec_regionScrubComplete {s} {region} : exec (.regionScrubComplete region) s = execRegionScrubComplete region s := rfl
theorem exec_enqueue {s vf page off pasid record} : exec (.enqueue vf page off pasid record) s = execEnqueue vf page off pasid record s := rfl
theorem exec_barUnsupportedAccess {s} {vf} {bar} {off} : exec (.barUnsupportedAccess vf bar off) s = execBarUnsupportedAccess vf bar off s := rfl
theorem exec_agentClaim {s} {core} : exec (.agentClaim core) s = execAgentClaim core s := rfl
theorem exec_launchCheck {s} {core} : exec (.launchCheck core) s = execLaunchCheck core s := rfl
theorem exec_manageExecute {s} {core} : exec (.manageExecute core) s = execManageExecute core s := rfl
theorem exec_launchComplete {s} {launch} : exec (.launchComplete launch) s = execLaunchComplete launch s := rfl
theorem exec_agentMismatch {s} {core} : exec (.agentMismatch core) s = execAgentMismatch core s := rfl
theorem exec_debugStop {s via ctx ltag field} : exec (.debugStop via ctx ltag field) s = execDebugStop via ctx ltag field s := rfl
theorem exec_debugRelease {s via ctx ltag field} : exec (.debugRelease via ctx ltag field) s = execDebugRelease via ctx ltag field s := rfl
theorem exec_counterClear {s} {vf} : exec (.counterClear vf) s = execCounterClear vf s := rfl
theorem exec_logModeWrite {s} {vf} {off} {value} : exec (.logModeWrite vf off value) s = execLogModeWrite vf off value s := rfl
theorem exec_counterBankWrite {s} {vf} {off} {value} : exec (.counterBankWrite vf off value) s = execCounterBankWrite vf off value s := rfl
theorem exec_deviceReset {s} : exec .deviceReset s = execDeviceReset s := rfl
theorem exec_bootStepComplete {s} {ok} : exec (.bootStepComplete ok) s = execBootStepComplete ok s := rfl
theorem exec_mctpControl {s} : exec .mctpControl s = execMctpControl s := rfl
theorem exec_getVersion {s} : exec .getVersion s = execGetVersion s := rfl
theorem exec_getCapabilities {s} : exec .getCapabilities s = execGetCapabilities s := rfl
theorem exec_negotiateAlgorithms {s} : exec .negotiateAlgorithms s = execNegotiateAlgorithms s := rfl
theorem exec_getDigests {s} : exec .getDigests s = execGetDigests s := rfl
theorem exec_getCertificate {s} : exec .getCertificate s = execGetCertificate s := rfl
theorem exec_challenge {s} : exec .challenge s = execChallenge s := rfl
theorem exec_getMeasurements {s} : exec .getMeasurements s = execGetMeasurements s := rfl
theorem exec_keyExchange {s} : exec .keyExchange s = execKeyExchange s := rfl
theorem exec_finish {s} : exec .finish s = execFinish s := rfl
theorem exec_endSession {s} : exec .endSession s = execEndSession s := rfl
theorem exec_regionCreate {s via id capk owner store home follow} : exec (.regionCreate via id capk owner store home follow) s = execRegionCreate via id capk owner store home follow s := rfl
theorem exec_regionDestroy {s via id} : exec (.regionDestroy via id) s = execRegionDestroy via id s := rfl
theorem exec_vfBind {s via vf ctx} : exec (.vfBind via vf ctx) s = execVfBind via vf ctx s := rfl
theorem exec_llcCarve {s via die mib} : exec (.llcCarve via die mib) s = execLlcCarve via die mib s := rfl
theorem exec_bankCarve {s via core mask release} : exec (.bankCarve via core mask release) s = execBankCarve via core mask release s := rfl
theorem exec_logRead {s via index} : exec (.logRead via index) s = execLogRead via index s := rfl
theorem exec_updateStage {s via image version verified} : exec (.updateStage via image version verified) s = execUpdateStage via image version verified s := rfl
theorem exec_sensorRead {s via index} : exec (.sensorRead via index) s = execSensorRead via index s := rfl
theorem exec_keyReplace {s via ctx key} : exec (.keyReplace via ctx key) s = execKeyReplace via ctx key s := rfl
theorem exec_powerSample {s} {milliwatt} : exec (.powerSample milliwatt) s = execPowerSample milliwatt s := rfl
theorem exec_temperatureSample {s} {readings} : exec (.temperatureSample readings) s = execTemperatureSample readings s := rfl
theorem exec_correctedError {s} {uclass} {index} : exec (.correctedError uclass index) s = execCorrectedError uclass index s := rfl
theorem exec_uncorrectableError {s} {uclass} {index} {line} : exec (.uncorrectableError uclass index line) s = execUncorrectableError uclass index line s := rfl
theorem exec_unitTestComplete {s} {uclass} {index} {pass} : exec (.unitTestComplete uclass index pass) s = execUnitTestComplete uclass index pass s := rfl
theorem exec_tagParityError {s} {l2} {unit} {set} : exec (.tagParityError l2 unit set) s = execTagParityError l2 unit set s := rfl
theorem exec_heartbeatReceive {s} {node} : exec (.heartbeatReceive node) s = execHeartbeatReceive node s := rfl
theorem exec_hostLinkDown {s} : exec .hostLinkDown s = execHostLinkDown s := rfl
theorem exec_powerLoss {s} : exec .powerLoss s = execPowerLoss s := rfl
theorem exec_localFrameScrub {s} {frame} : exec (.localFrameScrub frame) s = execLocalFrameScrub frame s := rfl
theorem exec_releasedBankZero {s} {core} {bank} : exec (.releasedBankZero core bank) s = execReleasedBankZero core bank s := rfl
theorem exec_context0RingsSet {s} {rbase} {tbase} {rsize} {tsize} : exec (.context0RingsSet rbase tbase rsize tsize) s = execContext0RingsSet rbase tbase rsize tsize s := rfl

end Sys2Proof.Machine
end

