-- ==== Sys2Proof/Laws/Maps.lean ====
section
/-! SUPPORT. Maps: what a read after a write returns. -/

namespace Sys2Proof.Machine

variable {V : Type}

@[simp] theorem mget_nil (k : Nat) : mget ([] : NMap V) k = none := rfl

@[simp] theorem mget_mput_same (m : NMap V) (k : Nat) (v : V) : mget (mput m k v) k = some v := by
  induction m with
  | nil => simp [mput, mget]
  | cons c r ih =>
    obtain ⟨a, b⟩ := c
    rcases Nat.lt_trichotomy k a with h | h | h
    · simp [mput, h, mget]
    · simp [mput, h, mget]
    · simp [mput, Nat.not_lt_of_gt h, Nat.ne_of_gt h, mget, ih]

theorem mget_mput_ne (m : NMap V) {k j : Nat} (v : V) (h : j ≠ k) :
    mget (mput m k v) j = mget m j := by
  induction m with
  | nil => simp [mput, mget, h]
  | cons c r ih =>
    obtain ⟨a, b⟩ := c
    rcases Nat.lt_trichotomy k a with hk | hk | hk
    · simp [mput, hk, mget, h]
    · subst hk; simp [mput, mget, h]
    · simp [mput, Nat.not_lt_of_gt hk, Nat.ne_of_gt hk, mget, ih]

@[simp] theorem mget_mdel_same (m : NMap V) (k : Nat) : mget (mdel m k) k = none := by
  induction m with
  | nil => rfl
  | cons c r ih =>
    obtain ⟨a, b⟩ := c
    unfold mdel at ih ⊢
    by_cases h : a = k
    · simp [h, ih]
    · simp [h, mget, ih, Ne.symm h]

theorem mget_mdel_ne (m : NMap V) {k j : Nat} (h : j ≠ k) : mget (mdel m k) j = mget m j := by
  induction m with
  | nil => rfl
  | cons c r ih =>
    obtain ⟨a, b⟩ := c
    unfold mdel at ih ⊢
    by_cases hk : a = k
    · subst hk; simp [mget, h, ih]
    · simp [hk, mget, ih]

theorem mget_mmap (m : NMap V) (f : Nat → V → V) (k : Nat) :
    mget (mmap m f) k = (mget m k).map (f k) := by
  induction m with
  | nil => rfl
  | cons c r ih =>
    obtain ⟨a, b⟩ := c
    unfold mmap at ih ⊢
    by_cases h : k = a
    · subst h; simp [mget]
    · simp [mget, h, ih]

theorem mget_mput (m : NMap V) (k j : Nat) (v : V) :
    mget (mput m k v) j = if j = k then some v else mget m j := by
  split
  · next h => subst h; simp
  · next h => exact mget_mput_ne m v h

theorem mgetD_mput (m : NMap V) (k j : Nat) (v d : V) :
    mgetD (mput m k v) j d = if j = k then v else mgetD m j d := by
  simp only [mgetD, mget_mput]; split <;> rfl

theorem mget_mupd_same (m : NMap V) (k : Nat) (f : V → V) :
    mget (mupd m k f) k = (mget m k).map f := by
  unfold mupd; cases h : mget m k <;> simp [h]

theorem mget_mupd_ne (m : NMap V) {k j : Nat} (f : V → V) (h : j ≠ k) :
    mget (mupd m k f) j = mget m j := by
  unfold mupd; split
  · exact mget_mput_ne m _ h
  · rfl

/-- Putting twice at one key is putting once. -/
theorem mput_mput_same (m : NMap V) (k : Nat) (v u : V) : mput (mput m k v) k u = mput m k u := by
  induction m with
  | nil => simp [mput]
  | cons c r ih =>
    obtain ⟨a, b⟩ := c
    rcases Nat.lt_trichotomy k a with h | h | h
    · simp [mput, h]
    · simp [mput, h]
    · simp [mput, Nat.not_lt_of_gt h, Nat.ne_of_gt h, ih]

theorem mupd_mupd (m : NMap V) (k : Nat) (f g : V → V) :
    mupd (mupd m k f) k g = mupd m k (fun v => g (f v)) := by
  unfold mupd; cases h : mget m k <;> simp [h, mput_mput_same]

end Sys2Proof.Machine
end

