-- ==== Sys2Proof/Laws/Issue.lean ====
section
/-! SUPPORT. The issue of an instruction: what `scalarIssue` and `laneIssue` can do, and when a body's
effect is committed. -/

namespace Sys2Proof.Machine
open Sys2Proof

/-! ### Swaths behind parties -/

theorem scalarFocus_swath {s : State} {F : Focus} {w : Swath} (h : s.scalarFocus = some (F, w)) :
    s.swathOf F.party = some w := by
  unfold State.scalarFocus at h
  split at h
  · split at h
    · next f hf =>
      simp only [Option.map_eq_some_iff, Prod.mk.injEq] at h
      obtain ⟨v, hv, rfl, rfl⟩ := h
      simpa [State.swathOf, focusOf, State.swathAt, hf] using hv
    · cases h
  · simp only [Option.map_eq_some_iff, Prod.mk.injEq] at h
    obtain ⟨v, hv, rfl, rfl⟩ := h
    simp [State.swathOf, pagerFocus, hv]
  · cases h

theorem laneFocus_swath {s : State} {F : Focus} {w : Swath} {g : Frag} {b : Bool}
    (h : s.laneFocus = some (F, w, g, b)) : s.swathOf F.party = some w ∧ w.lanes.get b = some g := by
  unfold State.laneFocus at h
  split at h
  · split at h
    · next f hf =>
      split at h
      · next v hv =>
        simp only [Option.map_eq_some_iff, Prod.mk.injEq] at h
        obtain ⟨g', hg, rfl, rfl, rfl, rfl⟩ := h
        exact ⟨by simp [State.swathOf, focusOf, State.swathAt, hf, hv], hg⟩
      · cases h
    · cases h
  · cases h

/-- A change of a swath is the change to its new value. -/
theorem updSwath_const {s : State} {p : PartyId} {w : Swath} (h : s.swathOf p = some w)
    (g : Swath → Swath) : s.updSwath p g = s.updSwath p (fun _ => g w) := by
  cases p with
  | scalar f i | lane f i _ =>
    simp only [State.swathOf, State.swathAt, State.field?, Option.bind_eq_some_iff] at h
    obtain ⟨fd, hf, hw⟩ := h
    simp [State.updSwath, State.updSwathAt, State.updField, Field.updSw, mupd, hf, hw]
  | pager d =>
    simp only [State.swathOf, Option.map_eq_some_iff] at h
    obtain ⟨q, hq, rfl⟩ := h
    simp [State.updSwath, mupd, hq]

/-- Two changes of a swath in turn are one. -/
theorem updSwath_updSwath (s : State) (p : PartyId) (g h : Swath → Swath) :
    (s.updSwath p g).updSwath p h = s.updSwath p (fun w => h (g w)) := by
  cases p with
  | scalar f i | lane f i _ =>
    simp only [State.updSwath, State.updSwathAt, State.updField, mupd_mupd]
    congr 1; congr 1; funext fd; simp [Field.updSw, mupd_mupd]
  | pager d => simp [State.updSwath, mupd_mupd]

/-- The swath after a change. -/
theorem swathOf_updSwath (s : State) (p : PartyId) (g : Swath → Swath) :
    (s.updSwath p g).swathOf p = (s.swathOf p).map g := by
  cases p with
  | scalar f i | lane f i _ =>
    simp only [State.updSwath, State.updSwathAt, State.updField, State.swathOf, State.swathAt,
      State.field?, mget_mupd_same]
    cases mget s.fields f <;> simp [Field.updSw, mget_mupd_same]
  | pager d =>
    simp only [State.updSwath, State.swathOf, mget_mupd_same]
    cases mget s.pagers d <;> simp

@[simp] theorem updSwath_mem (s : State) (p : PartyId) (g : Swath → Swath) :
    (s.updSwath p g).mem = s.mem := by cases p <;> rfl

@[simp] theorem updSwath_pool (s : State) (p : PartyId) (g : Swath → Swath) :
    (s.updSwath p g).pool = s.pool := by cases p <;> rfl

@[simp] theorem updSwath_chosen (s : State) (p : PartyId) (g : Swath → Swath) :
    (s.updSwath p g).chosen = s.chosen := by cases p <;> rfl

/-! ### Scalar issue -/

/-- A scalar instruction either waits for its counter, traps, or does what its body says. -/
theorem scalarIssue_cases {f : SForm} {body : Focus → Swath → State → SOut} {s t : State}
    (h : scalarIssue f body s = .next t) :
    ∃ F w, s.scalarFocus = some (F, w) ∧
      (t = s ∨ (∃ r, t = s.scalarFault F r) ∨
       (∃ s', body F w s = .hold s' ∧ t = s') ∨
       (∃ s' k, body F w s = .wait s' k ∧ t = s'.updSwath F.party (fun w => w.startWait f k)) ∨
       (∃ s' wr pc, body F w s = .done s' wr pc ∧
          t = s'.updSwath F.party (fun w => (w.scalarCommit f wr pc).boundary (s'.handler F.ctx)))) := by
  unfold scalarIssue at h
  split at h
  · cases h
  · next F w hF =>
    refine ⟨F, w, hF, ?_⟩
    generalize (if F.pager.isSome then !f.onPager else !f.offPager) = absent at h
    split at h
    · exact .inl (by simpa using h.symm)
    · split at h
      · exact .inr (.inl ⟨_, by simpa using h.symm⟩)
      · split at h
        · exact .inr (.inl ⟨_, by simpa using h.symm⟩)
        · split at h
          · exact .inr (.inl ⟨_, by simpa using h.symm⟩)
          · next s' hb => exact .inr (.inr (.inl ⟨s', hb, by simpa using h.symm⟩))
          · next s' k hb =>
            split at h
            · exact .inr (.inl ⟨_, by simpa using h.symm⟩)
            · exact .inr (.inr (.inr (.inl ⟨s', k, hb, by simpa using h.symm⟩)))
          · next s' wr pc hb =>
            split at h
            · exact .inr (.inl ⟨_, by simpa using h.symm⟩)
            · exact .inr (.inr (.inr (.inr ⟨s', wr, pc, hb, by simpa using h.symm⟩)))

/-- No scalar instruction stops the machine while its stream issues. -/
theorem scalarIssue_next (f : SForm) (body : Focus → Swath → State → SOut) {s : State}
    {x : Focus × Swath} (h : s.scalarFocus = some x) : ∃ t, scalarIssue f body s = .next t := by
  unfold scalarIssue
  simp only [h]
  repeat' split
  all_goals exact ⟨_, rfl⟩

/-- A scalar instruction that passes its checks is committed. -/
theorem scalarIssue_done {f : SForm} {body : Focus → Swath → State → SOut} {s s' : State}
    {F : Focus} {w : Swath} {wr : List (Nat × W64)} {pc : Option W64}
    (hF : s.scalarFocus = some (F, w))
    (hc : f.cls.any (fun c => decide (255 ≤ w.eng.counter c)) = false)
    (hp : (if F.pager.isSome then !f.onPager else !f.offPager) = false)
    (hs : stallShort w.regs.chk w.ctl.sb f.reads = false)
    (hb : body F w s = .done s' wr pc)
    (hw : regionWar w.regs.chk (addReads w.ctl.rset f.reads) f.writes = false) :
    scalarIssue f body s =
      .next (s'.updSwath F.party (fun w => (w.scalarCommit f wr pc).boundary (s'.handler F.ctx))) := by
  unfold scalarIssue
  simp only [hF, hc, hp, hs, hb, hw, Bool.false_eq_true, if_false]

/-- A scalar instruction that begins to wait. -/
theorem scalarIssue_wait {f : SForm} {body : Focus → Swath → State → SOut} {s s' : State}
    {F : Focus} {w : Swath} {k : SWait}
    (hF : s.scalarFocus = some (F, w))
    (hc : f.cls.any (fun c => decide (255 ≤ w.eng.counter c)) = false)
    (hp : (if F.pager.isSome then !f.onPager else !f.offPager) = false)
    (hs : stallShort w.regs.chk w.ctl.sb f.reads = false)
    (hb : body F w s = .wait s' k)
    (hw : (k.acts && regionWar w.regs.chk (addReads w.ctl.rset f.reads) f.writes) = false) :
    scalarIssue f body s = .next (s'.updSwath F.party (fun w => w.startWait f k)) := by
  unfold scalarIssue
  simp only [hF, hc, hp, hs, hb, hw, Bool.false_eq_true, if_false]

/-! ### Lane issue -/

/-- No lane instruction stops the machine while its fragment issues. -/
theorem laneIssue_next (f : LForm) (body : Focus → Swath → Frag → LaneMask → State → LOut) {s : State}
    {x : Focus × Swath × Frag × Bool} (h : s.laneFocus = some x) :
    ∃ t, laneIssue f body s = .next t := by
  obtain ⟨F, w, g, b⟩ := x
  unfold laneIssue
  simp only [h]
  repeat' split
  all_goals exact ⟨_, rfl⟩

/-- A lane instruction waits for an earlier result, traps, or does what its body says with the swath, the
fragment and the state once its region mark is recorded. -/
theorem laneIssue_cases {f : LForm} {body : Focus → Swath → Frag → LaneMask → State → LOut} {s t : State}
    (h : laneIssue f body s = .next t) :
    ∃ F w g b, s.laneFocus = some (F, w, g, b) ∧
      (t = s ∨ (∃ r, t = s.laneFault F g b r) ∨ ∃ w1 g1 m s0, (s0 = s ∨ s0 = s.updSwath F.party (fun _ => w1)) ∧
        ((∃ r, t = s0.laneFault F g1 b r) ∨
         (∃ s', body F w1 g1 m s0 = .hold s' ∧
            t = s'.updSwath F.party (fun w => w.updFrag b (fun g => { g with charged := true }))) ∨
         (∃ s', body F w1 g1 m s0 = .done s' ∧
            t = s'.updSwath F.party (fun w => w.updFrag b (fun g => g.commit f F.level (g.pc + 1)))) ∨
         (∃ s' pc, body F w1 g1 m s0 = .goto s' pc ∧
            t = s'.updSwath F.party (fun w => w.updFrag b (fun g => g.commit f F.level pc))) ∨
         (∃ s' k, body F w1 g1 m s0 = .split s' k ∧
            t = s'.updSwath F.party (fun w =>
              match w.lanes.get b with
              | some g => k w (g.issued f)
              | none => w)) ∨
         (∃ s' k, body F w1 g1 m s0 = .wait s' k ∧
            t = s'.updSwath F.party (fun w => w.updFrag b (fun g => { g.issued f with wait := k }))))) := by
  unfold laneIssue at h
  split at h
  · cases h
  · next F w g b hF =>
    refine ⟨F, w, g, b, hF, ?_⟩
    split at h
    · exact .inr (.inl ⟨_, by simpa using h.symm⟩)
    · split at h
      · exact .inr (.inl ⟨_, by simpa using h.symm⟩)
      · split at h
        · exact .inl (by simpa using h.symm)
        · simp only [] at h
          generalize hg : (if f.h.mark then g.region F.level else g) = g1 at h
          generalize hw : (if f.h.mark then { w with lanes := w.lanes.put b g1 } else w : Swath) = w1 at h
          generalize hs : (if f.h.mark then s.updSwath F.party (fun _ => w1) else s) = s0 at h
          generalize (if f.whole then g1.mask else activeSet w1 g1 f.h) = m at h
          have h0 : s0 = s ∨ s0 = s.updSwath F.party (fun _ => w1) := by
            subst hs; split <;> simp
          cases hb : body F w1 g1 m s0 with
          | trap r =>
            simp only [hb] at h
            split at h
            · exact .inr (.inl ⟨r, by simpa using h.symm⟩)
            · exact .inr (.inr ⟨w1, g1, m, s0, h0, .inl ⟨r, by simpa using h.symm⟩⟩)
          | hold s' =>
            simp only [hb] at h
            exact .inr (.inr ⟨w1, g1, m, s0, h0, .inr (.inl ⟨s', hb, by simpa using h.symm⟩)⟩)
          | done s' =>
            simp only [hb] at h
            split at h
            · exact .inr (.inr ⟨w1, g1, m, s0, h0, .inl ⟨_, by simpa using h.symm⟩⟩)
            · exact .inr (.inr ⟨w1, g1, m, s0, h0, by rw [hb]; exact .inr (.inr (.inl ⟨s', rfl, by simpa using h.symm⟩))⟩)
          | goto s' pc =>
            simp only [hb] at h
            split at h
            · exact .inr (.inr ⟨w1, g1, m, s0, h0, .inl ⟨_, by simpa using h.symm⟩⟩)
            · exact .inr (.inr ⟨w1, g1, m, s0, h0, by rw [hb]; exact .inr (.inr (.inr (.inl ⟨s', pc, rfl, by simpa using h.symm⟩)))⟩)
          | split s' k =>
            simp only [hb] at h
            split at h
            · exact .inr (.inr ⟨w1, g1, m, s0, h0, .inl ⟨_, by simpa using h.symm⟩⟩)
            · exact .inr (.inr ⟨w1, g1, m, s0, h0, by rw [hb]; exact .inr (.inr (.inr (.inr (.inl ⟨s', k, rfl, (Host.Outcome.next.inj h).symm⟩))))⟩)
          | wait s' k =>
            simp only [hb] at h
            split at h
            · exact .inr (.inr ⟨w1, g1, m, s0, h0, .inl ⟨_, by simpa using h.symm⟩⟩)
            · exact .inr (.inr ⟨w1, g1, m, s0, h0, by rw [hb]; exact .inr (.inr (.inr (.inr (.inr ⟨s', k, rfl, by simpa using h.symm⟩))))⟩)

end Sys2Proof.Machine
end

