-- ==== Sys2Proof/Laws/Memory.lean ====
section
/-! SUPPORT. Bytes of memory: a read after a write, and the canonical form that every operation
keeps. -/

namespace Sys2Proof.Machine

/-! ### Reads after writes -/

theorem Mem.rd_wr_same (m : Mem) (k : Nat) (v : Byte) (h : m.wf = true) : (m.wr k v).rd k = v := by
  suffices H : ∀ lo, Mem.wfFrom lo m = true → (m.wr k v).rd k = v from H none h
  clear h
  induction m with
  | nil => intro _ _; simp only [Mem.wr]; split <;> simp_all [Mem.rd]
  | cons c r ih =>
    obtain ⟨a, b⟩ := c
    intro lo hw
    simp only [Mem.wfFrom, Bool.and_eq_true] at hw
    rcases Nat.lt_trichotomy k a with hk | hk | hk
    · by_cases hv : v = 0#8 <;> simp [Mem.wr, hk, hv, Mem.rd]
    · subst hk
      by_cases hv : v = 0#8
      · simp only [Mem.wr, Nat.lt_irrefl, if_false, if_true, hv]
        match r, hw.2 with
        | [], _ => rfl
        | (a', b') :: r', h2 =>
          simp only [Mem.wfFrom, Option.all_some, Bool.and_eq_true, decide_eq_true_eq] at h2
          simp [Mem.rd, h2.1.1]
      · simp [Mem.wr, hv, Mem.rd]
    · simp [Mem.wr, Nat.not_lt_of_gt hk, Nat.ne_of_gt hk, Mem.rd, ih _ hw.2]

theorem Mem.rd_wr_ne (m : Mem) {k j : Nat} (v : Byte) (h : m.wf = true) (hj : j ≠ k) :
    (m.wr k v).rd j = m.rd j := by
  suffices H : ∀ lo, Mem.wfFrom lo m = true → (m.wr k v).rd j = m.rd j from H none h
  clear h
  induction m with
  | nil => intro _ _; simp only [Mem.wr]; split <;> simp [Mem.rd, hj]
  | cons c r ih =>
    obtain ⟨a, b⟩ := c
    intro lo hw
    simp only [Mem.wfFrom, Bool.and_eq_true] at hw
    rcases Nat.lt_trichotomy k a with hk | hk | hk
    · by_cases hv : v = 0#8
      · simp [Mem.wr, hk, hv]
      · rcases Nat.lt_or_gt_of_ne hj with h' | h'
        · simp [Mem.wr, hk, hv, Mem.rd, h', Nat.lt_trans h' hk]
        · simp [Mem.wr, hk, hv, Mem.rd, Nat.not_lt_of_gt h', hj]
    · subst hk
      by_cases hv : v = 0#8
      · subst hv
        by_cases hlt : j < k
        · match r, hw.2 with
          | [], _ => simp [Mem.wr, Mem.rd, hlt]
          | (a', b') :: r', h2 =>
            simp only [Mem.wfFrom, Option.all_some, Bool.and_eq_true, decide_eq_true_eq] at h2
            simp [Mem.wr, Mem.rd, hlt, Nat.lt_trans hlt h2.1.1]
        · simp [Mem.wr, Mem.rd, hj, hlt]
      · simp [Mem.wr, hv, Mem.rd, hj]
    · simp [Mem.wr, Nat.not_lt_of_gt hk, Nat.ne_of_gt hk, Mem.rd, ih _ hw.2]

/-! ### The canonical form -/

theorem Mem.wfFrom_mono {m : Mem} {lo : Option Nat} {x : Nat} (h : Mem.wfFrom (some x) m = true)
    (hl : lo.all (· ≤ x) = true) : Mem.wfFrom lo m = true := by
  cases m with
  | nil => rfl
  | cons c r =>
    obtain ⟨a, b⟩ := c
    simp only [Mem.wfFrom, Option.all_some, Bool.and_eq_true, decide_eq_true_eq] at h ⊢
    refine ⟨⟨?_, h.1.2⟩, h.2⟩
    cases lo with
    | none => rfl
    | some y => simp only [Option.all_some, decide_eq_true_eq] at hl ⊢; omega

theorem Mem.wfFrom_wr (m : Mem) (k : Nat) (v : Byte) (lo : Option Nat) (h : Mem.wfFrom lo m = true)
    (hk : lo.all (· < k) = true) : Mem.wfFrom lo (m.wr k v) = true := by
  induction m generalizing lo with
  | nil => simp only [Mem.wr]; split <;> simp_all [Mem.wfFrom]
  | cons c r ih =>
    obtain ⟨a, b⟩ := c
    simp only [Mem.wfFrom, Bool.and_eq_true] at h
    rcases Nat.lt_trichotomy k a with hka | hka | hka
    · by_cases hv : v = 0#8
      · subst hv
        simpa [Mem.wr, hka, Mem.wfFrom] using h
      · simp [Mem.wr, hka, hv, Mem.wfFrom, hk]
        exact ⟨by simpa using h.1.2, h.2⟩
    · subst hka
      by_cases hv : v = 0#8
      · simp only [Mem.wr, Nat.lt_irrefl, if_false, if_true, hv]
        refine Mem.wfFrom_mono h.2 ?_
        cases lo with
        | none => rfl
        | some y => simp only [Option.all_some, decide_eq_true_eq] at hk ⊢; omega
      · simp [Mem.wr, hv, Mem.wfFrom, hk, h.2]
    · simp only [Mem.wr, Nat.not_lt_of_gt hka, Nat.ne_of_gt hka, if_false, Mem.wfFrom,
        Bool.and_eq_true]
      exact ⟨h.1, ih _ h.2 (by simpa using hka)⟩

theorem Mem.wf_wr (m : Mem) (k : Nat) (v : Byte) (h : m.wf = true) : (m.wr k v).wf = true :=
  Mem.wfFrom_wr m k v none h rfl

theorem Mem.wf_wrN (m : Mem) (a n v : Nat) (h : m.wf = true) : (m.wrN a n v).wf = true := by
  induction n generalizing m a v with
  | zero => exact h
  | succ n ih => exact ih _ _ _ (Mem.wf_wr _ _ _ h)

theorem Mem.wf_wrList (m : Mem) (a : Nat) (l : List Byte) (h : m.wf = true) :
    (m.wrList a l).wf = true := by
  induction l generalizing m a with
  | nil => exact h
  | cons b r ih => exact ih _ _ (Mem.wf_wr _ _ _ h)

theorem Mem.wf_wrMask (m : Mem) (a : Nat) (mask : BitVec 128) (data : BitVec 1024) (i n : Nat)
    (h : m.wf = true) : (m.wrMask a mask data i n).wf = true := by
  induction n generalizing m i with
  | zero => exact h
  | succ n ih =>
    simp only [Mem.wrMask]
    apply ih
    split
    · exact Mem.wf_wr _ _ _ h
    · exact h

theorem Mem.wf_overlay (m d : Mem) (h : m.wf = true) : (m.overlay d).wf = true := by
  unfold Mem.overlay
  induction d generalizing m with
  | nil => exact h
  | cons c r ih => exact ih _ (Mem.wf_wr _ _ _ h)

theorem Mem.wfFrom_filter (m : Mem) (p : Host.Cell → Bool) (lo : Option Nat)
    (h : Mem.wfFrom lo m = true) : Mem.wfFrom lo (m.filter p) = true := by
  induction m generalizing lo with
  | nil => rfl
  | cons c r ih =>
    obtain ⟨a, b⟩ := c
    simp only [Mem.wfFrom, Bool.and_eq_true] at h
    rw [List.filter_cons]
    split
    · simp only [Mem.wfFrom, Bool.and_eq_true]; exact ⟨h.1, ih _ h.2⟩
    · refine Mem.wfFrom_mono (ih _ h.2) ?_
      have h1 := h.1.1
      cases lo with
      | none => rfl
      | some y => simp only [Option.all_some, decide_eq_true_eq] at h1 ⊢; omega

theorem Mem.wf_filter (m : Mem) (p : Host.Cell → Bool) (h : m.wf = true) :
    Mem.wf (m.filter p) = true := Mem.wfFrom_filter m p none h

theorem Mem.wf_zero (m : Mem) (a n : Nat) (h : m.wf = true) : (m.zero a n).wf = true :=
  Mem.wf_filter m _ h

theorem Mem.wfFrom_shift (m : Mem) (g : Nat → Nat) (lo lo' : Option Nat)
    (hg : ∀ c ∈ m, ∀ d ∈ m, c.1 < d.1 → g c.1 < g d.1)
    (hl : ∀ c ∈ m, lo'.all (· < g c.1) = true) (h : Mem.wfFrom lo m = true) :
    Mem.wfFrom lo' (m.map (fun c => (g c.1, c.2))) = true := by
  induction m generalizing lo lo' with
  | nil => rfl
  | cons c r ih =>
    obtain ⟨a, b⟩ := c
    simp only [Mem.wfFrom, Bool.and_eq_true] at h
    simp only [List.map_cons, Mem.wfFrom, Bool.and_eq_true]
    refine ⟨⟨hl (a, b) (by simp), h.1.2⟩, ih (some a) (some (g a)) ?_ ?_ h.2⟩
    · intro c hc d hd; exact hg c (by simp [hc]) d (by simp [hd])
    · intro d hd
      have : a < d.1 := by
        clear ih hg hl
        have h2 := h.2
        clear h
        induction r generalizing a with
        | nil => simp at hd
        | cons e t iht =>
          obtain ⟨x, y⟩ := e
          simp only [Mem.wfFrom, Option.all_some, Bool.and_eq_true, decide_eq_true_eq] at h2
          rcases List.mem_cons.mp hd with rfl | hd'
          · exact h2.1.1
          · exact iht a hd' (Mem.wfFrom_mono h2.2 (by simp; omega))
      simpa using hg (a, b) (by simp) d (by simp [hd]) this

theorem Mem.wf_slice (m : Mem) (a n base : Nat) (h : m.wf = true) : (m.slice a n base).wf = true := by
  unfold Mem.slice Mem.wf
  refine Mem.wfFrom_shift _ (fun x => x - a + base) none none ?_ (fun _ _ => rfl)
    (Mem.wf_filter m _ h)
  intro c hc d _ hlt
  simp only [List.mem_filter, Bool.and_eq_true, decide_eq_true_eq] at hc
  omega

end Sys2Proof.Machine
end

