-- ==== Sys2Proof/Laws/PerInstr.lean ====
section
/-! SUPPORT. Statements about every instruction, one lemma for each constructor. -/

namespace Sys2Proof.Laws.Stream
open Sys2Proof

/-- An instruction has a word in at most one of the two streams: a word of the scalar stream leaves it
without lane fields (R16, R20). -/
def Statement (i : Instr) : Prop := scalarWord i = none ∨ laneRaw i = none

theorem add a0 a1 a2 a3 : Statement (.add a0 a1 a2 a3) := .inr rfl
theorem sub a0 a1 a2 a3 : Statement (.sub a0 a1 a2 a3) := .inr rfl
theorem mul a0 a1 a2 a3 : Statement (.mul a0 a1 a2 a3) := .inr rfl
theorem mulh a0 a1 a2 a3 : Statement (.mulh a0 a1 a2 a3) := .inr rfl
theorem mulhu a0 a1 a2 a3 : Statement (.mulhu a0 a1 a2 a3) := .inr rfl
theorem div a0 a1 a2 a3 : Statement (.div a0 a1 a2 a3) := .inr rfl
theorem divu a0 a1 a2 a3 : Statement (.divu a0 a1 a2 a3) := .inr rfl
theorem rem a0 a1 a2 a3 : Statement (.rem a0 a1 a2 a3) := .inr rfl
theorem remu a0 a1 a2 a3 : Statement (.remu a0 a1 a2 a3) := .inr rfl
theorem and a0 a1 a2 a3 : Statement (.and a0 a1 a2 a3) := .inr rfl
theorem or a0 a1 a2 a3 : Statement (.or a0 a1 a2 a3) := .inr rfl
theorem xor a0 a1 a2 a3 : Statement (.xor a0 a1 a2 a3) := .inr rfl
theorem shl a0 a1 a2 a3 : Statement (.shl a0 a1 a2 a3) := .inr rfl
theorem shr a0 a1 a2 a3 : Statement (.shr a0 a1 a2 a3) := .inr rfl
theorem sar a0 a1 a2 a3 : Statement (.sar a0 a1 a2 a3) := .inr rfl
theorem min a0 a1 a2 a3 : Statement (.min a0 a1 a2 a3) := .inr rfl
theorem minu a0 a1 a2 a3 : Statement (.minu a0 a1 a2 a3) := .inr rfl
theorem max a0 a1 a2 a3 : Statement (.max a0 a1 a2 a3) := .inr rfl
theorem maxu a0 a1 a2 a3 : Statement (.maxu a0 a1 a2 a3) := .inr rfl
theorem cmp a0 a1 a2 a3 a4 : Statement (.cmp a0 a1 a2 a3 a4) := .inr rfl
theorem sel a0 a1 a2 a3 a4 : Statement (.sel a0 a1 a2 a3 a4) := .inr rfl
theorem clz a0 a1 a2 : Statement (.clz a0 a1 a2) := .inr rfl
theorem ctz a0 a1 a2 : Statement (.ctz a0 a1 a2) := .inr rfl
theorem popc a0 a1 a2 : Statement (.popc a0 a1 a2) := .inr rfl
theorem addi a0 a1 a2 a3 : Statement (.addi a0 a1 a2 a3) := .inr rfl
theorem andi a0 a1 a2 a3 : Statement (.andi a0 a1 a2 a3) := .inr rfl
theorem ori a0 a1 a2 a3 : Statement (.ori a0 a1 a2 a3) := .inr rfl
theorem xori a0 a1 a2 a3 : Statement (.xori a0 a1 a2 a3) := .inr rfl
theorem shli a0 a1 a2 a3 : Statement (.shli a0 a1 a2 a3) := .inr rfl
theorem shri a0 a1 a2 a3 : Statement (.shri a0 a1 a2 a3) := .inr rfl
theorem sari a0 a1 a2 a3 : Statement (.sari a0 a1 a2 a3) := .inr rfl
theorem slti a0 a1 a2 a3 : Statement (.slti a0 a1 a2 a3) := .inr rfl
theorem sltiu a0 a1 a2 a3 : Statement (.sltiu a0 a1 a2 a3) := .inr rfl
theorem muli a0 a1 a2 a3 : Statement (.muli a0 a1 a2 a3) := .inr rfl
theorem movpc a0 a1 a2 : Statement (.movpc a0 a1 a2) := .inr rfl
theorem ldb a0 a1 a2 a3 : Statement (.ldb a0 a1 a2 a3) := .inr rfl
theorem ldbu a0 a1 a2 a3 : Statement (.ldbu a0 a1 a2 a3) := .inr rfl
theorem ldh a0 a1 a2 a3 : Statement (.ldh a0 a1 a2 a3) := .inr rfl
theorem ldhu a0 a1 a2 a3 : Statement (.ldhu a0 a1 a2 a3) := .inr rfl
theorem ldw a0 a1 a2 a3 : Statement (.ldw a0 a1 a2 a3) := .inr rfl
theorem ldwu a0 a1 a2 a3 : Statement (.ldwu a0 a1 a2 a3) := .inr rfl
theorem ldd a0 a1 a2 a3 : Statement (.ldd a0 a1 a2 a3) := .inr rfl
theorem stb a0 a1 a2 a3 : Statement (.stb a0 a1 a2 a3) := .inr rfl
theorem sth a0 a1 a2 a3 : Statement (.sth a0 a1 a2 a3) := .inr rfl
theorem stw a0 a1 a2 a3 : Statement (.stw a0 a1 a2 a3) := .inr rfl
theorem std a0 a1 a2 a3 : Statement (.std a0 a1 a2 a3) := .inr rfl
theorem lds a0 a1 a2 a3 : Statement (.lds a0 a1 a2 a3) := .inr rfl
theorem sts a0 a1 a2 a3 : Statement (.sts a0 a1 a2 a3) := .inr rfl
theorem ldc a0 a1 a2 a3 : Statement (.ldc a0 a1 a2 a3) := .inr rfl
theorem beq a0 a1 a2 a3 : Statement (.beq a0 a1 a2 a3) := .inr rfl
theorem bne a0 a1 a2 a3 : Statement (.bne a0 a1 a2 a3) := .inr rfl
theorem blt a0 a1 a2 a3 : Statement (.blt a0 a1 a2 a3) := .inr rfl
theorem bge a0 a1 a2 a3 : Statement (.bge a0 a1 a2 a3) := .inr rfl
theorem bltu a0 a1 a2 a3 : Statement (.bltu a0 a1 a2 a3) := .inr rfl
theorem bgeu a0 a1 a2 a3 : Statement (.bgeu a0 a1 a2 a3) := .inr rfl
theorem jal a0 a1 a2 : Statement (.jal a0 a1 a2) := .inr rfl
theorem jalr a0 a1 a2 a3 : Statement (.jalr a0 a1 a2 a3) := .inr rfl
theorem lrun a0 a1 a2 : Statement (.lrun a0 a1 a2) := .inr rfl
theorem lgo a0 : Statement (.lgo a0) := .inr rfl
theorem lwait a0 a1 a2 a3 : Statement (.lwait a0 a1 a2 a3) := .inr rfl
theorem movxw a0 a1 a2 : Statement (.movxw a0 a1 a2) := .inr rfl
theorem movwx a0 a1 a2 : Statement (.movwx a0 a1 a2) := .inr rfl
theorem setfmt a0 a1 a2 : Statement (.setfmt a0 a1 a2) := .inr rfl
theorem bara a0 a1 a2 : Statement (.bara a0 a1 a2) := .inr rfl
theorem barw a0 a1 : Statement (.barw a0 a1) := .inr rfl
theorem bars a0 a1 a2 : Statement (.bars a0 a1 a2) := .inr rfl
theorem waitm a0 a1 a2 a3 a4 a5 : Statement (.waitm a0 a1 a2 a3 a4 a5) := .inr rfl
theorem yield a0 : Statement (.yield a0) := .inr rfl
theorem exit a0 : Statement (.exit a0) := .inr rfl
theorem mloadFp a0 a1 : Statement (.mloadFp a0 a1) := .inr rfl
theorem mloadTern a0 a1 : Statement (.mloadTern a0 a1) := .inr rfl
theorem mflipFp a0 : Statement (.mflipFp a0) := .inr rfl
theorem mflipTern a0 : Statement (.mflipTern a0) := .inr rfl
theorem mmul a0 a1 a2 : Statement (.mmul a0 a1 a2) := .inr rfl
theorem mtern a0 a1 a2 : Statement (.mtern a0 a1 a2) := .inr rfl
theorem mzero a0 a1 : Statement (.mzero a0 a1) := .inr rfl
theorem mdrain a0 a1 a2 : Statement (.mdrain a0 a1 a2) := .inr rfl
theorem mfence a0 a1 : Statement (.mfence a0 a1) := .inr rfl
theorem mwait a0 a1 : Statement (.mwait a0 a1) := .inr rfl
theorem mgrow a0 a1 a2 a3 : Statement (.mgrow a0 a1 a2 a3) := .inr rfl
theorem cpgo a0 a1 : Statement (.cpgo a0 a1) := .inr rfl
theorem waitc a0 a1 a2 : Statement (.waitc a0 a1 a2) := .inr rfl
theorem pbinit a0 a1 a2 : Statement (.pbinit a0 a1 a2) := .inr rfl
theorem pbarv a0 a1 a2 a3 : Statement (.pbarv a0 a1 a2 a3) := .inr rfl
theorem pbwait a0 a1 a2 a3 : Statement (.pbwait a0 a1 a2 a3) := .inr rfl
theorem atomAdd a0 a1 a2 a3 a4 a5 : Statement (.atomAdd a0 a1 a2 a3 a4 a5) := .inr rfl
theorem atomXchg a0 a1 a2 a3 a4 a5 : Statement (.atomXchg a0 a1 a2 a3 a4 a5) := .inr rfl
theorem atomMin a0 a1 a2 a3 a4 a5 : Statement (.atomMin a0 a1 a2 a3 a4 a5) := .inr rfl
theorem atomMax a0 a1 a2 a3 a4 a5 : Statement (.atomMax a0 a1 a2 a3 a4 a5) := .inr rfl
theorem atomUmin a0 a1 a2 a3 a4 a5 : Statement (.atomUmin a0 a1 a2 a3 a4 a5) := .inr rfl
theorem atomUmax a0 a1 a2 a3 a4 a5 : Statement (.atomUmax a0 a1 a2 a3 a4 a5) := .inr rfl
theorem atomAnd a0 a1 a2 a3 a4 a5 : Statement (.atomAnd a0 a1 a2 a3 a4 a5) := .inr rfl
theorem atomOr a0 a1 a2 a3 a4 a5 : Statement (.atomOr a0 a1 a2 a3 a4 a5) := .inr rfl
theorem atomXor a0 a1 a2 a3 a4 a5 : Statement (.atomXor a0 a1 a2 a3 a4 a5) := .inr rfl
theorem atomCas a0 a1 a2 a3 a4 a5 : Statement (.atomCas a0 a1 a2 a3 a4 a5) := .inr rfl
theorem ldacq a0 a1 a2 a3 a4 : Statement (.ldacq a0 a1 a2 a3 a4) := .inr rfl
theorem strel a0 a1 a2 a3 a4 : Statement (.strel a0 a1 a2 a3 a4) := .inr rfl
theorem fenceFull a0 a1 : Statement (.fenceFull a0 a1) := .inr rfl
theorem fenceAcq a0 a1 : Statement (.fenceAcq a0 a1) := .inr rfl
theorem fenceRel a0 a1 : Statement (.fenceRel a0 a1) := .inr rfl
theorem cwb a0 a1 a2 a3 : Statement (.cwb a0 a1 a2 a3) := .inr rfl
theorem cinv a0 a1 a2 a3 : Statement (.cinv a0 a1 a2 a3) := .inr rfl
theorem cwbi a0 a1 a2 a3 : Statement (.cwbi a0 a1 a2 a3) := .inr rfl
theorem pfh a0 a1 a2 a3 : Statement (.pfh a0 a1 a2 a3) := .inr rfl
theorem wpost a0 a1 a2 : Statement (.wpost a0 a1 a2) := .inr rfl
theorem wget a0 a1 a2 : Statement (.wget a0 a1 a2) := .inr rfl
theorem wcntw a0 a1 a2 a3 : Statement (.wcntw a0 a1 a2 a3) := .inr rfl
theorem sigrel a0 a1 a2 a3 : Statement (.sigrel a0 a1 a2 a3) := .inr rfl
theorem sigacq a0 a1 a2 a3 : Statement (.sigacq a0 a1 a2 a3) := .inr rfl
theorem mfsr a0 a1 a2 : Statement (.mfsr a0 a1 a2) := .inr rfl
theorem mtsr a0 a1 a2 : Statement (.mtsr a0 a1 a2) := .inr rfl
theorem trap a0 a1 : Statement (.trap a0 a1) := .inr rfl
theorem tret a0 : Statement (.tret a0) := .inr rfl
theorem trun a0 a1 a2 : Statement (.trun a0 a1 a2) := .inr rfl
theorem rgn a0 : Statement (.rgn a0) := .inr rfl
theorem mapft a0 a1 a2 : Statement (.mapft a0 a1 a2) := .inr rfl
theorem park a0 : Statement (.park a0) := .inr rfl
theorem parkTerm a0 : Statement (.parkTerm a0) := .inr rfl
theorem tlbiR a0 a1 a2 a3 : Statement (.tlbiR a0 a1 a2 a3) := .inr rfl
theorem tlbiCtx a0 a1 : Statement (.tlbiCtx a0 a1) := .inr rfl
theorem brkpt a0 a1 : Statement (.brkpt a0 a1) := .inr rfl
theorem pgfill a0 a1 a2 : Statement (.pgfill a0 a1 a2) := .inr rfl
theorem pgevict a0 a1 a2 : Statement (.pgevict a0 a1 a2) := .inr rfl
theorem pgmove a0 a1 a2 a3 : Statement (.pgmove a0 a1 a2 a3) := .inr rfl
theorem pgupg a0 a1 a2 : Statement (.pgupg a0 a1 a2) := .inr rfl
theorem leaseopRenew a0 a1 a2 a3 : Statement (.leaseopRenew a0 a1 a2 a3) := .inr rfl
theorem leaseopQuery a0 a1 a2 a3 : Statement (.leaseopQuery a0 a1 a2 a3) := .inr rfl
theorem leaseopRelease a0 a1 a2 a3 : Statement (.leaseopRelease a0 a1 a2 a3) := .inr rfl
theorem leaseopAckwarn a0 a1 a2 a3 : Statement (.leaseopAckwarn a0 a1 a2 a3) := .inr rfl
theorem cins a0 a1 a2 a3 : Statement (.cins a0 a1 a2 a3) := .inr rfl
theorem cnode a0 a1 a2 a3 : Statement (.cnode a0 a1 a2 a3) := .inr rfl
theorem cref a0 a1 a2 a3 : Statement (.cref a0 a1 a2 a3) := .inr rfl
theorem cunref a0 a1 a2 a3 : Statement (.cunref a0 a1 a2 a3) := .inr rfl
theorem cswap a0 a1 a2 a3 : Statement (.cswap a0 a1 a2 a3) := .inr rfl
theorem cbind a0 a1 a2 a3 : Statement (.cbind a0 a1 a2 a3) := .inr rfl
theorem cunbind a0 a1 a2 : Statement (.cunbind a0 a1 a2) := .inr rfl
theorem ccopy a0 a1 a2 a3 : Statement (.ccopy a0 a1 a2 a3) := .inr rfl
theorem cstat a0 a1 a2 a3 : Statement (.cstat a0 a1 a2 a3) := .inr rfl
theorem ctxnew a0 a1 a2 : Statement (.ctxnew a0 a1 a2) := .inr rfl
theorem ctxgrant a0 a1 a2 a3 : Statement (.ctxgrant a0 a1 a2 a3) := .inr rfl
theorem ctxrevoke a0 a1 a2 a3 : Statement (.ctxrevoke a0 a1 a2 a3) := .inr rfl
theorem ctxbudg a0 a1 a2 a3 : Statement (.ctxbudg a0 a1 a2 a3) := .inr rfl
theorem ctxq a0 a1 a2 a3 : Statement (.ctxq a0 a1 a2 a3) := .inr rfl
theorem ctxinfo a0 a1 a2 a3 : Statement (.ctxinfo a0 a1 a2 a3) := .inr rfl
theorem ctxkill a0 a1 a2 : Statement (.ctxkill a0 a1 a2) := .inr rfl
theorem rflt a0 a1 a2 a3 : Statement (.rflt a0 a1 a2 a3) := .inr rfl
theorem lit a0 : Statement (.lit a0) := .inr rfl
theorem iadd a0 : Statement (.iadd a0) := .inl rfl
theorem isub a0 : Statement (.isub a0) := .inl rfl
theorem imul a0 : Statement (.imul a0) := .inl rfl
theorem imulh a0 : Statement (.imulh a0) := .inl rfl
theorem imad a0 : Statement (.imad a0) := .inl rfl
theorem idiv a0 : Statement (.idiv a0) := .inl rfl
theorem irem a0 : Statement (.irem a0) := .inl rfl
theorem imin a0 : Statement (.imin a0) := .inl rfl
theorem imax a0 : Statement (.imax a0) := .inl rfl
theorem laneAnd a0 : Statement (.laneAnd a0) := .inl rfl
theorem laneOr a0 : Statement (.laneOr a0) := .inl rfl
theorem laneXor a0 : Statement (.laneXor a0) := .inl rfl
theorem laneShl a0 : Statement (.laneShl a0) := .inl rfl
theorem laneShr a0 : Statement (.laneShr a0) := .inl rfl
theorem bfe a0 : Statement (.bfe a0) := .inl rfl
theorem bfi a0 : Statement (.bfi a0) := .inl rfl
theorem lanePopc a0 : Statement (.lanePopc a0) := .inl rfl
theorem laneClz a0 : Statement (.laneClz a0) := .inl rfl
theorem isetp a0 : Statement (.isetp a0) := .inl rfl
theorem fadd a0 : Statement (.fadd a0) := .inl rfl
theorem fsub a0 : Statement (.fsub a0) := .inl rfl
theorem fmul a0 : Statement (.fmul a0) := .inl rfl
theorem ffma a0 : Statement (.ffma a0) := .inl rfl
theorem fmin a0 : Statement (.fmin a0) := .inl rfl
theorem fmax a0 : Statement (.fmax a0) := .inl rfl
theorem frcp a0 : Statement (.frcp a0) := .inl rfl
theorem fsqrt a0 : Statement (.fsqrt a0) := .inl rfl
theorem frsq a0 : Statement (.frsq a0) := .inl rfl
theorem fexp2 a0 : Statement (.fexp2 a0) := .inl rfl
theorem flog2 a0 : Statement (.flog2 a0) := .inl rfl
theorem fsetp a0 : Statement (.fsetp a0) := .inl rfl
theorem padd a0 : Statement (.padd a0) := .inl rfl
theorem psub a0 : Statement (.psub a0) := .inl rfl
theorem pmul a0 : Statement (.pmul a0) := .inl rfl
theorem pfma a0 : Statement (.pfma a0) := .inl rfl
theorem pmin a0 : Statement (.pmin a0) := .inl rfl
theorem pmax a0 : Statement (.pmax a0) := .inl rfl
theorem dotb a0 : Statement (.dotb a0) := .inl rfl
theorem doth a0 : Statement (.doth a0) := .inl rfl
theorem cvt a0 : Statement (.cvt a0) := .inl rfl
theorem cvtn a0 : Statement (.cvtn a0) := .inl rfl
theorem cvtw a0 : Statement (.cvtw a0) := .inl rfl
theorem laneMov a0 : Statement (.laneMov a0) := .inl rfl
theorem laneSel a0 : Statement (.laneSel a0) := .inl rfl
theorem xlane a0 : Statement (.xlane a0) := .inl rfl
theorem lred a0 : Statement (.lred a0) := .inl rfl
theorem vote a0 : Statement (.vote a0) := .inl rfl
theorem kmix a0 : Statement (.kmix a0) := .inl rfl
theorem lmfsr a0 : Statement (.lmfsr a0) := .inl rfl
theorem scan a0 : Statement (.scan a0) := .inl rfl
theorem bru a0 a1 : Statement (.bru a0 a1) := .inl rfl
theorem brd a0 a1 : Statement (.brd a0 a1) := .inl rfl
theorem join a0 : Statement (.join a0) := .inl rfl
theorem lfmt a0 a1 : Statement (.lfmt a0 a1) := .inl rfl
theorem lstop a0 : Statement (.lstop a0) := .inl rfl
theorem lhold a0 : Statement (.lhold a0) := .inl rfl
theorem lsig a0 a1 : Statement (.lsig a0 a1) := .inl rfl
theorem laneBara a0 a1 a2 : Statement (.laneBara a0 a1 a2) := .inl rfl
theorem laneBarw a0 a1 : Statement (.laneBarw a0 a1) := .inl rfl
theorem laneBars a0 a1 a2 : Statement (.laneBars a0 a1 a2) := .inl rfl
theorem lnop a0 : Statement (.lnop a0) := .inl rfl
theorem laneLds a0 : Statement (.laneLds a0) := .inl rfl
theorem laneSts a0 : Statement (.laneSts a0) := .inl rfl
theorem ldg a0 : Statement (.ldg a0) := .inl rfl
theorem stg a0 : Statement (.stg a0) := .inl rfl
theorem laneLdc a0 : Statement (.laneLdc a0) := .inl rfl
theorem laneAtomAdd a0 : Statement (.laneAtomAdd a0) := .inl rfl
theorem laneAtomMin a0 : Statement (.laneAtomMin a0) := .inl rfl
theorem laneAtomMax a0 : Statement (.laneAtomMax a0) := .inl rfl
theorem laneAtomUmin a0 : Statement (.laneAtomUmin a0) := .inl rfl
theorem laneAtomUmax a0 : Statement (.laneAtomUmax a0) := .inl rfl
theorem laneAtomAnd a0 : Statement (.laneAtomAnd a0) := .inl rfl
theorem laneAtomOr a0 : Statement (.laneAtomOr a0) := .inl rfl
theorem laneAtomXor a0 : Statement (.laneAtomXor a0) := .inl rfl
theorem laneAtomXchg a0 : Statement (.laneAtomXchg a0) := .inl rfl
theorem laneAtomCas a0 : Statement (.laneAtomCas a0) := .inl rfl
theorem laneAtomFadd a0 : Statement (.laneAtomFadd a0) := .inl rfl
theorem laneLdacq a0 : Statement (.laneLdacq a0) := .inl rfl
theorem laneStrel a0 : Statement (.laneStrel a0) := .inl rfl
theorem laneFenceFull a0 a1 : Statement (.laneFenceFull a0 a1) := .inl rfl
theorem laneFenceAcq a0 a1 : Statement (.laneFenceAcq a0 a1) := .inl rfl
theorem laneFenceRel a0 a1 : Statement (.laneFenceRel a0 a1) := .inl rfl
theorem accrd a0 : Statement (.accrd a0) := .inl rfl
theorem accwr a0 : Statement (.accwr a0) := .inl rfl
theorem accadd a0 : Statement (.accadd a0) := .inl rfl
theorem ldgT a0 a1 : Statement (.ldgT a0 a1) := .inl rfl
theorem scalarIssueDecision a0 a1 : Statement (.scalarIssueDecision a0 a1) := .inl rfl
theorem laneIssueDecision a0 a1 : Statement (.laneIssueDecision a0 a1) := .inl rfl
theorem candidateAges a0 : Statement (.candidateAges a0) := .inl rfl
theorem variableLatencyResult a0 a1 : Statement (.variableLatencyResult a0 a1) := .inl rfl
theorem lwaitResume a0 a1 : Statement (.lwaitResume a0 a1) := .inl rfl
theorem barrierWaitResume a0 : Statement (.barrierWaitResume a0) := .inl rfl
theorem waitmReread a0 : Statement (.waitmReread a0) := .inl rfl
theorem pbwaitResume a0 a1 : Statement (.pbwaitResume a0 a1) := .inl rfl
theorem wcntwResume a0 a1 : Statement (.wcntwResume a0 a1) := .inl rfl
theorem mwaitResume a0 a1 : Statement (.mwaitResume a0 a1) := .inl rfl
theorem waitcResume a0 a1 : Statement (.waitcResume a0 a1) := .inl rfl
theorem exitResume a0 a1 : Statement (.exitResume a0 a1) := .inl rfl
theorem armExchange a0 a1 : Statement (.armExchange a0 a1) := .inl rfl
theorem handlerEntry a0 a1 : Statement (.handlerEntry a0 a1) := .inl rfl
theorem pendingFaultTaken a0 a1 a2 : Statement (.pendingFaultTaken a0 a1 a2) := .inl rfl
theorem ringWriteRetry a0 : Statement (.ringWriteRetry a0) := .inl rfl
theorem fieldPlace a0 : Statement (.fieldPlace a0) := .inl rfl
theorem fieldSwapOut a0 : Statement (.fieldSwapOut a0) := .inl rfl
theorem urgentClaim a0 a1 : Statement (.urgentClaim a0 a1) := .inl rfl
theorem registerLineScanOut a0 a1 : Statement (.registerLineScanOut a0 a1) := .inl rfl
theorem tenantSliceEnd a0 a1 a2 : Statement (.tenantSliceEnd a0 a1 a2) := .inl rfl
theorem reconvWaitExpire a0 : Statement (.reconvWaitExpire a0) := .inl rfl
theorem budgetPeriodBoundary : Statement (.budgetPeriodBoundary) := .inl rfl
theorem matrixKstepComplete a0 a1 : Statement (.matrixKstepComplete a0 a1) := .inl rfl
theorem matrixOpComplete a0 a1 : Statement (.matrixOpComplete a0 a1) := .inl rfl
theorem matrixOpPause a0 a1 : Statement (.matrixOpPause a0 a1) := .inl rfl
theorem chainCopy a0 a1 a2 : Statement (.chainCopy a0 a1 a2) := .inl rfl
theorem chainGather a0 a1 a2 : Statement (.chainGather a0 a1 a2) := .inl rfl
theorem chainLoop a0 a1 a2 : Statement (.chainLoop a0 a1 a2) := .inl rfl
theorem chainSkipif a0 a1 a2 : Statement (.chainSkipif a0 a1 a2) := .inl rfl
theorem chainArrive a0 a1 a2 : Statement (.chainArrive a0 a1 a2) := .inl rfl
theorem chainEnd a0 a1 a2 : Statement (.chainEnd a0 a1 a2) := .inl rfl
theorem chainComplete a0 a1 : Statement (.chainComplete a0 a1) := .inl rfl
theorem wpostComplete a0 a1 : Statement (.wpostComplete a0 a1) := .inl rfl
theorem wgetComplete a0 a1 : Statement (.wgetComplete a0 a1) := .inl rfl
theorem pfhComplete a0 a1 : Statement (.pfhComplete a0 a1) := .inl rfl
theorem ccopyComplete a0 a1 a2 : Statement (.ccopyComplete a0 a1 a2) := .inl rfl
theorem walkComplete a0 a1 a2 : Statement (.walkComplete a0 a1 a2) := .inl rfl
theorem cacheWriteback a0 a1 a2 a3 : Statement (.cacheWriteback a0 a1 a2 a3) := .inl rfl
theorem cacheEvict a0 a1 a2 a3 : Statement (.cacheEvict a0 a1 a2 a3) := .inl rfl
theorem pageFillStart a0 : Statement (.pageFillStart a0) := .inl rfl
theorem pageFillComplete a0 : Statement (.pageFillComplete a0) := .inl rfl
theorem serviceRecordAdmit a0 : Statement (.serviceRecordAdmit a0) := .inl rfl
theorem deq a0 : Statement (.deq a0) := .inl rfl
theorem deqTimeout a0 : Statement (.deqTimeout a0) := .inl rfl
theorem pagerCompleteRetry a0 a1 : Statement (.pagerCompleteRetry a0 a1) := .inl rfl
theorem pagerCompleteBind a0 a1 : Statement (.pagerCompleteBind a0 a1) := .inl rfl
theorem pagerCompleteTerminal a0 a1 : Statement (.pagerCompleteTerminal a0 a1) := .inl rfl
theorem pagerCompleteReserved a0 a1 a2 : Statement (.pagerCompleteReserved a0 a1 a2) := .inl rfl
theorem checkpointStart a0 a1 : Statement (.checkpointStart a0 a1) := .inl rfl
theorem checkpointComplete : Statement (.checkpointComplete) := .inl rfl
theorem leaseDbaseWrite a0 a1 : Statement (.leaseDbaseWrite a0 a1) := .inl rfl
theorem routeWrite a0 a1 : Statement (.routeWrite a0 a1) := .inl rfl
theorem frameRoleWrite a0 a1 a2 : Statement (.frameRoleWrite a0 a1 a2) := .inl rfl
theorem pagerWindowWrite a0 a1 a2 : Statement (.pagerWindowWrite a0 a1 a2) := .inl rfl
theorem pagerRestart a0 : Statement (.pagerRestart a0) := .inl rfl
theorem leaseWarn a0 : Statement (.leaseWarn a0) := .inl rfl
theorem leaseWarnRepeat a0 : Statement (.leaseWarnRepeat a0) := .inl rfl
theorem leaseExpire a0 : Statement (.leaseExpire a0) := .inl rfl
theorem grant a0 a1 a2 a3 a4 a5 : Statement (.grant a0 a1 a2 a3 a4 a5) := .inl rfl
theorem renewAck a0 a1 : Statement (.renewAck a0 a1) := .inl rfl
theorem renewNak a0 : Statement (.renewNak a0) := .inl rfl
theorem revoke a0 : Statement (.revoke a0) := .inl rfl
theorem revokeAck a0 : Statement (.revokeAck a0) := .inl rfl
theorem releaseAck a0 : Statement (.releaseAck a0) := .inl rfl
theorem nodeDown a0 : Statement (.nodeDown a0) := .inl rfl
theorem leaseMessageInvalid a0 : Statement (.leaseMessageInvalid a0) := .inl rfl
theorem leaseopTimeout a0 : Statement (.leaseopTimeout a0) := .inl rfl
theorem pgmoveSwitch a0 : Statement (.pgmoveSwitch a0) := .inl rfl
theorem upg a0 a1 : Statement (.upg a0 a1) := .inl rfl
theorem bisnpinvblk a0 a1 : Statement (.bisnpinvblk a0 a1) := .inl rfl
theorem birspiblk a0 a1 : Statement (.birspiblk a0 a1) := .inl rfl
theorem upgCmp a0 a1 : Statement (.upgCmp a0 a1) := .inl rfl
theorem snoopTimeout a0 a1 : Statement (.snoopTimeout a0 a1) := .inl rfl
theorem bisnpdata a0 a1 : Statement (.bisnpdata a0 a1) := .inl rfl
theorem hostSnoopResponse a0 a1 a2 a3 : Statement (.hostSnoopResponse a0 a1 a2 a3) := .inl rfl
theorem cxlMemRequest a0 a1 a2 a3 a4 : Statement (.cxlMemRequest a0 a1 a2 a3 a4) := .inl rfl
theorem unsupportedFeatureRequest a0 : Statement (.unsupportedFeatureRequest a0) := .inl rfl
theorem wreg a0 a1 a2 a3 a4 a5 : Statement (.wreg a0 a1 a2 a3 a4 a5) := .inl rfl
theorem wregAck a0 a1 a2 : Statement (.wregAck a0 a1 a2) := .inl rfl
theorem wregNak a0 a1 a2 : Statement (.wregNak a0 a1 a2) := .inl rfl
theorem wregTimeout a0 a1 : Statement (.wregTimeout a0 a1) := .inl rfl
theorem vendorMessageInvalid a0 : Statement (.vendorMessageInvalid a0) := .inl rfl
theorem apertureAccess a0 a1 a2 a3 : Statement (.apertureAccess a0 a1 a2 a3) := .inl rfl
theorem apertureResponse a0 a1 a2 a3 : Statement (.apertureResponse a0 a1 a2 a3) := .inl rfl
theorem windowArrivalWrite a0 a1 a2 : Statement (.windowArrivalWrite a0 a1 a2) := .inl rfl
theorem heartbeat : Statement (.heartbeat) := .inl rfl
theorem agentDead a0 : Statement (.agentDead a0) := .inl rfl
theorem teaselDirectoryWalk a0 : Statement (.teaselDirectoryWalk a0) := .inl rfl
theorem directoryEccError a0 : Statement (.directoryEccError a0) := .inl rfl
theorem portRetrain a0 : Statement (.portRetrain a0) := .inl rfl
theorem contentReclaim a0 : Statement (.contentReclaim a0) := .inl rfl
theorem contextScrubUnit a0 : Statement (.contextScrubUnit a0) := .inl rfl
theorem contextScrubComplete a0 : Statement (.contextScrubComplete a0) := .inl rfl
theorem regionScrubComplete a0 : Statement (.regionScrubComplete a0) := .inl rfl
theorem enqueue a0 a1 a2 a3 a4 : Statement (.enqueue a0 a1 a2 a3 a4) := .inl rfl
theorem barUnsupportedAccess a0 a1 a2 : Statement (.barUnsupportedAccess a0 a1 a2) := .inl rfl
theorem agentClaim a0 : Statement (.agentClaim a0) := .inl rfl
theorem launchCheck a0 : Statement (.launchCheck a0) := .inl rfl
theorem manageExecute a0 : Statement (.manageExecute a0) := .inl rfl
theorem launchComplete a0 : Statement (.launchComplete a0) := .inl rfl
theorem agentMismatch a0 : Statement (.agentMismatch a0) := .inl rfl
theorem debugStop a0 a1 a2 a3 : Statement (.debugStop a0 a1 a2 a3) := .inl rfl
theorem debugRelease a0 a1 a2 a3 : Statement (.debugRelease a0 a1 a2 a3) := .inl rfl
theorem counterClear a0 : Statement (.counterClear a0) := .inl rfl
theorem logModeWrite a0 a1 a2 : Statement (.logModeWrite a0 a1 a2) := .inl rfl
theorem counterBankWrite a0 a1 a2 : Statement (.counterBankWrite a0 a1 a2) := .inl rfl
theorem deviceReset : Statement (.deviceReset) := .inl rfl
theorem bootStepComplete a0 : Statement (.bootStepComplete a0) := .inl rfl
theorem mctpControl : Statement (.mctpControl) := .inl rfl
theorem getVersion : Statement (.getVersion) := .inl rfl
theorem getCapabilities : Statement (.getCapabilities) := .inl rfl
theorem negotiateAlgorithms : Statement (.negotiateAlgorithms) := .inl rfl
theorem getDigests : Statement (.getDigests) := .inl rfl
theorem getCertificate : Statement (.getCertificate) := .inl rfl
theorem challenge : Statement (.challenge) := .inl rfl
theorem getMeasurements : Statement (.getMeasurements) := .inl rfl
theorem keyExchange : Statement (.keyExchange) := .inl rfl
theorem finish : Statement (.finish) := .inl rfl
theorem endSession : Statement (.endSession) := .inl rfl
theorem regionCreate a0 a1 a2 a3 a4 a5 a6 : Statement (.regionCreate a0 a1 a2 a3 a4 a5 a6) := .inl rfl
theorem regionDestroy a0 a1 : Statement (.regionDestroy a0 a1) := .inl rfl
theorem vfBind a0 a1 a2 : Statement (.vfBind a0 a1 a2) := .inl rfl
theorem llcCarve a0 a1 a2 : Statement (.llcCarve a0 a1 a2) := .inl rfl
theorem bankCarve a0 a1 a2 a3 : Statement (.bankCarve a0 a1 a2 a3) := .inl rfl
theorem logRead a0 a1 : Statement (.logRead a0 a1) := .inl rfl
theorem updateStage a0 a1 a2 a3 : Statement (.updateStage a0 a1 a2 a3) := .inl rfl
theorem sensorRead a0 a1 : Statement (.sensorRead a0 a1) := .inl rfl
theorem keyReplace a0 a1 a2 : Statement (.keyReplace a0 a1 a2) := .inl rfl
theorem powerSample a0 : Statement (.powerSample a0) := .inl rfl
theorem temperatureSample a0 : Statement (.temperatureSample a0) := .inl rfl
theorem correctedError a0 a1 : Statement (.correctedError a0 a1) := .inl rfl
theorem uncorrectableError a0 a1 a2 : Statement (.uncorrectableError a0 a1 a2) := .inl rfl
theorem unitTestComplete a0 a1 a2 : Statement (.unitTestComplete a0 a1 a2) := .inl rfl
theorem tagParityError a0 a1 a2 : Statement (.tagParityError a0 a1 a2) := .inl rfl
theorem heartbeatReceive a0 : Statement (.heartbeatReceive a0) := .inl rfl
theorem hostLinkDown : Statement (.hostLinkDown) := .inl rfl
theorem powerLoss : Statement (.powerLoss) := .inl rfl
theorem localFrameScrub a0 : Statement (.localFrameScrub a0) := .inl rfl
theorem releasedBankZero a0 a1 : Statement (.releasedBankZero a0 a1) := .inl rfl
theorem context0RingsSet a0 a1 a2 a3 : Statement (.context0RingsSet a0 a1 a2 a3) := .inl rfl

end Sys2Proof.Laws.Stream
end

