-- ==== Sys2Proof/Laws/State.lean ====
section
/-! SUPPORT. What each update of the state leaves in each field: one lemma per field and update, so that
no proof unfolds a record update, and the reads after each update. -/

namespace Sys2Proof.Machine
open Sys2Proof

/-! ### `State.setField` -/

@[simp] theorem State.setField_chosen (s : State) (f : Nat) (v : Field) : (s.setField f v).chosen = s.chosen := rfl
@[simp] theorem State.setField_agenda (s : State) (f : Nat) (v : Field) : (s.setField f v).agenda = s.agenda := rfl
@[simp] theorem State.setField_freeCtr (s : State) (f : Nat) (v : Field) : (s.setField f v).freeCtr = s.freeCtr := rfl
@[simp] theorem State.setField_time (s : State) (f : Nat) (v : Field) : (s.setField f v).time = s.time := rfl
@[simp] theorem State.setField_fields (s : State) (f : Nat) (v : Field) : (s.setField f v).fields = mput s.fields f v := rfl
@[simp] theorem State.setField_launches (s : State) (f : Nat) (v : Field) : (s.setField f v).launches = s.launches := rfl
@[simp] theorem State.setField_nextFid (s : State) (f : Nat) (v : Field) : (s.setField f v).nextFid = s.nextFid := rfl
@[simp] theorem State.setField_nextReady (s : State) (f : Nat) (v : Field) : (s.setField f v).nextReady = s.nextReady := rfl
@[simp] theorem State.setField_nextUid (s : State) (f : Nat) (v : Field) : (s.setField f v).nextUid = s.nextUid := rfl
@[simp] theorem State.setField_accNo (s : State) (f : Nat) (v : Field) : (s.setField f v).accNo = s.accNo := rfl
@[simp] theorem State.setField_ctxs (s : State) (f : Nat) (v : Field) : (s.setField f v).ctxs = s.ctxs := rfl
@[simp] theorem State.setField_claims (s : State) (f : Nat) (v : Field) : (s.setField f v).claims = s.claims := rfl
@[simp] theorem State.setField_queues (s : State) (f : Nat) (v : Field) : (s.setField f v).queues = s.queues := rfl
@[simp] theorem State.setField_mem (s : State) (f : Nat) (v : Field) : (s.setField f v).mem = s.mem := rfl
@[simp] theorem State.setField_pool (s : State) (f : Nat) (v : Field) : (s.setField f v).pool = s.pool := rfl
@[simp] theorem State.setField_keys (s : State) (f : Nat) (v : Field) : (s.setField f v).keys = s.keys := rfl
@[simp] theorem State.setField_keyMap (s : State) (f : Nat) (v : Field) : (s.setField f v).keyMap = s.keyMap := rfl
@[simp] theorem State.setField_l1 (s : State) (f : Nat) (v : Field) : (s.setField f v).l1 = s.l1 := rfl
@[simp] theorem State.setField_l2 (s : State) (f : Nat) (v : Field) : (s.setField f v).l2 = s.l2 := rfl
@[simp] theorem State.setField_tlb (s : State) (f : Nat) (v : Field) : (s.setField f v).tlb = s.tlb := rfl
@[simp] theorem State.setField_walkCache (s : State) (f : Nat) (v : Field) : (s.setField f v).walkCache = s.walkCache := rfl
@[simp] theorem State.setField_nodeTlb (s : State) (f : Nat) (v : Field) : (s.setField f v).nodeTlb = s.nodeTlb := rfl
@[simp] theorem State.setField_deferred (s : State) (f : Nat) (v : Field) : (s.setField f v).deferred = s.deferred := rfl
@[simp] theorem State.setField_poisoned (s : State) (f : Nat) (v : Field) : (s.setField f v).poisoned = s.poisoned := rfl
@[simp] theorem State.setField_frames (s : State) (f : Nat) (v : Field) : (s.setField f v).frames = s.frames := rfl
@[simp] theorem State.setField_setsFixed (s : State) (f : Nat) (v : Field) : (s.setField f v).setsFixed = s.setsFixed := rfl
@[simp] theorem State.setField_fills (s : State) (f : Nat) (v : Field) : (s.setField f v).fills = s.fills := rfl
@[simp] theorem State.setField_zeroUnits (s : State) (f : Nat) (v : Field) : (s.setField f v).zeroUnits = s.zeroUnits := rfl
@[simp] theorem State.setField_roUnits (s : State) (f : Nat) (v : Field) : (s.setField f v).roUnits = s.roUnits := rfl
@[simp] theorem State.setField_leases (s : State) (f : Nat) (v : Field) : (s.setField f v).leases = s.leases := rfl
@[simp] theorem State.setField_nodes (s : State) (f : Nat) (v : Field) : (s.setField f v).nodes = s.nodes := rfl
@[simp] theorem State.setField_moves (s : State) (f : Nat) (v : Field) : (s.setField f v).moves = s.moves := rfl
@[simp] theorem State.setField_redirects (s : State) (f : Nat) (v : Field) : (s.setField f v).redirects = s.redirects := rfl
@[simp] theorem State.setField_pagers (s : State) (f : Nat) (v : Field) : (s.setField f v).pagers = s.pagers := rfl
@[simp] theorem State.setField_ckpt (s : State) (f : Nat) (v : Field) : (s.setField f v).ckpt = s.ckpt := rfl
@[simp] theorem State.setField_ckptStat (s : State) (f : Nat) (v : Field) : (s.setField f v).ckptStat = s.ckptStat := rfl
@[simp] theorem State.setField_s2waits (s : State) (f : Nat) (v : Field) : (s.setField f v).s2waits = s.s2waits := rfl
@[simp] theorem State.setField_ringWaits (s : State) (f : Nat) (v : Field) : (s.setField f v).ringWaits = s.ringWaits := rfl
@[simp] theorem State.setField_dir (s : State) (f : Nat) (v : Field) : (s.setField f v).dir = s.dir := rfl
@[simp] theorem State.setField_sharers (s : State) (f : Nat) (v : Field) : (s.setField f v).sharers = s.sharers := rfl
@[simp] theorem State.setField_upgrades (s : State) (f : Nat) (v : Field) : (s.setField f v).upgrades = s.upgrades := rfl
@[simp] theorem State.setField_heldFills (s : State) (f : Nat) (v : Field) : (s.setField f v).heldFills = s.heldFills := rfl
@[simp] theorem State.setField_exportWaits (s : State) (f : Nat) (v : Field) : (s.setField f v).exportWaits = s.exportWaits := rfl
@[simp] theorem State.setField_slotWaits (s : State) (f : Nat) (v : Field) : (s.setField f v).slotWaits = s.slotWaits := rfl
@[simp] theorem State.setField_pin (s : State) (f : Nat) (v : Field) : (s.setField f v).pin = s.pin := rfl
@[simp] theorem State.setField_homeWrites (s : State) (f : Nat) (v : Field) : (s.setField f v).homeWrites = s.homeWrites := rfl
@[simp] theorem State.setField_eccWaits (s : State) (f : Nat) (v : Field) : (s.setField f v).eccWaits = s.eccWaits := rfl
@[simp] theorem State.setField_regions (s : State) (f : Nat) (v : Field) : (s.setField f v).regions = s.regions := rfl
@[simp] theorem State.setField_banks (s : State) (f : Nat) (v : Field) : (s.setField f v).banks = s.banks := rfl
@[simp] theorem State.setField_heath (s : State) (f : Nat) (v : Field) : (s.setField f v).heath = s.heath := rfl
@[simp] theorem State.setField_outbox (s : State) (f : Nat) (v : Field) : (s.setField f v).outbox = s.outbox := rfl

/-! ### `State.updField` -/

@[simp] theorem State.updField_chosen (s : State) (f : Nat) (g : Field → Field) : (s.updField f g).chosen = s.chosen := rfl
@[simp] theorem State.updField_agenda (s : State) (f : Nat) (g : Field → Field) : (s.updField f g).agenda = s.agenda := rfl
@[simp] theorem State.updField_freeCtr (s : State) (f : Nat) (g : Field → Field) : (s.updField f g).freeCtr = s.freeCtr := rfl
@[simp] theorem State.updField_time (s : State) (f : Nat) (g : Field → Field) : (s.updField f g).time = s.time := rfl
@[simp] theorem State.updField_fields (s : State) (f : Nat) (g : Field → Field) : (s.updField f g).fields = mupd s.fields f g := rfl
@[simp] theorem State.updField_launches (s : State) (f : Nat) (g : Field → Field) : (s.updField f g).launches = s.launches := rfl
@[simp] theorem State.updField_nextFid (s : State) (f : Nat) (g : Field → Field) : (s.updField f g).nextFid = s.nextFid := rfl
@[simp] theorem State.updField_nextReady (s : State) (f : Nat) (g : Field → Field) : (s.updField f g).nextReady = s.nextReady := rfl
@[simp] theorem State.updField_nextUid (s : State) (f : Nat) (g : Field → Field) : (s.updField f g).nextUid = s.nextUid := rfl
@[simp] theorem State.updField_accNo (s : State) (f : Nat) (g : Field → Field) : (s.updField f g).accNo = s.accNo := rfl
@[simp] theorem State.updField_ctxs (s : State) (f : Nat) (g : Field → Field) : (s.updField f g).ctxs = s.ctxs := rfl
@[simp] theorem State.updField_claims (s : State) (f : Nat) (g : Field → Field) : (s.updField f g).claims = s.claims := rfl
@[simp] theorem State.updField_queues (s : State) (f : Nat) (g : Field → Field) : (s.updField f g).queues = s.queues := rfl
@[simp] theorem State.updField_mem (s : State) (f : Nat) (g : Field → Field) : (s.updField f g).mem = s.mem := rfl
@[simp] theorem State.updField_pool (s : State) (f : Nat) (g : Field → Field) : (s.updField f g).pool = s.pool := rfl
@[simp] theorem State.updField_keys (s : State) (f : Nat) (g : Field → Field) : (s.updField f g).keys = s.keys := rfl
@[simp] theorem State.updField_keyMap (s : State) (f : Nat) (g : Field → Field) : (s.updField f g).keyMap = s.keyMap := rfl
@[simp] theorem State.updField_l1 (s : State) (f : Nat) (g : Field → Field) : (s.updField f g).l1 = s.l1 := rfl
@[simp] theorem State.updField_l2 (s : State) (f : Nat) (g : Field → Field) : (s.updField f g).l2 = s.l2 := rfl
@[simp] theorem State.updField_tlb (s : State) (f : Nat) (g : Field → Field) : (s.updField f g).tlb = s.tlb := rfl
@[simp] theorem State.updField_walkCache (s : State) (f : Nat) (g : Field → Field) : (s.updField f g).walkCache = s.walkCache := rfl
@[simp] theorem State.updField_nodeTlb (s : State) (f : Nat) (g : Field → Field) : (s.updField f g).nodeTlb = s.nodeTlb := rfl
@[simp] theorem State.updField_deferred (s : State) (f : Nat) (g : Field → Field) : (s.updField f g).deferred = s.deferred := rfl
@[simp] theorem State.updField_poisoned (s : State) (f : Nat) (g : Field → Field) : (s.updField f g).poisoned = s.poisoned := rfl
@[simp] theorem State.updField_frames (s : State) (f : Nat) (g : Field → Field) : (s.updField f g).frames = s.frames := rfl
@[simp] theorem State.updField_setsFixed (s : State) (f : Nat) (g : Field → Field) : (s.updField f g).setsFixed = s.setsFixed := rfl
@[simp] theorem State.updField_fills (s : State) (f : Nat) (g : Field → Field) : (s.updField f g).fills = s.fills := rfl
@[simp] theorem State.updField_zeroUnits (s : State) (f : Nat) (g : Field → Field) : (s.updField f g).zeroUnits = s.zeroUnits := rfl
@[simp] theorem State.updField_roUnits (s : State) (f : Nat) (g : Field → Field) : (s.updField f g).roUnits = s.roUnits := rfl
@[simp] theorem State.updField_leases (s : State) (f : Nat) (g : Field → Field) : (s.updField f g).leases = s.leases := rfl
@[simp] theorem State.updField_nodes (s : State) (f : Nat) (g : Field → Field) : (s.updField f g).nodes = s.nodes := rfl
@[simp] theorem State.updField_moves (s : State) (f : Nat) (g : Field → Field) : (s.updField f g).moves = s.moves := rfl
@[simp] theorem State.updField_redirects (s : State) (f : Nat) (g : Field → Field) : (s.updField f g).redirects = s.redirects := rfl
@[simp] theorem State.updField_pagers (s : State) (f : Nat) (g : Field → Field) : (s.updField f g).pagers = s.pagers := rfl
@[simp] theorem State.updField_ckpt (s : State) (f : Nat) (g : Field → Field) : (s.updField f g).ckpt = s.ckpt := rfl
@[simp] theorem State.updField_ckptStat (s : State) (f : Nat) (g : Field → Field) : (s.updField f g).ckptStat = s.ckptStat := rfl
@[simp] theorem State.updField_s2waits (s : State) (f : Nat) (g : Field → Field) : (s.updField f g).s2waits = s.s2waits := rfl
@[simp] theorem State.updField_ringWaits (s : State) (f : Nat) (g : Field → Field) : (s.updField f g).ringWaits = s.ringWaits := rfl
@[simp] theorem State.updField_dir (s : State) (f : Nat) (g : Field → Field) : (s.updField f g).dir = s.dir := rfl
@[simp] theorem State.updField_sharers (s : State) (f : Nat) (g : Field → Field) : (s.updField f g).sharers = s.sharers := rfl
@[simp] theorem State.updField_upgrades (s : State) (f : Nat) (g : Field → Field) : (s.updField f g).upgrades = s.upgrades := rfl
@[simp] theorem State.updField_heldFills (s : State) (f : Nat) (g : Field → Field) : (s.updField f g).heldFills = s.heldFills := rfl
@[simp] theorem State.updField_exportWaits (s : State) (f : Nat) (g : Field → Field) : (s.updField f g).exportWaits = s.exportWaits := rfl
@[simp] theorem State.updField_slotWaits (s : State) (f : Nat) (g : Field → Field) : (s.updField f g).slotWaits = s.slotWaits := rfl
@[simp] theorem State.updField_pin (s : State) (f : Nat) (g : Field → Field) : (s.updField f g).pin = s.pin := rfl
@[simp] theorem State.updField_homeWrites (s : State) (f : Nat) (g : Field → Field) : (s.updField f g).homeWrites = s.homeWrites := rfl
@[simp] theorem State.updField_eccWaits (s : State) (f : Nat) (g : Field → Field) : (s.updField f g).eccWaits = s.eccWaits := rfl
@[simp] theorem State.updField_regions (s : State) (f : Nat) (g : Field → Field) : (s.updField f g).regions = s.regions := rfl
@[simp] theorem State.updField_banks (s : State) (f : Nat) (g : Field → Field) : (s.updField f g).banks = s.banks := rfl
@[simp] theorem State.updField_heath (s : State) (f : Nat) (g : Field → Field) : (s.updField f g).heath = s.heath := rfl
@[simp] theorem State.updField_outbox (s : State) (f : Nat) (g : Field → Field) : (s.updField f g).outbox = s.outbox := rfl

/-! ### `State.updSwathAt` -/

@[simp] theorem State.updSwathAt_chosen (s : State) (f w : Nat) (g : Swath → Swath) : (s.updSwathAt f w g).chosen = s.chosen := rfl
@[simp] theorem State.updSwathAt_agenda (s : State) (f w : Nat) (g : Swath → Swath) : (s.updSwathAt f w g).agenda = s.agenda := rfl
@[simp] theorem State.updSwathAt_freeCtr (s : State) (f w : Nat) (g : Swath → Swath) : (s.updSwathAt f w g).freeCtr = s.freeCtr := rfl
@[simp] theorem State.updSwathAt_time (s : State) (f w : Nat) (g : Swath → Swath) : (s.updSwathAt f w g).time = s.time := rfl
@[simp] theorem State.updSwathAt_fields (s : State) (f w : Nat) (g : Swath → Swath) : (s.updSwathAt f w g).fields = mupd s.fields f (fun (v : Field) => v.updSw w g) := rfl
@[simp] theorem State.updSwathAt_launches (s : State) (f w : Nat) (g : Swath → Swath) : (s.updSwathAt f w g).launches = s.launches := rfl
@[simp] theorem State.updSwathAt_nextFid (s : State) (f w : Nat) (g : Swath → Swath) : (s.updSwathAt f w g).nextFid = s.nextFid := rfl
@[simp] theorem State.updSwathAt_nextReady (s : State) (f w : Nat) (g : Swath → Swath) : (s.updSwathAt f w g).nextReady = s.nextReady := rfl
@[simp] theorem State.updSwathAt_nextUid (s : State) (f w : Nat) (g : Swath → Swath) : (s.updSwathAt f w g).nextUid = s.nextUid := rfl
@[simp] theorem State.updSwathAt_accNo (s : State) (f w : Nat) (g : Swath → Swath) : (s.updSwathAt f w g).accNo = s.accNo := rfl
@[simp] theorem State.updSwathAt_ctxs (s : State) (f w : Nat) (g : Swath → Swath) : (s.updSwathAt f w g).ctxs = s.ctxs := rfl
@[simp] theorem State.updSwathAt_claims (s : State) (f w : Nat) (g : Swath → Swath) : (s.updSwathAt f w g).claims = s.claims := rfl
@[simp] theorem State.updSwathAt_queues (s : State) (f w : Nat) (g : Swath → Swath) : (s.updSwathAt f w g).queues = s.queues := rfl
@[simp] theorem State.updSwathAt_mem (s : State) (f w : Nat) (g : Swath → Swath) : (s.updSwathAt f w g).mem = s.mem := rfl
@[simp] theorem State.updSwathAt_pool (s : State) (f w : Nat) (g : Swath → Swath) : (s.updSwathAt f w g).pool = s.pool := rfl
@[simp] theorem State.updSwathAt_keys (s : State) (f w : Nat) (g : Swath → Swath) : (s.updSwathAt f w g).keys = s.keys := rfl
@[simp] theorem State.updSwathAt_keyMap (s : State) (f w : Nat) (g : Swath → Swath) : (s.updSwathAt f w g).keyMap = s.keyMap := rfl
@[simp] theorem State.updSwathAt_l1 (s : State) (f w : Nat) (g : Swath → Swath) : (s.updSwathAt f w g).l1 = s.l1 := rfl
@[simp] theorem State.updSwathAt_l2 (s : State) (f w : Nat) (g : Swath → Swath) : (s.updSwathAt f w g).l2 = s.l2 := rfl
@[simp] theorem State.updSwathAt_tlb (s : State) (f w : Nat) (g : Swath → Swath) : (s.updSwathAt f w g).tlb = s.tlb := rfl
@[simp] theorem State.updSwathAt_walkCache (s : State) (f w : Nat) (g : Swath → Swath) : (s.updSwathAt f w g).walkCache = s.walkCache := rfl
@[simp] theorem State.updSwathAt_nodeTlb (s : State) (f w : Nat) (g : Swath → Swath) : (s.updSwathAt f w g).nodeTlb = s.nodeTlb := rfl
@[simp] theorem State.updSwathAt_deferred (s : State) (f w : Nat) (g : Swath → Swath) : (s.updSwathAt f w g).deferred = s.deferred := rfl
@[simp] theorem State.updSwathAt_poisoned (s : State) (f w : Nat) (g : Swath → Swath) : (s.updSwathAt f w g).poisoned = s.poisoned := rfl
@[simp] theorem State.updSwathAt_frames (s : State) (f w : Nat) (g : Swath → Swath) : (s.updSwathAt f w g).frames = s.frames := rfl
@[simp] theorem State.updSwathAt_setsFixed (s : State) (f w : Nat) (g : Swath → Swath) : (s.updSwathAt f w g).setsFixed = s.setsFixed := rfl
@[simp] theorem State.updSwathAt_fills (s : State) (f w : Nat) (g : Swath → Swath) : (s.updSwathAt f w g).fills = s.fills := rfl
@[simp] theorem State.updSwathAt_zeroUnits (s : State) (f w : Nat) (g : Swath → Swath) : (s.updSwathAt f w g).zeroUnits = s.zeroUnits := rfl
@[simp] theorem State.updSwathAt_roUnits (s : State) (f w : Nat) (g : Swath → Swath) : (s.updSwathAt f w g).roUnits = s.roUnits := rfl
@[simp] theorem State.updSwathAt_leases (s : State) (f w : Nat) (g : Swath → Swath) : (s.updSwathAt f w g).leases = s.leases := rfl
@[simp] theorem State.updSwathAt_nodes (s : State) (f w : Nat) (g : Swath → Swath) : (s.updSwathAt f w g).nodes = s.nodes := rfl
@[simp] theorem State.updSwathAt_moves (s : State) (f w : Nat) (g : Swath → Swath) : (s.updSwathAt f w g).moves = s.moves := rfl
@[simp] theorem State.updSwathAt_redirects (s : State) (f w : Nat) (g : Swath → Swath) : (s.updSwathAt f w g).redirects = s.redirects := rfl
@[simp] theorem State.updSwathAt_pagers (s : State) (f w : Nat) (g : Swath → Swath) : (s.updSwathAt f w g).pagers = s.pagers := rfl
@[simp] theorem State.updSwathAt_ckpt (s : State) (f w : Nat) (g : Swath → Swath) : (s.updSwathAt f w g).ckpt = s.ckpt := rfl
@[simp] theorem State.updSwathAt_ckptStat (s : State) (f w : Nat) (g : Swath → Swath) : (s.updSwathAt f w g).ckptStat = s.ckptStat := rfl
@[simp] theorem State.updSwathAt_s2waits (s : State) (f w : Nat) (g : Swath → Swath) : (s.updSwathAt f w g).s2waits = s.s2waits := rfl
@[simp] theorem State.updSwathAt_ringWaits (s : State) (f w : Nat) (g : Swath → Swath) : (s.updSwathAt f w g).ringWaits = s.ringWaits := rfl
@[simp] theorem State.updSwathAt_dir (s : State) (f w : Nat) (g : Swath → Swath) : (s.updSwathAt f w g).dir = s.dir := rfl
@[simp] theorem State.updSwathAt_sharers (s : State) (f w : Nat) (g : Swath → Swath) : (s.updSwathAt f w g).sharers = s.sharers := rfl
@[simp] theorem State.updSwathAt_upgrades (s : State) (f w : Nat) (g : Swath → Swath) : (s.updSwathAt f w g).upgrades = s.upgrades := rfl
@[simp] theorem State.updSwathAt_heldFills (s : State) (f w : Nat) (g : Swath → Swath) : (s.updSwathAt f w g).heldFills = s.heldFills := rfl
@[simp] theorem State.updSwathAt_exportWaits (s : State) (f w : Nat) (g : Swath → Swath) : (s.updSwathAt f w g).exportWaits = s.exportWaits := rfl
@[simp] theorem State.updSwathAt_slotWaits (s : State) (f w : Nat) (g : Swath → Swath) : (s.updSwathAt f w g).slotWaits = s.slotWaits := rfl
@[simp] theorem State.updSwathAt_pin (s : State) (f w : Nat) (g : Swath → Swath) : (s.updSwathAt f w g).pin = s.pin := rfl
@[simp] theorem State.updSwathAt_homeWrites (s : State) (f w : Nat) (g : Swath → Swath) : (s.updSwathAt f w g).homeWrites = s.homeWrites := rfl
@[simp] theorem State.updSwathAt_eccWaits (s : State) (f w : Nat) (g : Swath → Swath) : (s.updSwathAt f w g).eccWaits = s.eccWaits := rfl
@[simp] theorem State.updSwathAt_regions (s : State) (f w : Nat) (g : Swath → Swath) : (s.updSwathAt f w g).regions = s.regions := rfl
@[simp] theorem State.updSwathAt_banks (s : State) (f w : Nat) (g : Swath → Swath) : (s.updSwathAt f w g).banks = s.banks := rfl
@[simp] theorem State.updSwathAt_heath (s : State) (f w : Nat) (g : Swath → Swath) : (s.updSwathAt f w g).heath = s.heath := rfl
@[simp] theorem State.updSwathAt_outbox (s : State) (f w : Nat) (g : Swath → Swath) : (s.updSwathAt f w g).outbox = s.outbox := rfl

/-! ### `State.updLaunch` -/

@[simp] theorem State.updLaunch_chosen (s : State) (n : Nat) (g : Launch → Launch) : (s.updLaunch n g).chosen = s.chosen := rfl
@[simp] theorem State.updLaunch_agenda (s : State) (n : Nat) (g : Launch → Launch) : (s.updLaunch n g).agenda = s.agenda := rfl
@[simp] theorem State.updLaunch_freeCtr (s : State) (n : Nat) (g : Launch → Launch) : (s.updLaunch n g).freeCtr = s.freeCtr := rfl
@[simp] theorem State.updLaunch_time (s : State) (n : Nat) (g : Launch → Launch) : (s.updLaunch n g).time = s.time := rfl
@[simp] theorem State.updLaunch_fields (s : State) (n : Nat) (g : Launch → Launch) : (s.updLaunch n g).fields = s.fields := rfl
@[simp] theorem State.updLaunch_launches (s : State) (n : Nat) (g : Launch → Launch) : (s.updLaunch n g).launches = mupd s.launches n g := rfl
@[simp] theorem State.updLaunch_nextFid (s : State) (n : Nat) (g : Launch → Launch) : (s.updLaunch n g).nextFid = s.nextFid := rfl
@[simp] theorem State.updLaunch_nextReady (s : State) (n : Nat) (g : Launch → Launch) : (s.updLaunch n g).nextReady = s.nextReady := rfl
@[simp] theorem State.updLaunch_nextUid (s : State) (n : Nat) (g : Launch → Launch) : (s.updLaunch n g).nextUid = s.nextUid := rfl
@[simp] theorem State.updLaunch_accNo (s : State) (n : Nat) (g : Launch → Launch) : (s.updLaunch n g).accNo = s.accNo := rfl
@[simp] theorem State.updLaunch_ctxs (s : State) (n : Nat) (g : Launch → Launch) : (s.updLaunch n g).ctxs = s.ctxs := rfl
@[simp] theorem State.updLaunch_claims (s : State) (n : Nat) (g : Launch → Launch) : (s.updLaunch n g).claims = s.claims := rfl
@[simp] theorem State.updLaunch_queues (s : State) (n : Nat) (g : Launch → Launch) : (s.updLaunch n g).queues = s.queues := rfl
@[simp] theorem State.updLaunch_mem (s : State) (n : Nat) (g : Launch → Launch) : (s.updLaunch n g).mem = s.mem := rfl
@[simp] theorem State.updLaunch_pool (s : State) (n : Nat) (g : Launch → Launch) : (s.updLaunch n g).pool = s.pool := rfl
@[simp] theorem State.updLaunch_keys (s : State) (n : Nat) (g : Launch → Launch) : (s.updLaunch n g).keys = s.keys := rfl
@[simp] theorem State.updLaunch_keyMap (s : State) (n : Nat) (g : Launch → Launch) : (s.updLaunch n g).keyMap = s.keyMap := rfl
@[simp] theorem State.updLaunch_l1 (s : State) (n : Nat) (g : Launch → Launch) : (s.updLaunch n g).l1 = s.l1 := rfl
@[simp] theorem State.updLaunch_l2 (s : State) (n : Nat) (g : Launch → Launch) : (s.updLaunch n g).l2 = s.l2 := rfl
@[simp] theorem State.updLaunch_tlb (s : State) (n : Nat) (g : Launch → Launch) : (s.updLaunch n g).tlb = s.tlb := rfl
@[simp] theorem State.updLaunch_walkCache (s : State) (n : Nat) (g : Launch → Launch) : (s.updLaunch n g).walkCache = s.walkCache := rfl
@[simp] theorem State.updLaunch_nodeTlb (s : State) (n : Nat) (g : Launch → Launch) : (s.updLaunch n g).nodeTlb = s.nodeTlb := rfl
@[simp] theorem State.updLaunch_deferred (s : State) (n : Nat) (g : Launch → Launch) : (s.updLaunch n g).deferred = s.deferred := rfl
@[simp] theorem State.updLaunch_poisoned (s : State) (n : Nat) (g : Launch → Launch) : (s.updLaunch n g).poisoned = s.poisoned := rfl
@[simp] theorem State.updLaunch_frames (s : State) (n : Nat) (g : Launch → Launch) : (s.updLaunch n g).frames = s.frames := rfl
@[simp] theorem State.updLaunch_setsFixed (s : State) (n : Nat) (g : Launch → Launch) : (s.updLaunch n g).setsFixed = s.setsFixed := rfl
@[simp] theorem State.updLaunch_fills (s : State) (n : Nat) (g : Launch → Launch) : (s.updLaunch n g).fills = s.fills := rfl
@[simp] theorem State.updLaunch_zeroUnits (s : State) (n : Nat) (g : Launch → Launch) : (s.updLaunch n g).zeroUnits = s.zeroUnits := rfl
@[simp] theorem State.updLaunch_roUnits (s : State) (n : Nat) (g : Launch → Launch) : (s.updLaunch n g).roUnits = s.roUnits := rfl
@[simp] theorem State.updLaunch_leases (s : State) (n : Nat) (g : Launch → Launch) : (s.updLaunch n g).leases = s.leases := rfl
@[simp] theorem State.updLaunch_nodes (s : State) (n : Nat) (g : Launch → Launch) : (s.updLaunch n g).nodes = s.nodes := rfl
@[simp] theorem State.updLaunch_moves (s : State) (n : Nat) (g : Launch → Launch) : (s.updLaunch n g).moves = s.moves := rfl
@[simp] theorem State.updLaunch_redirects (s : State) (n : Nat) (g : Launch → Launch) : (s.updLaunch n g).redirects = s.redirects := rfl
@[simp] theorem State.updLaunch_pagers (s : State) (n : Nat) (g : Launch → Launch) : (s.updLaunch n g).pagers = s.pagers := rfl
@[simp] theorem State.updLaunch_ckpt (s : State) (n : Nat) (g : Launch → Launch) : (s.updLaunch n g).ckpt = s.ckpt := rfl
@[simp] theorem State.updLaunch_ckptStat (s : State) (n : Nat) (g : Launch → Launch) : (s.updLaunch n g).ckptStat = s.ckptStat := rfl
@[simp] theorem State.updLaunch_s2waits (s : State) (n : Nat) (g : Launch → Launch) : (s.updLaunch n g).s2waits = s.s2waits := rfl
@[simp] theorem State.updLaunch_ringWaits (s : State) (n : Nat) (g : Launch → Launch) : (s.updLaunch n g).ringWaits = s.ringWaits := rfl
@[simp] theorem State.updLaunch_dir (s : State) (n : Nat) (g : Launch → Launch) : (s.updLaunch n g).dir = s.dir := rfl
@[simp] theorem State.updLaunch_sharers (s : State) (n : Nat) (g : Launch → Launch) : (s.updLaunch n g).sharers = s.sharers := rfl
@[simp] theorem State.updLaunch_upgrades (s : State) (n : Nat) (g : Launch → Launch) : (s.updLaunch n g).upgrades = s.upgrades := rfl
@[simp] theorem State.updLaunch_heldFills (s : State) (n : Nat) (g : Launch → Launch) : (s.updLaunch n g).heldFills = s.heldFills := rfl
@[simp] theorem State.updLaunch_exportWaits (s : State) (n : Nat) (g : Launch → Launch) : (s.updLaunch n g).exportWaits = s.exportWaits := rfl
@[simp] theorem State.updLaunch_slotWaits (s : State) (n : Nat) (g : Launch → Launch) : (s.updLaunch n g).slotWaits = s.slotWaits := rfl
@[simp] theorem State.updLaunch_pin (s : State) (n : Nat) (g : Launch → Launch) : (s.updLaunch n g).pin = s.pin := rfl
@[simp] theorem State.updLaunch_homeWrites (s : State) (n : Nat) (g : Launch → Launch) : (s.updLaunch n g).homeWrites = s.homeWrites := rfl
@[simp] theorem State.updLaunch_eccWaits (s : State) (n : Nat) (g : Launch → Launch) : (s.updLaunch n g).eccWaits = s.eccWaits := rfl
@[simp] theorem State.updLaunch_regions (s : State) (n : Nat) (g : Launch → Launch) : (s.updLaunch n g).regions = s.regions := rfl
@[simp] theorem State.updLaunch_banks (s : State) (n : Nat) (g : Launch → Launch) : (s.updLaunch n g).banks = s.banks := rfl
@[simp] theorem State.updLaunch_heath (s : State) (n : Nat) (g : Launch → Launch) : (s.updLaunch n g).heath = s.heath := rfl
@[simp] theorem State.updLaunch_outbox (s : State) (n : Nat) (g : Launch → Launch) : (s.updLaunch n g).outbox = s.outbox := rfl

/-! ### `State.setCtx` -/

@[simp] theorem State.setCtx_chosen (s : State) (c : Nat) (v : Context) : (s.setCtx c v).chosen = s.chosen := rfl
@[simp] theorem State.setCtx_agenda (s : State) (c : Nat) (v : Context) : (s.setCtx c v).agenda = s.agenda := rfl
@[simp] theorem State.setCtx_freeCtr (s : State) (c : Nat) (v : Context) : (s.setCtx c v).freeCtr = s.freeCtr := rfl
@[simp] theorem State.setCtx_time (s : State) (c : Nat) (v : Context) : (s.setCtx c v).time = s.time := rfl
@[simp] theorem State.setCtx_fields (s : State) (c : Nat) (v : Context) : (s.setCtx c v).fields = s.fields := rfl
@[simp] theorem State.setCtx_launches (s : State) (c : Nat) (v : Context) : (s.setCtx c v).launches = s.launches := rfl
@[simp] theorem State.setCtx_nextFid (s : State) (c : Nat) (v : Context) : (s.setCtx c v).nextFid = s.nextFid := rfl
@[simp] theorem State.setCtx_nextReady (s : State) (c : Nat) (v : Context) : (s.setCtx c v).nextReady = s.nextReady := rfl
@[simp] theorem State.setCtx_nextUid (s : State) (c : Nat) (v : Context) : (s.setCtx c v).nextUid = s.nextUid := rfl
@[simp] theorem State.setCtx_accNo (s : State) (c : Nat) (v : Context) : (s.setCtx c v).accNo = s.accNo := rfl
@[simp] theorem State.setCtx_ctxs (s : State) (c : Nat) (v : Context) : (s.setCtx c v).ctxs = mput s.ctxs c v := rfl
@[simp] theorem State.setCtx_claims (s : State) (c : Nat) (v : Context) : (s.setCtx c v).claims = s.claims := rfl
@[simp] theorem State.setCtx_queues (s : State) (c : Nat) (v : Context) : (s.setCtx c v).queues = s.queues := rfl
@[simp] theorem State.setCtx_mem (s : State) (c : Nat) (v : Context) : (s.setCtx c v).mem = s.mem := rfl
@[simp] theorem State.setCtx_pool (s : State) (c : Nat) (v : Context) : (s.setCtx c v).pool = s.pool := rfl
@[simp] theorem State.setCtx_keys (s : State) (c : Nat) (v : Context) : (s.setCtx c v).keys = s.keys := rfl
@[simp] theorem State.setCtx_keyMap (s : State) (c : Nat) (v : Context) : (s.setCtx c v).keyMap = s.keyMap := rfl
@[simp] theorem State.setCtx_l1 (s : State) (c : Nat) (v : Context) : (s.setCtx c v).l1 = s.l1 := rfl
@[simp] theorem State.setCtx_l2 (s : State) (c : Nat) (v : Context) : (s.setCtx c v).l2 = s.l2 := rfl
@[simp] theorem State.setCtx_tlb (s : State) (c : Nat) (v : Context) : (s.setCtx c v).tlb = s.tlb := rfl
@[simp] theorem State.setCtx_walkCache (s : State) (c : Nat) (v : Context) : (s.setCtx c v).walkCache = s.walkCache := rfl
@[simp] theorem State.setCtx_nodeTlb (s : State) (c : Nat) (v : Context) : (s.setCtx c v).nodeTlb = s.nodeTlb := rfl
@[simp] theorem State.setCtx_deferred (s : State) (c : Nat) (v : Context) : (s.setCtx c v).deferred = s.deferred := rfl
@[simp] theorem State.setCtx_poisoned (s : State) (c : Nat) (v : Context) : (s.setCtx c v).poisoned = s.poisoned := rfl
@[simp] theorem State.setCtx_frames (s : State) (c : Nat) (v : Context) : (s.setCtx c v).frames = s.frames := rfl
@[simp] theorem State.setCtx_setsFixed (s : State) (c : Nat) (v : Context) : (s.setCtx c v).setsFixed = s.setsFixed := rfl
@[simp] theorem State.setCtx_fills (s : State) (c : Nat) (v : Context) : (s.setCtx c v).fills = s.fills := rfl
@[simp] theorem State.setCtx_zeroUnits (s : State) (c : Nat) (v : Context) : (s.setCtx c v).zeroUnits = s.zeroUnits := rfl
@[simp] theorem State.setCtx_roUnits (s : State) (c : Nat) (v : Context) : (s.setCtx c v).roUnits = s.roUnits := rfl
@[simp] theorem State.setCtx_leases (s : State) (c : Nat) (v : Context) : (s.setCtx c v).leases = s.leases := rfl
@[simp] theorem State.setCtx_nodes (s : State) (c : Nat) (v : Context) : (s.setCtx c v).nodes = s.nodes := rfl
@[simp] theorem State.setCtx_moves (s : State) (c : Nat) (v : Context) : (s.setCtx c v).moves = s.moves := rfl
@[simp] theorem State.setCtx_redirects (s : State) (c : Nat) (v : Context) : (s.setCtx c v).redirects = s.redirects := rfl
@[simp] theorem State.setCtx_pagers (s : State) (c : Nat) (v : Context) : (s.setCtx c v).pagers = s.pagers := rfl
@[simp] theorem State.setCtx_ckpt (s : State) (c : Nat) (v : Context) : (s.setCtx c v).ckpt = s.ckpt := rfl
@[simp] theorem State.setCtx_ckptStat (s : State) (c : Nat) (v : Context) : (s.setCtx c v).ckptStat = s.ckptStat := rfl
@[simp] theorem State.setCtx_s2waits (s : State) (c : Nat) (v : Context) : (s.setCtx c v).s2waits = s.s2waits := rfl
@[simp] theorem State.setCtx_ringWaits (s : State) (c : Nat) (v : Context) : (s.setCtx c v).ringWaits = s.ringWaits := rfl
@[simp] theorem State.setCtx_dir (s : State) (c : Nat) (v : Context) : (s.setCtx c v).dir = s.dir := rfl
@[simp] theorem State.setCtx_sharers (s : State) (c : Nat) (v : Context) : (s.setCtx c v).sharers = s.sharers := rfl
@[simp] theorem State.setCtx_upgrades (s : State) (c : Nat) (v : Context) : (s.setCtx c v).upgrades = s.upgrades := rfl
@[simp] theorem State.setCtx_heldFills (s : State) (c : Nat) (v : Context) : (s.setCtx c v).heldFills = s.heldFills := rfl
@[simp] theorem State.setCtx_exportWaits (s : State) (c : Nat) (v : Context) : (s.setCtx c v).exportWaits = s.exportWaits := rfl
@[simp] theorem State.setCtx_slotWaits (s : State) (c : Nat) (v : Context) : (s.setCtx c v).slotWaits = s.slotWaits := rfl
@[simp] theorem State.setCtx_pin (s : State) (c : Nat) (v : Context) : (s.setCtx c v).pin = s.pin := rfl
@[simp] theorem State.setCtx_homeWrites (s : State) (c : Nat) (v : Context) : (s.setCtx c v).homeWrites = s.homeWrites := rfl
@[simp] theorem State.setCtx_eccWaits (s : State) (c : Nat) (v : Context) : (s.setCtx c v).eccWaits = s.eccWaits := rfl
@[simp] theorem State.setCtx_regions (s : State) (c : Nat) (v : Context) : (s.setCtx c v).regions = s.regions := rfl
@[simp] theorem State.setCtx_banks (s : State) (c : Nat) (v : Context) : (s.setCtx c v).banks = s.banks := rfl
@[simp] theorem State.setCtx_heath (s : State) (c : Nat) (v : Context) : (s.setCtx c v).heath = s.heath := rfl
@[simp] theorem State.setCtx_outbox (s : State) (c : Nat) (v : Context) : (s.setCtx c v).outbox = s.outbox := rfl

/-! ### `State.updCtx` -/

@[simp] theorem State.updCtx_chosen (s : State) (c : Nat) (g : Context → Context) : (s.updCtx c g).chosen = s.chosen := rfl
@[simp] theorem State.updCtx_agenda (s : State) (c : Nat) (g : Context → Context) : (s.updCtx c g).agenda = s.agenda := rfl
@[simp] theorem State.updCtx_freeCtr (s : State) (c : Nat) (g : Context → Context) : (s.updCtx c g).freeCtr = s.freeCtr := rfl
@[simp] theorem State.updCtx_time (s : State) (c : Nat) (g : Context → Context) : (s.updCtx c g).time = s.time := rfl
@[simp] theorem State.updCtx_fields (s : State) (c : Nat) (g : Context → Context) : (s.updCtx c g).fields = s.fields := rfl
@[simp] theorem State.updCtx_launches (s : State) (c : Nat) (g : Context → Context) : (s.updCtx c g).launches = s.launches := rfl
@[simp] theorem State.updCtx_nextFid (s : State) (c : Nat) (g : Context → Context) : (s.updCtx c g).nextFid = s.nextFid := rfl
@[simp] theorem State.updCtx_nextReady (s : State) (c : Nat) (g : Context → Context) : (s.updCtx c g).nextReady = s.nextReady := rfl
@[simp] theorem State.updCtx_nextUid (s : State) (c : Nat) (g : Context → Context) : (s.updCtx c g).nextUid = s.nextUid := rfl
@[simp] theorem State.updCtx_accNo (s : State) (c : Nat) (g : Context → Context) : (s.updCtx c g).accNo = s.accNo := rfl
@[simp] theorem State.updCtx_ctxs (s : State) (c : Nat) (g : Context → Context) : (s.updCtx c g).ctxs = mupd s.ctxs c g := rfl
@[simp] theorem State.updCtx_claims (s : State) (c : Nat) (g : Context → Context) : (s.updCtx c g).claims = s.claims := rfl
@[simp] theorem State.updCtx_queues (s : State) (c : Nat) (g : Context → Context) : (s.updCtx c g).queues = s.queues := rfl
@[simp] theorem State.updCtx_mem (s : State) (c : Nat) (g : Context → Context) : (s.updCtx c g).mem = s.mem := rfl
@[simp] theorem State.updCtx_pool (s : State) (c : Nat) (g : Context → Context) : (s.updCtx c g).pool = s.pool := rfl
@[simp] theorem State.updCtx_keys (s : State) (c : Nat) (g : Context → Context) : (s.updCtx c g).keys = s.keys := rfl
@[simp] theorem State.updCtx_keyMap (s : State) (c : Nat) (g : Context → Context) : (s.updCtx c g).keyMap = s.keyMap := rfl
@[simp] theorem State.updCtx_l1 (s : State) (c : Nat) (g : Context → Context) : (s.updCtx c g).l1 = s.l1 := rfl
@[simp] theorem State.updCtx_l2 (s : State) (c : Nat) (g : Context → Context) : (s.updCtx c g).l2 = s.l2 := rfl
@[simp] theorem State.updCtx_tlb (s : State) (c : Nat) (g : Context → Context) : (s.updCtx c g).tlb = s.tlb := rfl
@[simp] theorem State.updCtx_walkCache (s : State) (c : Nat) (g : Context → Context) : (s.updCtx c g).walkCache = s.walkCache := rfl
@[simp] theorem State.updCtx_nodeTlb (s : State) (c : Nat) (g : Context → Context) : (s.updCtx c g).nodeTlb = s.nodeTlb := rfl
@[simp] theorem State.updCtx_deferred (s : State) (c : Nat) (g : Context → Context) : (s.updCtx c g).deferred = s.deferred := rfl
@[simp] theorem State.updCtx_poisoned (s : State) (c : Nat) (g : Context → Context) : (s.updCtx c g).poisoned = s.poisoned := rfl
@[simp] theorem State.updCtx_frames (s : State) (c : Nat) (g : Context → Context) : (s.updCtx c g).frames = s.frames := rfl
@[simp] theorem State.updCtx_setsFixed (s : State) (c : Nat) (g : Context → Context) : (s.updCtx c g).setsFixed = s.setsFixed := rfl
@[simp] theorem State.updCtx_fills (s : State) (c : Nat) (g : Context → Context) : (s.updCtx c g).fills = s.fills := rfl
@[simp] theorem State.updCtx_zeroUnits (s : State) (c : Nat) (g : Context → Context) : (s.updCtx c g).zeroUnits = s.zeroUnits := rfl
@[simp] theorem State.updCtx_roUnits (s : State) (c : Nat) (g : Context → Context) : (s.updCtx c g).roUnits = s.roUnits := rfl
@[simp] theorem State.updCtx_leases (s : State) (c : Nat) (g : Context → Context) : (s.updCtx c g).leases = s.leases := rfl
@[simp] theorem State.updCtx_nodes (s : State) (c : Nat) (g : Context → Context) : (s.updCtx c g).nodes = s.nodes := rfl
@[simp] theorem State.updCtx_moves (s : State) (c : Nat) (g : Context → Context) : (s.updCtx c g).moves = s.moves := rfl
@[simp] theorem State.updCtx_redirects (s : State) (c : Nat) (g : Context → Context) : (s.updCtx c g).redirects = s.redirects := rfl
@[simp] theorem State.updCtx_pagers (s : State) (c : Nat) (g : Context → Context) : (s.updCtx c g).pagers = s.pagers := rfl
@[simp] theorem State.updCtx_ckpt (s : State) (c : Nat) (g : Context → Context) : (s.updCtx c g).ckpt = s.ckpt := rfl
@[simp] theorem State.updCtx_ckptStat (s : State) (c : Nat) (g : Context → Context) : (s.updCtx c g).ckptStat = s.ckptStat := rfl
@[simp] theorem State.updCtx_s2waits (s : State) (c : Nat) (g : Context → Context) : (s.updCtx c g).s2waits = s.s2waits := rfl
@[simp] theorem State.updCtx_ringWaits (s : State) (c : Nat) (g : Context → Context) : (s.updCtx c g).ringWaits = s.ringWaits := rfl
@[simp] theorem State.updCtx_dir (s : State) (c : Nat) (g : Context → Context) : (s.updCtx c g).dir = s.dir := rfl
@[simp] theorem State.updCtx_sharers (s : State) (c : Nat) (g : Context → Context) : (s.updCtx c g).sharers = s.sharers := rfl
@[simp] theorem State.updCtx_upgrades (s : State) (c : Nat) (g : Context → Context) : (s.updCtx c g).upgrades = s.upgrades := rfl
@[simp] theorem State.updCtx_heldFills (s : State) (c : Nat) (g : Context → Context) : (s.updCtx c g).heldFills = s.heldFills := rfl
@[simp] theorem State.updCtx_exportWaits (s : State) (c : Nat) (g : Context → Context) : (s.updCtx c g).exportWaits = s.exportWaits := rfl
@[simp] theorem State.updCtx_slotWaits (s : State) (c : Nat) (g : Context → Context) : (s.updCtx c g).slotWaits = s.slotWaits := rfl
@[simp] theorem State.updCtx_pin (s : State) (c : Nat) (g : Context → Context) : (s.updCtx c g).pin = s.pin := rfl
@[simp] theorem State.updCtx_homeWrites (s : State) (c : Nat) (g : Context → Context) : (s.updCtx c g).homeWrites = s.homeWrites := rfl
@[simp] theorem State.updCtx_eccWaits (s : State) (c : Nat) (g : Context → Context) : (s.updCtx c g).eccWaits = s.eccWaits := rfl
@[simp] theorem State.updCtx_regions (s : State) (c : Nat) (g : Context → Context) : (s.updCtx c g).regions = s.regions := rfl
@[simp] theorem State.updCtx_banks (s : State) (c : Nat) (g : Context → Context) : (s.updCtx c g).banks = s.banks := rfl
@[simp] theorem State.updCtx_heath (s : State) (c : Nat) (g : Context → Context) : (s.updCtx c g).heath = s.heath := rfl
@[simp] theorem State.updCtx_outbox (s : State) (c : Nat) (g : Context → Context) : (s.updCtx c g).outbox = s.outbox := rfl

/-! ### `State.setFrame` -/

@[simp] theorem State.setFrame_chosen (s : State) (f : Nat) (v : Frame) : (s.setFrame f v).chosen = s.chosen := rfl
@[simp] theorem State.setFrame_agenda (s : State) (f : Nat) (v : Frame) : (s.setFrame f v).agenda = s.agenda := rfl
@[simp] theorem State.setFrame_freeCtr (s : State) (f : Nat) (v : Frame) : (s.setFrame f v).freeCtr = s.freeCtr := rfl
@[simp] theorem State.setFrame_time (s : State) (f : Nat) (v : Frame) : (s.setFrame f v).time = s.time := rfl
@[simp] theorem State.setFrame_fields (s : State) (f : Nat) (v : Frame) : (s.setFrame f v).fields = s.fields := rfl
@[simp] theorem State.setFrame_launches (s : State) (f : Nat) (v : Frame) : (s.setFrame f v).launches = s.launches := rfl
@[simp] theorem State.setFrame_nextFid (s : State) (f : Nat) (v : Frame) : (s.setFrame f v).nextFid = s.nextFid := rfl
@[simp] theorem State.setFrame_nextReady (s : State) (f : Nat) (v : Frame) : (s.setFrame f v).nextReady = s.nextReady := rfl
@[simp] theorem State.setFrame_nextUid (s : State) (f : Nat) (v : Frame) : (s.setFrame f v).nextUid = s.nextUid := rfl
@[simp] theorem State.setFrame_accNo (s : State) (f : Nat) (v : Frame) : (s.setFrame f v).accNo = s.accNo := rfl
@[simp] theorem State.setFrame_ctxs (s : State) (f : Nat) (v : Frame) : (s.setFrame f v).ctxs = s.ctxs := rfl
@[simp] theorem State.setFrame_claims (s : State) (f : Nat) (v : Frame) : (s.setFrame f v).claims = s.claims := rfl
@[simp] theorem State.setFrame_queues (s : State) (f : Nat) (v : Frame) : (s.setFrame f v).queues = s.queues := rfl
@[simp] theorem State.setFrame_mem (s : State) (f : Nat) (v : Frame) : (s.setFrame f v).mem = s.mem := rfl
@[simp] theorem State.setFrame_pool (s : State) (f : Nat) (v : Frame) : (s.setFrame f v).pool = s.pool := rfl
@[simp] theorem State.setFrame_keys (s : State) (f : Nat) (v : Frame) : (s.setFrame f v).keys = s.keys := rfl
@[simp] theorem State.setFrame_keyMap (s : State) (f : Nat) (v : Frame) : (s.setFrame f v).keyMap = s.keyMap := rfl
@[simp] theorem State.setFrame_l1 (s : State) (f : Nat) (v : Frame) : (s.setFrame f v).l1 = s.l1 := rfl
@[simp] theorem State.setFrame_l2 (s : State) (f : Nat) (v : Frame) : (s.setFrame f v).l2 = s.l2 := rfl
@[simp] theorem State.setFrame_tlb (s : State) (f : Nat) (v : Frame) : (s.setFrame f v).tlb = s.tlb := rfl
@[simp] theorem State.setFrame_walkCache (s : State) (f : Nat) (v : Frame) : (s.setFrame f v).walkCache = s.walkCache := rfl
@[simp] theorem State.setFrame_nodeTlb (s : State) (f : Nat) (v : Frame) : (s.setFrame f v).nodeTlb = s.nodeTlb := rfl
@[simp] theorem State.setFrame_deferred (s : State) (f : Nat) (v : Frame) : (s.setFrame f v).deferred = s.deferred := rfl
@[simp] theorem State.setFrame_poisoned (s : State) (f : Nat) (v : Frame) : (s.setFrame f v).poisoned = s.poisoned := rfl
@[simp] theorem State.setFrame_frames (s : State) (f : Nat) (v : Frame) : (s.setFrame f v).frames = mput s.frames f v := rfl
@[simp] theorem State.setFrame_setsFixed (s : State) (f : Nat) (v : Frame) : (s.setFrame f v).setsFixed = s.setsFixed := rfl
@[simp] theorem State.setFrame_fills (s : State) (f : Nat) (v : Frame) : (s.setFrame f v).fills = s.fills := rfl
@[simp] theorem State.setFrame_zeroUnits (s : State) (f : Nat) (v : Frame) : (s.setFrame f v).zeroUnits = s.zeroUnits := rfl
@[simp] theorem State.setFrame_roUnits (s : State) (f : Nat) (v : Frame) : (s.setFrame f v).roUnits = s.roUnits := rfl
@[simp] theorem State.setFrame_leases (s : State) (f : Nat) (v : Frame) : (s.setFrame f v).leases = s.leases := rfl
@[simp] theorem State.setFrame_nodes (s : State) (f : Nat) (v : Frame) : (s.setFrame f v).nodes = s.nodes := rfl
@[simp] theorem State.setFrame_moves (s : State) (f : Nat) (v : Frame) : (s.setFrame f v).moves = s.moves := rfl
@[simp] theorem State.setFrame_redirects (s : State) (f : Nat) (v : Frame) : (s.setFrame f v).redirects = s.redirects := rfl
@[simp] theorem State.setFrame_pagers (s : State) (f : Nat) (v : Frame) : (s.setFrame f v).pagers = s.pagers := rfl
@[simp] theorem State.setFrame_ckpt (s : State) (f : Nat) (v : Frame) : (s.setFrame f v).ckpt = s.ckpt := rfl
@[simp] theorem State.setFrame_ckptStat (s : State) (f : Nat) (v : Frame) : (s.setFrame f v).ckptStat = s.ckptStat := rfl
@[simp] theorem State.setFrame_s2waits (s : State) (f : Nat) (v : Frame) : (s.setFrame f v).s2waits = s.s2waits := rfl
@[simp] theorem State.setFrame_ringWaits (s : State) (f : Nat) (v : Frame) : (s.setFrame f v).ringWaits = s.ringWaits := rfl
@[simp] theorem State.setFrame_dir (s : State) (f : Nat) (v : Frame) : (s.setFrame f v).dir = s.dir := rfl
@[simp] theorem State.setFrame_sharers (s : State) (f : Nat) (v : Frame) : (s.setFrame f v).sharers = s.sharers := rfl
@[simp] theorem State.setFrame_upgrades (s : State) (f : Nat) (v : Frame) : (s.setFrame f v).upgrades = s.upgrades := rfl
@[simp] theorem State.setFrame_heldFills (s : State) (f : Nat) (v : Frame) : (s.setFrame f v).heldFills = s.heldFills := rfl
@[simp] theorem State.setFrame_exportWaits (s : State) (f : Nat) (v : Frame) : (s.setFrame f v).exportWaits = s.exportWaits := rfl
@[simp] theorem State.setFrame_slotWaits (s : State) (f : Nat) (v : Frame) : (s.setFrame f v).slotWaits = s.slotWaits := rfl
@[simp] theorem State.setFrame_pin (s : State) (f : Nat) (v : Frame) : (s.setFrame f v).pin = s.pin := rfl
@[simp] theorem State.setFrame_homeWrites (s : State) (f : Nat) (v : Frame) : (s.setFrame f v).homeWrites = s.homeWrites := rfl
@[simp] theorem State.setFrame_eccWaits (s : State) (f : Nat) (v : Frame) : (s.setFrame f v).eccWaits = s.eccWaits := rfl
@[simp] theorem State.setFrame_regions (s : State) (f : Nat) (v : Frame) : (s.setFrame f v).regions = s.regions := rfl
@[simp] theorem State.setFrame_banks (s : State) (f : Nat) (v : Frame) : (s.setFrame f v).banks = s.banks := rfl
@[simp] theorem State.setFrame_heath (s : State) (f : Nat) (v : Frame) : (s.setFrame f v).heath = s.heath := rfl
@[simp] theorem State.setFrame_outbox (s : State) (f : Nat) (v : Frame) : (s.setFrame f v).outbox = s.outbox := rfl

/-! ### `State.setLease` -/

@[simp] theorem State.setLease_chosen (s : State) (n : Nat) (v : Lease) : (s.setLease n v).chosen = s.chosen := rfl
@[simp] theorem State.setLease_agenda (s : State) (n : Nat) (v : Lease) : (s.setLease n v).agenda = s.agenda := rfl
@[simp] theorem State.setLease_freeCtr (s : State) (n : Nat) (v : Lease) : (s.setLease n v).freeCtr = s.freeCtr := rfl
@[simp] theorem State.setLease_time (s : State) (n : Nat) (v : Lease) : (s.setLease n v).time = s.time := rfl
@[simp] theorem State.setLease_fields (s : State) (n : Nat) (v : Lease) : (s.setLease n v).fields = s.fields := rfl
@[simp] theorem State.setLease_launches (s : State) (n : Nat) (v : Lease) : (s.setLease n v).launches = s.launches := rfl
@[simp] theorem State.setLease_nextFid (s : State) (n : Nat) (v : Lease) : (s.setLease n v).nextFid = s.nextFid := rfl
@[simp] theorem State.setLease_nextReady (s : State) (n : Nat) (v : Lease) : (s.setLease n v).nextReady = s.nextReady := rfl
@[simp] theorem State.setLease_nextUid (s : State) (n : Nat) (v : Lease) : (s.setLease n v).nextUid = s.nextUid := rfl
@[simp] theorem State.setLease_accNo (s : State) (n : Nat) (v : Lease) : (s.setLease n v).accNo = s.accNo := rfl
@[simp] theorem State.setLease_ctxs (s : State) (n : Nat) (v : Lease) : (s.setLease n v).ctxs = s.ctxs := rfl
@[simp] theorem State.setLease_claims (s : State) (n : Nat) (v : Lease) : (s.setLease n v).claims = s.claims := rfl
@[simp] theorem State.setLease_queues (s : State) (n : Nat) (v : Lease) : (s.setLease n v).queues = s.queues := rfl
@[simp] theorem State.setLease_mem (s : State) (n : Nat) (v : Lease) : (s.setLease n v).mem = s.mem := rfl
@[simp] theorem State.setLease_pool (s : State) (n : Nat) (v : Lease) : (s.setLease n v).pool = s.pool := rfl
@[simp] theorem State.setLease_keys (s : State) (n : Nat) (v : Lease) : (s.setLease n v).keys = s.keys := rfl
@[simp] theorem State.setLease_keyMap (s : State) (n : Nat) (v : Lease) : (s.setLease n v).keyMap = s.keyMap := rfl
@[simp] theorem State.setLease_l1 (s : State) (n : Nat) (v : Lease) : (s.setLease n v).l1 = s.l1 := rfl
@[simp] theorem State.setLease_l2 (s : State) (n : Nat) (v : Lease) : (s.setLease n v).l2 = s.l2 := rfl
@[simp] theorem State.setLease_tlb (s : State) (n : Nat) (v : Lease) : (s.setLease n v).tlb = s.tlb := rfl
@[simp] theorem State.setLease_walkCache (s : State) (n : Nat) (v : Lease) : (s.setLease n v).walkCache = s.walkCache := rfl
@[simp] theorem State.setLease_nodeTlb (s : State) (n : Nat) (v : Lease) : (s.setLease n v).nodeTlb = s.nodeTlb := rfl
@[simp] theorem State.setLease_deferred (s : State) (n : Nat) (v : Lease) : (s.setLease n v).deferred = s.deferred := rfl
@[simp] theorem State.setLease_poisoned (s : State) (n : Nat) (v : Lease) : (s.setLease n v).poisoned = s.poisoned := rfl
@[simp] theorem State.setLease_frames (s : State) (n : Nat) (v : Lease) : (s.setLease n v).frames = s.frames := rfl
@[simp] theorem State.setLease_setsFixed (s : State) (n : Nat) (v : Lease) : (s.setLease n v).setsFixed = s.setsFixed := rfl
@[simp] theorem State.setLease_fills (s : State) (n : Nat) (v : Lease) : (s.setLease n v).fills = s.fills := rfl
@[simp] theorem State.setLease_zeroUnits (s : State) (n : Nat) (v : Lease) : (s.setLease n v).zeroUnits = s.zeroUnits := rfl
@[simp] theorem State.setLease_roUnits (s : State) (n : Nat) (v : Lease) : (s.setLease n v).roUnits = s.roUnits := rfl
@[simp] theorem State.setLease_leases (s : State) (n : Nat) (v : Lease) : (s.setLease n v).leases = mput s.leases n v := rfl
@[simp] theorem State.setLease_nodes (s : State) (n : Nat) (v : Lease) : (s.setLease n v).nodes = s.nodes := rfl
@[simp] theorem State.setLease_moves (s : State) (n : Nat) (v : Lease) : (s.setLease n v).moves = s.moves := rfl
@[simp] theorem State.setLease_redirects (s : State) (n : Nat) (v : Lease) : (s.setLease n v).redirects = s.redirects := rfl
@[simp] theorem State.setLease_pagers (s : State) (n : Nat) (v : Lease) : (s.setLease n v).pagers = s.pagers := rfl
@[simp] theorem State.setLease_ckpt (s : State) (n : Nat) (v : Lease) : (s.setLease n v).ckpt = s.ckpt := rfl
@[simp] theorem State.setLease_ckptStat (s : State) (n : Nat) (v : Lease) : (s.setLease n v).ckptStat = s.ckptStat := rfl
@[simp] theorem State.setLease_s2waits (s : State) (n : Nat) (v : Lease) : (s.setLease n v).s2waits = s.s2waits := rfl
@[simp] theorem State.setLease_ringWaits (s : State) (n : Nat) (v : Lease) : (s.setLease n v).ringWaits = s.ringWaits := rfl
@[simp] theorem State.setLease_dir (s : State) (n : Nat) (v : Lease) : (s.setLease n v).dir = s.dir := rfl
@[simp] theorem State.setLease_sharers (s : State) (n : Nat) (v : Lease) : (s.setLease n v).sharers = s.sharers := rfl
@[simp] theorem State.setLease_upgrades (s : State) (n : Nat) (v : Lease) : (s.setLease n v).upgrades = s.upgrades := rfl
@[simp] theorem State.setLease_heldFills (s : State) (n : Nat) (v : Lease) : (s.setLease n v).heldFills = s.heldFills := rfl
@[simp] theorem State.setLease_exportWaits (s : State) (n : Nat) (v : Lease) : (s.setLease n v).exportWaits = s.exportWaits := rfl
@[simp] theorem State.setLease_slotWaits (s : State) (n : Nat) (v : Lease) : (s.setLease n v).slotWaits = s.slotWaits := rfl
@[simp] theorem State.setLease_pin (s : State) (n : Nat) (v : Lease) : (s.setLease n v).pin = s.pin := rfl
@[simp] theorem State.setLease_homeWrites (s : State) (n : Nat) (v : Lease) : (s.setLease n v).homeWrites = s.homeWrites := rfl
@[simp] theorem State.setLease_eccWaits (s : State) (n : Nat) (v : Lease) : (s.setLease n v).eccWaits = s.eccWaits := rfl
@[simp] theorem State.setLease_regions (s : State) (n : Nat) (v : Lease) : (s.setLease n v).regions = s.regions := rfl
@[simp] theorem State.setLease_banks (s : State) (n : Nat) (v : Lease) : (s.setLease n v).banks = s.banks := rfl
@[simp] theorem State.setLease_heath (s : State) (n : Nat) (v : Lease) : (s.setLease n v).heath = s.heath := rfl
@[simp] theorem State.setLease_outbox (s : State) (n : Nat) (v : Lease) : (s.setLease n v).outbox = s.outbox := rfl

/-! ### `State.setNode` -/

@[simp] theorem State.setNode_chosen (s : State) (n : Nat) (v : Node) : (s.setNode n v).chosen = s.chosen := rfl
@[simp] theorem State.setNode_agenda (s : State) (n : Nat) (v : Node) : (s.setNode n v).agenda = s.agenda := rfl
@[simp] theorem State.setNode_freeCtr (s : State) (n : Nat) (v : Node) : (s.setNode n v).freeCtr = s.freeCtr := rfl
@[simp] theorem State.setNode_time (s : State) (n : Nat) (v : Node) : (s.setNode n v).time = s.time := rfl
@[simp] theorem State.setNode_fields (s : State) (n : Nat) (v : Node) : (s.setNode n v).fields = s.fields := rfl
@[simp] theorem State.setNode_launches (s : State) (n : Nat) (v : Node) : (s.setNode n v).launches = s.launches := rfl
@[simp] theorem State.setNode_nextFid (s : State) (n : Nat) (v : Node) : (s.setNode n v).nextFid = s.nextFid := rfl
@[simp] theorem State.setNode_nextReady (s : State) (n : Nat) (v : Node) : (s.setNode n v).nextReady = s.nextReady := rfl
@[simp] theorem State.setNode_nextUid (s : State) (n : Nat) (v : Node) : (s.setNode n v).nextUid = s.nextUid := rfl
@[simp] theorem State.setNode_accNo (s : State) (n : Nat) (v : Node) : (s.setNode n v).accNo = s.accNo := rfl
@[simp] theorem State.setNode_ctxs (s : State) (n : Nat) (v : Node) : (s.setNode n v).ctxs = s.ctxs := rfl
@[simp] theorem State.setNode_claims (s : State) (n : Nat) (v : Node) : (s.setNode n v).claims = s.claims := rfl
@[simp] theorem State.setNode_queues (s : State) (n : Nat) (v : Node) : (s.setNode n v).queues = s.queues := rfl
@[simp] theorem State.setNode_mem (s : State) (n : Nat) (v : Node) : (s.setNode n v).mem = s.mem := rfl
@[simp] theorem State.setNode_pool (s : State) (n : Nat) (v : Node) : (s.setNode n v).pool = s.pool := rfl
@[simp] theorem State.setNode_keys (s : State) (n : Nat) (v : Node) : (s.setNode n v).keys = s.keys := rfl
@[simp] theorem State.setNode_keyMap (s : State) (n : Nat) (v : Node) : (s.setNode n v).keyMap = s.keyMap := rfl
@[simp] theorem State.setNode_l1 (s : State) (n : Nat) (v : Node) : (s.setNode n v).l1 = s.l1 := rfl
@[simp] theorem State.setNode_l2 (s : State) (n : Nat) (v : Node) : (s.setNode n v).l2 = s.l2 := rfl
@[simp] theorem State.setNode_tlb (s : State) (n : Nat) (v : Node) : (s.setNode n v).tlb = s.tlb := rfl
@[simp] theorem State.setNode_walkCache (s : State) (n : Nat) (v : Node) : (s.setNode n v).walkCache = s.walkCache := rfl
@[simp] theorem State.setNode_nodeTlb (s : State) (n : Nat) (v : Node) : (s.setNode n v).nodeTlb = s.nodeTlb := rfl
@[simp] theorem State.setNode_deferred (s : State) (n : Nat) (v : Node) : (s.setNode n v).deferred = s.deferred := rfl
@[simp] theorem State.setNode_poisoned (s : State) (n : Nat) (v : Node) : (s.setNode n v).poisoned = s.poisoned := rfl
@[simp] theorem State.setNode_frames (s : State) (n : Nat) (v : Node) : (s.setNode n v).frames = s.frames := rfl
@[simp] theorem State.setNode_setsFixed (s : State) (n : Nat) (v : Node) : (s.setNode n v).setsFixed = s.setsFixed := rfl
@[simp] theorem State.setNode_fills (s : State) (n : Nat) (v : Node) : (s.setNode n v).fills = s.fills := rfl
@[simp] theorem State.setNode_zeroUnits (s : State) (n : Nat) (v : Node) : (s.setNode n v).zeroUnits = s.zeroUnits := rfl
@[simp] theorem State.setNode_roUnits (s : State) (n : Nat) (v : Node) : (s.setNode n v).roUnits = s.roUnits := rfl
@[simp] theorem State.setNode_leases (s : State) (n : Nat) (v : Node) : (s.setNode n v).leases = s.leases := rfl
@[simp] theorem State.setNode_nodes (s : State) (n : Nat) (v : Node) : (s.setNode n v).nodes = mput s.nodes n v := rfl
@[simp] theorem State.setNode_moves (s : State) (n : Nat) (v : Node) : (s.setNode n v).moves = s.moves := rfl
@[simp] theorem State.setNode_redirects (s : State) (n : Nat) (v : Node) : (s.setNode n v).redirects = s.redirects := rfl
@[simp] theorem State.setNode_pagers (s : State) (n : Nat) (v : Node) : (s.setNode n v).pagers = s.pagers := rfl
@[simp] theorem State.setNode_ckpt (s : State) (n : Nat) (v : Node) : (s.setNode n v).ckpt = s.ckpt := rfl
@[simp] theorem State.setNode_ckptStat (s : State) (n : Nat) (v : Node) : (s.setNode n v).ckptStat = s.ckptStat := rfl
@[simp] theorem State.setNode_s2waits (s : State) (n : Nat) (v : Node) : (s.setNode n v).s2waits = s.s2waits := rfl
@[simp] theorem State.setNode_ringWaits (s : State) (n : Nat) (v : Node) : (s.setNode n v).ringWaits = s.ringWaits := rfl
@[simp] theorem State.setNode_dir (s : State) (n : Nat) (v : Node) : (s.setNode n v).dir = s.dir := rfl
@[simp] theorem State.setNode_sharers (s : State) (n : Nat) (v : Node) : (s.setNode n v).sharers = s.sharers := rfl
@[simp] theorem State.setNode_upgrades (s : State) (n : Nat) (v : Node) : (s.setNode n v).upgrades = s.upgrades := rfl
@[simp] theorem State.setNode_heldFills (s : State) (n : Nat) (v : Node) : (s.setNode n v).heldFills = s.heldFills := rfl
@[simp] theorem State.setNode_exportWaits (s : State) (n : Nat) (v : Node) : (s.setNode n v).exportWaits = s.exportWaits := rfl
@[simp] theorem State.setNode_slotWaits (s : State) (n : Nat) (v : Node) : (s.setNode n v).slotWaits = s.slotWaits := rfl
@[simp] theorem State.setNode_pin (s : State) (n : Nat) (v : Node) : (s.setNode n v).pin = s.pin := rfl
@[simp] theorem State.setNode_homeWrites (s : State) (n : Nat) (v : Node) : (s.setNode n v).homeWrites = s.homeWrites := rfl
@[simp] theorem State.setNode_eccWaits (s : State) (n : Nat) (v : Node) : (s.setNode n v).eccWaits = s.eccWaits := rfl
@[simp] theorem State.setNode_regions (s : State) (n : Nat) (v : Node) : (s.setNode n v).regions = s.regions := rfl
@[simp] theorem State.setNode_banks (s : State) (n : Nat) (v : Node) : (s.setNode n v).banks = s.banks := rfl
@[simp] theorem State.setNode_heath (s : State) (n : Nat) (v : Node) : (s.setNode n v).heath = s.heath := rfl
@[simp] theorem State.setNode_outbox (s : State) (n : Nat) (v : Node) : (s.setNode n v).outbox = s.outbox := rfl

/-! ### `State.setRegion` -/

@[simp] theorem State.setRegion_chosen (s : State) (n : Nat) (v : Region) : (s.setRegion n v).chosen = s.chosen := rfl
@[simp] theorem State.setRegion_agenda (s : State) (n : Nat) (v : Region) : (s.setRegion n v).agenda = s.agenda := rfl
@[simp] theorem State.setRegion_freeCtr (s : State) (n : Nat) (v : Region) : (s.setRegion n v).freeCtr = s.freeCtr := rfl
@[simp] theorem State.setRegion_time (s : State) (n : Nat) (v : Region) : (s.setRegion n v).time = s.time := rfl
@[simp] theorem State.setRegion_fields (s : State) (n : Nat) (v : Region) : (s.setRegion n v).fields = s.fields := rfl
@[simp] theorem State.setRegion_launches (s : State) (n : Nat) (v : Region) : (s.setRegion n v).launches = s.launches := rfl
@[simp] theorem State.setRegion_nextFid (s : State) (n : Nat) (v : Region) : (s.setRegion n v).nextFid = s.nextFid := rfl
@[simp] theorem State.setRegion_nextReady (s : State) (n : Nat) (v : Region) : (s.setRegion n v).nextReady = s.nextReady := rfl
@[simp] theorem State.setRegion_nextUid (s : State) (n : Nat) (v : Region) : (s.setRegion n v).nextUid = s.nextUid := rfl
@[simp] theorem State.setRegion_accNo (s : State) (n : Nat) (v : Region) : (s.setRegion n v).accNo = s.accNo := rfl
@[simp] theorem State.setRegion_ctxs (s : State) (n : Nat) (v : Region) : (s.setRegion n v).ctxs = s.ctxs := rfl
@[simp] theorem State.setRegion_claims (s : State) (n : Nat) (v : Region) : (s.setRegion n v).claims = s.claims := rfl
@[simp] theorem State.setRegion_queues (s : State) (n : Nat) (v : Region) : (s.setRegion n v).queues = s.queues := rfl
@[simp] theorem State.setRegion_mem (s : State) (n : Nat) (v : Region) : (s.setRegion n v).mem = s.mem := rfl
@[simp] theorem State.setRegion_pool (s : State) (n : Nat) (v : Region) : (s.setRegion n v).pool = s.pool := rfl
@[simp] theorem State.setRegion_keys (s : State) (n : Nat) (v : Region) : (s.setRegion n v).keys = s.keys := rfl
@[simp] theorem State.setRegion_keyMap (s : State) (n : Nat) (v : Region) : (s.setRegion n v).keyMap = s.keyMap := rfl
@[simp] theorem State.setRegion_l1 (s : State) (n : Nat) (v : Region) : (s.setRegion n v).l1 = s.l1 := rfl
@[simp] theorem State.setRegion_l2 (s : State) (n : Nat) (v : Region) : (s.setRegion n v).l2 = s.l2 := rfl
@[simp] theorem State.setRegion_tlb (s : State) (n : Nat) (v : Region) : (s.setRegion n v).tlb = s.tlb := rfl
@[simp] theorem State.setRegion_walkCache (s : State) (n : Nat) (v : Region) : (s.setRegion n v).walkCache = s.walkCache := rfl
@[simp] theorem State.setRegion_nodeTlb (s : State) (n : Nat) (v : Region) : (s.setRegion n v).nodeTlb = s.nodeTlb := rfl
@[simp] theorem State.setRegion_deferred (s : State) (n : Nat) (v : Region) : (s.setRegion n v).deferred = s.deferred := rfl
@[simp] theorem State.setRegion_poisoned (s : State) (n : Nat) (v : Region) : (s.setRegion n v).poisoned = s.poisoned := rfl
@[simp] theorem State.setRegion_frames (s : State) (n : Nat) (v : Region) : (s.setRegion n v).frames = s.frames := rfl
@[simp] theorem State.setRegion_setsFixed (s : State) (n : Nat) (v : Region) : (s.setRegion n v).setsFixed = s.setsFixed := rfl
@[simp] theorem State.setRegion_fills (s : State) (n : Nat) (v : Region) : (s.setRegion n v).fills = s.fills := rfl
@[simp] theorem State.setRegion_zeroUnits (s : State) (n : Nat) (v : Region) : (s.setRegion n v).zeroUnits = s.zeroUnits := rfl
@[simp] theorem State.setRegion_roUnits (s : State) (n : Nat) (v : Region) : (s.setRegion n v).roUnits = s.roUnits := rfl
@[simp] theorem State.setRegion_leases (s : State) (n : Nat) (v : Region) : (s.setRegion n v).leases = s.leases := rfl
@[simp] theorem State.setRegion_nodes (s : State) (n : Nat) (v : Region) : (s.setRegion n v).nodes = s.nodes := rfl
@[simp] theorem State.setRegion_moves (s : State) (n : Nat) (v : Region) : (s.setRegion n v).moves = s.moves := rfl
@[simp] theorem State.setRegion_redirects (s : State) (n : Nat) (v : Region) : (s.setRegion n v).redirects = s.redirects := rfl
@[simp] theorem State.setRegion_pagers (s : State) (n : Nat) (v : Region) : (s.setRegion n v).pagers = s.pagers := rfl
@[simp] theorem State.setRegion_ckpt (s : State) (n : Nat) (v : Region) : (s.setRegion n v).ckpt = s.ckpt := rfl
@[simp] theorem State.setRegion_ckptStat (s : State) (n : Nat) (v : Region) : (s.setRegion n v).ckptStat = s.ckptStat := rfl
@[simp] theorem State.setRegion_s2waits (s : State) (n : Nat) (v : Region) : (s.setRegion n v).s2waits = s.s2waits := rfl
@[simp] theorem State.setRegion_ringWaits (s : State) (n : Nat) (v : Region) : (s.setRegion n v).ringWaits = s.ringWaits := rfl
@[simp] theorem State.setRegion_dir (s : State) (n : Nat) (v : Region) : (s.setRegion n v).dir = s.dir := rfl
@[simp] theorem State.setRegion_sharers (s : State) (n : Nat) (v : Region) : (s.setRegion n v).sharers = s.sharers := rfl
@[simp] theorem State.setRegion_upgrades (s : State) (n : Nat) (v : Region) : (s.setRegion n v).upgrades = s.upgrades := rfl
@[simp] theorem State.setRegion_heldFills (s : State) (n : Nat) (v : Region) : (s.setRegion n v).heldFills = s.heldFills := rfl
@[simp] theorem State.setRegion_exportWaits (s : State) (n : Nat) (v : Region) : (s.setRegion n v).exportWaits = s.exportWaits := rfl
@[simp] theorem State.setRegion_slotWaits (s : State) (n : Nat) (v : Region) : (s.setRegion n v).slotWaits = s.slotWaits := rfl
@[simp] theorem State.setRegion_pin (s : State) (n : Nat) (v : Region) : (s.setRegion n v).pin = s.pin := rfl
@[simp] theorem State.setRegion_homeWrites (s : State) (n : Nat) (v : Region) : (s.setRegion n v).homeWrites = s.homeWrites := rfl
@[simp] theorem State.setRegion_eccWaits (s : State) (n : Nat) (v : Region) : (s.setRegion n v).eccWaits = s.eccWaits := rfl
@[simp] theorem State.setRegion_regions (s : State) (n : Nat) (v : Region) : (s.setRegion n v).regions = mput s.regions n v := rfl
@[simp] theorem State.setRegion_banks (s : State) (n : Nat) (v : Region) : (s.setRegion n v).banks = s.banks := rfl
@[simp] theorem State.setRegion_heath (s : State) (n : Nat) (v : Region) : (s.setRegion n v).heath = s.heath := rfl
@[simp] theorem State.setRegion_outbox (s : State) (n : Nat) (v : Region) : (s.setRegion n v).outbox = s.outbox := rfl

/-! ### `State.setBank` -/

@[simp] theorem State.setBank_chosen (s : State) (n : Nat) (v : Bank) : (s.setBank n v).chosen = s.chosen := rfl
@[simp] theorem State.setBank_agenda (s : State) (n : Nat) (v : Bank) : (s.setBank n v).agenda = s.agenda := rfl
@[simp] theorem State.setBank_freeCtr (s : State) (n : Nat) (v : Bank) : (s.setBank n v).freeCtr = s.freeCtr := rfl
@[simp] theorem State.setBank_time (s : State) (n : Nat) (v : Bank) : (s.setBank n v).time = s.time := rfl
@[simp] theorem State.setBank_fields (s : State) (n : Nat) (v : Bank) : (s.setBank n v).fields = s.fields := rfl
@[simp] theorem State.setBank_launches (s : State) (n : Nat) (v : Bank) : (s.setBank n v).launches = s.launches := rfl
@[simp] theorem State.setBank_nextFid (s : State) (n : Nat) (v : Bank) : (s.setBank n v).nextFid = s.nextFid := rfl
@[simp] theorem State.setBank_nextReady (s : State) (n : Nat) (v : Bank) : (s.setBank n v).nextReady = s.nextReady := rfl
@[simp] theorem State.setBank_nextUid (s : State) (n : Nat) (v : Bank) : (s.setBank n v).nextUid = s.nextUid := rfl
@[simp] theorem State.setBank_accNo (s : State) (n : Nat) (v : Bank) : (s.setBank n v).accNo = s.accNo := rfl
@[simp] theorem State.setBank_ctxs (s : State) (n : Nat) (v : Bank) : (s.setBank n v).ctxs = s.ctxs := rfl
@[simp] theorem State.setBank_claims (s : State) (n : Nat) (v : Bank) : (s.setBank n v).claims = s.claims := rfl
@[simp] theorem State.setBank_queues (s : State) (n : Nat) (v : Bank) : (s.setBank n v).queues = s.queues := rfl
@[simp] theorem State.setBank_mem (s : State) (n : Nat) (v : Bank) : (s.setBank n v).mem = s.mem := rfl
@[simp] theorem State.setBank_pool (s : State) (n : Nat) (v : Bank) : (s.setBank n v).pool = s.pool := rfl
@[simp] theorem State.setBank_keys (s : State) (n : Nat) (v : Bank) : (s.setBank n v).keys = s.keys := rfl
@[simp] theorem State.setBank_keyMap (s : State) (n : Nat) (v : Bank) : (s.setBank n v).keyMap = s.keyMap := rfl
@[simp] theorem State.setBank_l1 (s : State) (n : Nat) (v : Bank) : (s.setBank n v).l1 = s.l1 := rfl
@[simp] theorem State.setBank_l2 (s : State) (n : Nat) (v : Bank) : (s.setBank n v).l2 = s.l2 := rfl
@[simp] theorem State.setBank_tlb (s : State) (n : Nat) (v : Bank) : (s.setBank n v).tlb = s.tlb := rfl
@[simp] theorem State.setBank_walkCache (s : State) (n : Nat) (v : Bank) : (s.setBank n v).walkCache = s.walkCache := rfl
@[simp] theorem State.setBank_nodeTlb (s : State) (n : Nat) (v : Bank) : (s.setBank n v).nodeTlb = s.nodeTlb := rfl
@[simp] theorem State.setBank_deferred (s : State) (n : Nat) (v : Bank) : (s.setBank n v).deferred = s.deferred := rfl
@[simp] theorem State.setBank_poisoned (s : State) (n : Nat) (v : Bank) : (s.setBank n v).poisoned = s.poisoned := rfl
@[simp] theorem State.setBank_frames (s : State) (n : Nat) (v : Bank) : (s.setBank n v).frames = s.frames := rfl
@[simp] theorem State.setBank_setsFixed (s : State) (n : Nat) (v : Bank) : (s.setBank n v).setsFixed = s.setsFixed := rfl
@[simp] theorem State.setBank_fills (s : State) (n : Nat) (v : Bank) : (s.setBank n v).fills = s.fills := rfl
@[simp] theorem State.setBank_zeroUnits (s : State) (n : Nat) (v : Bank) : (s.setBank n v).zeroUnits = s.zeroUnits := rfl
@[simp] theorem State.setBank_roUnits (s : State) (n : Nat) (v : Bank) : (s.setBank n v).roUnits = s.roUnits := rfl
@[simp] theorem State.setBank_leases (s : State) (n : Nat) (v : Bank) : (s.setBank n v).leases = s.leases := rfl
@[simp] theorem State.setBank_nodes (s : State) (n : Nat) (v : Bank) : (s.setBank n v).nodes = s.nodes := rfl
@[simp] theorem State.setBank_moves (s : State) (n : Nat) (v : Bank) : (s.setBank n v).moves = s.moves := rfl
@[simp] theorem State.setBank_redirects (s : State) (n : Nat) (v : Bank) : (s.setBank n v).redirects = s.redirects := rfl
@[simp] theorem State.setBank_pagers (s : State) (n : Nat) (v : Bank) : (s.setBank n v).pagers = s.pagers := rfl
@[simp] theorem State.setBank_ckpt (s : State) (n : Nat) (v : Bank) : (s.setBank n v).ckpt = s.ckpt := rfl
@[simp] theorem State.setBank_ckptStat (s : State) (n : Nat) (v : Bank) : (s.setBank n v).ckptStat = s.ckptStat := rfl
@[simp] theorem State.setBank_s2waits (s : State) (n : Nat) (v : Bank) : (s.setBank n v).s2waits = s.s2waits := rfl
@[simp] theorem State.setBank_ringWaits (s : State) (n : Nat) (v : Bank) : (s.setBank n v).ringWaits = s.ringWaits := rfl
@[simp] theorem State.setBank_dir (s : State) (n : Nat) (v : Bank) : (s.setBank n v).dir = s.dir := rfl
@[simp] theorem State.setBank_sharers (s : State) (n : Nat) (v : Bank) : (s.setBank n v).sharers = s.sharers := rfl
@[simp] theorem State.setBank_upgrades (s : State) (n : Nat) (v : Bank) : (s.setBank n v).upgrades = s.upgrades := rfl
@[simp] theorem State.setBank_heldFills (s : State) (n : Nat) (v : Bank) : (s.setBank n v).heldFills = s.heldFills := rfl
@[simp] theorem State.setBank_exportWaits (s : State) (n : Nat) (v : Bank) : (s.setBank n v).exportWaits = s.exportWaits := rfl
@[simp] theorem State.setBank_slotWaits (s : State) (n : Nat) (v : Bank) : (s.setBank n v).slotWaits = s.slotWaits := rfl
@[simp] theorem State.setBank_pin (s : State) (n : Nat) (v : Bank) : (s.setBank n v).pin = s.pin := rfl
@[simp] theorem State.setBank_homeWrites (s : State) (n : Nat) (v : Bank) : (s.setBank n v).homeWrites = s.homeWrites := rfl
@[simp] theorem State.setBank_eccWaits (s : State) (n : Nat) (v : Bank) : (s.setBank n v).eccWaits = s.eccWaits := rfl
@[simp] theorem State.setBank_regions (s : State) (n : Nat) (v : Bank) : (s.setBank n v).regions = s.regions := rfl
@[simp] theorem State.setBank_banks (s : State) (n : Nat) (v : Bank) : (s.setBank n v).banks = mput s.banks n v := rfl
@[simp] theorem State.setBank_heath (s : State) (n : Nat) (v : Bank) : (s.setBank n v).heath = s.heath := rfl
@[simp] theorem State.setBank_outbox (s : State) (n : Nat) (v : Bank) : (s.setBank n v).outbox = s.outbox := rfl

/-! ### `State.setDir` -/

@[simp] theorem State.setDir_chosen (s : State) (l : Nat) (v : DirEnt) : (s.setDir l v).chosen = s.chosen := rfl
@[simp] theorem State.setDir_agenda (s : State) (l : Nat) (v : DirEnt) : (s.setDir l v).agenda = s.agenda := rfl
@[simp] theorem State.setDir_freeCtr (s : State) (l : Nat) (v : DirEnt) : (s.setDir l v).freeCtr = s.freeCtr := rfl
@[simp] theorem State.setDir_time (s : State) (l : Nat) (v : DirEnt) : (s.setDir l v).time = s.time := rfl
@[simp] theorem State.setDir_fields (s : State) (l : Nat) (v : DirEnt) : (s.setDir l v).fields = s.fields := rfl
@[simp] theorem State.setDir_launches (s : State) (l : Nat) (v : DirEnt) : (s.setDir l v).launches = s.launches := rfl
@[simp] theorem State.setDir_nextFid (s : State) (l : Nat) (v : DirEnt) : (s.setDir l v).nextFid = s.nextFid := rfl
@[simp] theorem State.setDir_nextReady (s : State) (l : Nat) (v : DirEnt) : (s.setDir l v).nextReady = s.nextReady := rfl
@[simp] theorem State.setDir_nextUid (s : State) (l : Nat) (v : DirEnt) : (s.setDir l v).nextUid = s.nextUid := rfl
@[simp] theorem State.setDir_accNo (s : State) (l : Nat) (v : DirEnt) : (s.setDir l v).accNo = s.accNo := rfl
@[simp] theorem State.setDir_ctxs (s : State) (l : Nat) (v : DirEnt) : (s.setDir l v).ctxs = s.ctxs := rfl
@[simp] theorem State.setDir_claims (s : State) (l : Nat) (v : DirEnt) : (s.setDir l v).claims = s.claims := rfl
@[simp] theorem State.setDir_queues (s : State) (l : Nat) (v : DirEnt) : (s.setDir l v).queues = s.queues := rfl
@[simp] theorem State.setDir_mem (s : State) (l : Nat) (v : DirEnt) : (s.setDir l v).mem = s.mem := rfl
@[simp] theorem State.setDir_pool (s : State) (l : Nat) (v : DirEnt) : (s.setDir l v).pool = s.pool := rfl
@[simp] theorem State.setDir_keys (s : State) (l : Nat) (v : DirEnt) : (s.setDir l v).keys = s.keys := rfl
@[simp] theorem State.setDir_keyMap (s : State) (l : Nat) (v : DirEnt) : (s.setDir l v).keyMap = s.keyMap := rfl
@[simp] theorem State.setDir_l1 (s : State) (l : Nat) (v : DirEnt) : (s.setDir l v).l1 = s.l1 := rfl
@[simp] theorem State.setDir_l2 (s : State) (l : Nat) (v : DirEnt) : (s.setDir l v).l2 = s.l2 := rfl
@[simp] theorem State.setDir_tlb (s : State) (l : Nat) (v : DirEnt) : (s.setDir l v).tlb = s.tlb := rfl
@[simp] theorem State.setDir_walkCache (s : State) (l : Nat) (v : DirEnt) : (s.setDir l v).walkCache = s.walkCache := rfl
@[simp] theorem State.setDir_nodeTlb (s : State) (l : Nat) (v : DirEnt) : (s.setDir l v).nodeTlb = s.nodeTlb := rfl
@[simp] theorem State.setDir_deferred (s : State) (l : Nat) (v : DirEnt) : (s.setDir l v).deferred = s.deferred := rfl
@[simp] theorem State.setDir_poisoned (s : State) (l : Nat) (v : DirEnt) : (s.setDir l v).poisoned = s.poisoned := rfl
@[simp] theorem State.setDir_frames (s : State) (l : Nat) (v : DirEnt) : (s.setDir l v).frames = s.frames := rfl
@[simp] theorem State.setDir_setsFixed (s : State) (l : Nat) (v : DirEnt) : (s.setDir l v).setsFixed = s.setsFixed := rfl
@[simp] theorem State.setDir_fills (s : State) (l : Nat) (v : DirEnt) : (s.setDir l v).fills = s.fills := rfl
@[simp] theorem State.setDir_zeroUnits (s : State) (l : Nat) (v : DirEnt) : (s.setDir l v).zeroUnits = s.zeroUnits := rfl
@[simp] theorem State.setDir_roUnits (s : State) (l : Nat) (v : DirEnt) : (s.setDir l v).roUnits = s.roUnits := rfl
@[simp] theorem State.setDir_leases (s : State) (l : Nat) (v : DirEnt) : (s.setDir l v).leases = s.leases := rfl
@[simp] theorem State.setDir_nodes (s : State) (l : Nat) (v : DirEnt) : (s.setDir l v).nodes = s.nodes := rfl
@[simp] theorem State.setDir_moves (s : State) (l : Nat) (v : DirEnt) : (s.setDir l v).moves = s.moves := rfl
@[simp] theorem State.setDir_redirects (s : State) (l : Nat) (v : DirEnt) : (s.setDir l v).redirects = s.redirects := rfl
@[simp] theorem State.setDir_pagers (s : State) (l : Nat) (v : DirEnt) : (s.setDir l v).pagers = s.pagers := rfl
@[simp] theorem State.setDir_ckpt (s : State) (l : Nat) (v : DirEnt) : (s.setDir l v).ckpt = s.ckpt := rfl
@[simp] theorem State.setDir_ckptStat (s : State) (l : Nat) (v : DirEnt) : (s.setDir l v).ckptStat = s.ckptStat := rfl
@[simp] theorem State.setDir_s2waits (s : State) (l : Nat) (v : DirEnt) : (s.setDir l v).s2waits = s.s2waits := rfl
@[simp] theorem State.setDir_ringWaits (s : State) (l : Nat) (v : DirEnt) : (s.setDir l v).ringWaits = s.ringWaits := rfl
@[simp] theorem State.setDir_dir (s : State) (l : Nat) (v : DirEnt) : (s.setDir l v).dir = if v = .zero then mdel s.dir l else mput s.dir l v := rfl
@[simp] theorem State.setDir_sharers (s : State) (l : Nat) (v : DirEnt) : (s.setDir l v).sharers = s.sharers := rfl
@[simp] theorem State.setDir_upgrades (s : State) (l : Nat) (v : DirEnt) : (s.setDir l v).upgrades = s.upgrades := rfl
@[simp] theorem State.setDir_heldFills (s : State) (l : Nat) (v : DirEnt) : (s.setDir l v).heldFills = s.heldFills := rfl
@[simp] theorem State.setDir_exportWaits (s : State) (l : Nat) (v : DirEnt) : (s.setDir l v).exportWaits = s.exportWaits := rfl
@[simp] theorem State.setDir_slotWaits (s : State) (l : Nat) (v : DirEnt) : (s.setDir l v).slotWaits = s.slotWaits := rfl
@[simp] theorem State.setDir_pin (s : State) (l : Nat) (v : DirEnt) : (s.setDir l v).pin = s.pin := rfl
@[simp] theorem State.setDir_homeWrites (s : State) (l : Nat) (v : DirEnt) : (s.setDir l v).homeWrites = s.homeWrites := rfl
@[simp] theorem State.setDir_eccWaits (s : State) (l : Nat) (v : DirEnt) : (s.setDir l v).eccWaits = s.eccWaits := rfl
@[simp] theorem State.setDir_regions (s : State) (l : Nat) (v : DirEnt) : (s.setDir l v).regions = s.regions := rfl
@[simp] theorem State.setDir_banks (s : State) (l : Nat) (v : DirEnt) : (s.setDir l v).banks = s.banks := rfl
@[simp] theorem State.setDir_heath (s : State) (l : Nat) (v : DirEnt) : (s.setDir l v).heath = s.heath := rfl
@[simp] theorem State.setDir_outbox (s : State) (l : Nat) (v : DirEnt) : (s.setDir l v).outbox = s.outbox := rfl

/-! ### `State.send` -/

@[simp] theorem State.send_chosen (s : State) (o : Out) : (s.send o).chosen = s.chosen := rfl
@[simp] theorem State.send_agenda (s : State) (o : Out) : (s.send o).agenda = s.agenda := rfl
@[simp] theorem State.send_freeCtr (s : State) (o : Out) : (s.send o).freeCtr = s.freeCtr := rfl
@[simp] theorem State.send_time (s : State) (o : Out) : (s.send o).time = s.time := rfl
@[simp] theorem State.send_fields (s : State) (o : Out) : (s.send o).fields = s.fields := rfl
@[simp] theorem State.send_launches (s : State) (o : Out) : (s.send o).launches = s.launches := rfl
@[simp] theorem State.send_nextFid (s : State) (o : Out) : (s.send o).nextFid = s.nextFid := rfl
@[simp] theorem State.send_nextReady (s : State) (o : Out) : (s.send o).nextReady = s.nextReady := rfl
@[simp] theorem State.send_nextUid (s : State) (o : Out) : (s.send o).nextUid = s.nextUid := rfl
@[simp] theorem State.send_accNo (s : State) (o : Out) : (s.send o).accNo = s.accNo := rfl
@[simp] theorem State.send_ctxs (s : State) (o : Out) : (s.send o).ctxs = s.ctxs := rfl
@[simp] theorem State.send_claims (s : State) (o : Out) : (s.send o).claims = s.claims := rfl
@[simp] theorem State.send_queues (s : State) (o : Out) : (s.send o).queues = s.queues := rfl
@[simp] theorem State.send_mem (s : State) (o : Out) : (s.send o).mem = s.mem := rfl
@[simp] theorem State.send_pool (s : State) (o : Out) : (s.send o).pool = s.pool := rfl
@[simp] theorem State.send_keys (s : State) (o : Out) : (s.send o).keys = s.keys := rfl
@[simp] theorem State.send_keyMap (s : State) (o : Out) : (s.send o).keyMap = s.keyMap := rfl
@[simp] theorem State.send_l1 (s : State) (o : Out) : (s.send o).l1 = s.l1 := rfl
@[simp] theorem State.send_l2 (s : State) (o : Out) : (s.send o).l2 = s.l2 := rfl
@[simp] theorem State.send_tlb (s : State) (o : Out) : (s.send o).tlb = s.tlb := rfl
@[simp] theorem State.send_walkCache (s : State) (o : Out) : (s.send o).walkCache = s.walkCache := rfl
@[simp] theorem State.send_nodeTlb (s : State) (o : Out) : (s.send o).nodeTlb = s.nodeTlb := rfl
@[simp] theorem State.send_deferred (s : State) (o : Out) : (s.send o).deferred = s.deferred := rfl
@[simp] theorem State.send_poisoned (s : State) (o : Out) : (s.send o).poisoned = s.poisoned := rfl
@[simp] theorem State.send_frames (s : State) (o : Out) : (s.send o).frames = s.frames := rfl
@[simp] theorem State.send_setsFixed (s : State) (o : Out) : (s.send o).setsFixed = s.setsFixed := rfl
@[simp] theorem State.send_fills (s : State) (o : Out) : (s.send o).fills = s.fills := rfl
@[simp] theorem State.send_zeroUnits (s : State) (o : Out) : (s.send o).zeroUnits = s.zeroUnits := rfl
@[simp] theorem State.send_roUnits (s : State) (o : Out) : (s.send o).roUnits = s.roUnits := rfl
@[simp] theorem State.send_leases (s : State) (o : Out) : (s.send o).leases = s.leases := rfl
@[simp] theorem State.send_nodes (s : State) (o : Out) : (s.send o).nodes = s.nodes := rfl
@[simp] theorem State.send_moves (s : State) (o : Out) : (s.send o).moves = s.moves := rfl
@[simp] theorem State.send_redirects (s : State) (o : Out) : (s.send o).redirects = s.redirects := rfl
@[simp] theorem State.send_pagers (s : State) (o : Out) : (s.send o).pagers = s.pagers := rfl
@[simp] theorem State.send_ckpt (s : State) (o : Out) : (s.send o).ckpt = s.ckpt := rfl
@[simp] theorem State.send_ckptStat (s : State) (o : Out) : (s.send o).ckptStat = s.ckptStat := rfl
@[simp] theorem State.send_s2waits (s : State) (o : Out) : (s.send o).s2waits = s.s2waits := rfl
@[simp] theorem State.send_ringWaits (s : State) (o : Out) : (s.send o).ringWaits = s.ringWaits := rfl
@[simp] theorem State.send_dir (s : State) (o : Out) : (s.send o).dir = s.dir := rfl
@[simp] theorem State.send_sharers (s : State) (o : Out) : (s.send o).sharers = s.sharers := rfl
@[simp] theorem State.send_upgrades (s : State) (o : Out) : (s.send o).upgrades = s.upgrades := rfl
@[simp] theorem State.send_heldFills (s : State) (o : Out) : (s.send o).heldFills = s.heldFills := rfl
@[simp] theorem State.send_exportWaits (s : State) (o : Out) : (s.send o).exportWaits = s.exportWaits := rfl
@[simp] theorem State.send_slotWaits (s : State) (o : Out) : (s.send o).slotWaits = s.slotWaits := rfl
@[simp] theorem State.send_pin (s : State) (o : Out) : (s.send o).pin = s.pin := rfl
@[simp] theorem State.send_homeWrites (s : State) (o : Out) : (s.send o).homeWrites = s.homeWrites := rfl
@[simp] theorem State.send_eccWaits (s : State) (o : Out) : (s.send o).eccWaits = s.eccWaits := rfl
@[simp] theorem State.send_regions (s : State) (o : Out) : (s.send o).regions = s.regions := rfl
@[simp] theorem State.send_banks (s : State) (o : Out) : (s.send o).banks = s.banks := rfl
@[simp] theorem State.send_heath (s : State) (o : Out) : (s.send o).heath = s.heath := rfl
@[simp] theorem State.send_outbox (s : State) (o : Out) : (s.send o).outbox = s.outbox ++ [o] := rfl

/-! ### `State.heathLog` -/

@[simp] theorem State.heathLog_chosen (s : State) (a b c d : Nat) (v : W64) : (s.heathLog a b c d v).chosen = s.chosen := rfl
@[simp] theorem State.heathLog_agenda (s : State) (a b c d : Nat) (v : W64) : (s.heathLog a b c d v).agenda = s.agenda := rfl
@[simp] theorem State.heathLog_freeCtr (s : State) (a b c d : Nat) (v : W64) : (s.heathLog a b c d v).freeCtr = s.freeCtr := rfl
@[simp] theorem State.heathLog_time (s : State) (a b c d : Nat) (v : W64) : (s.heathLog a b c d v).time = s.time := rfl
@[simp] theorem State.heathLog_fields (s : State) (a b c d : Nat) (v : W64) : (s.heathLog a b c d v).fields = s.fields := rfl
@[simp] theorem State.heathLog_launches (s : State) (a b c d : Nat) (v : W64) : (s.heathLog a b c d v).launches = s.launches := rfl
@[simp] theorem State.heathLog_nextFid (s : State) (a b c d : Nat) (v : W64) : (s.heathLog a b c d v).nextFid = s.nextFid := rfl
@[simp] theorem State.heathLog_nextReady (s : State) (a b c d : Nat) (v : W64) : (s.heathLog a b c d v).nextReady = s.nextReady := rfl
@[simp] theorem State.heathLog_nextUid (s : State) (a b c d : Nat) (v : W64) : (s.heathLog a b c d v).nextUid = s.nextUid := rfl
@[simp] theorem State.heathLog_accNo (s : State) (a b c d : Nat) (v : W64) : (s.heathLog a b c d v).accNo = s.accNo := rfl
@[simp] theorem State.heathLog_ctxs (s : State) (a b c d : Nat) (v : W64) : (s.heathLog a b c d v).ctxs = s.ctxs := rfl
@[simp] theorem State.heathLog_claims (s : State) (a b c d : Nat) (v : W64) : (s.heathLog a b c d v).claims = s.claims := rfl
@[simp] theorem State.heathLog_queues (s : State) (a b c d : Nat) (v : W64) : (s.heathLog a b c d v).queues = s.queues := rfl
@[simp] theorem State.heathLog_mem (s : State) (a b c d : Nat) (v : W64) : (s.heathLog a b c d v).mem = s.mem := rfl
@[simp] theorem State.heathLog_pool (s : State) (a b c d : Nat) (v : W64) : (s.heathLog a b c d v).pool = s.pool := rfl
@[simp] theorem State.heathLog_keys (s : State) (a b c d : Nat) (v : W64) : (s.heathLog a b c d v).keys = s.keys := rfl
@[simp] theorem State.heathLog_keyMap (s : State) (a b c d : Nat) (v : W64) : (s.heathLog a b c d v).keyMap = s.keyMap := rfl
@[simp] theorem State.heathLog_l1 (s : State) (a b c d : Nat) (v : W64) : (s.heathLog a b c d v).l1 = s.l1 := rfl
@[simp] theorem State.heathLog_l2 (s : State) (a b c d : Nat) (v : W64) : (s.heathLog a b c d v).l2 = s.l2 := rfl
@[simp] theorem State.heathLog_tlb (s : State) (a b c d : Nat) (v : W64) : (s.heathLog a b c d v).tlb = s.tlb := rfl
@[simp] theorem State.heathLog_walkCache (s : State) (a b c d : Nat) (v : W64) : (s.heathLog a b c d v).walkCache = s.walkCache := rfl
@[simp] theorem State.heathLog_nodeTlb (s : State) (a b c d : Nat) (v : W64) : (s.heathLog a b c d v).nodeTlb = s.nodeTlb := rfl
@[simp] theorem State.heathLog_deferred (s : State) (a b c d : Nat) (v : W64) : (s.heathLog a b c d v).deferred = s.deferred := rfl
@[simp] theorem State.heathLog_poisoned (s : State) (a b c d : Nat) (v : W64) : (s.heathLog a b c d v).poisoned = s.poisoned := rfl
@[simp] theorem State.heathLog_frames (s : State) (a b c d : Nat) (v : W64) : (s.heathLog a b c d v).frames = s.frames := rfl
@[simp] theorem State.heathLog_setsFixed (s : State) (a b c d : Nat) (v : W64) : (s.heathLog a b c d v).setsFixed = s.setsFixed := rfl
@[simp] theorem State.heathLog_fills (s : State) (a b c d : Nat) (v : W64) : (s.heathLog a b c d v).fills = s.fills := rfl
@[simp] theorem State.heathLog_zeroUnits (s : State) (a b c d : Nat) (v : W64) : (s.heathLog a b c d v).zeroUnits = s.zeroUnits := rfl
@[simp] theorem State.heathLog_roUnits (s : State) (a b c d : Nat) (v : W64) : (s.heathLog a b c d v).roUnits = s.roUnits := rfl
@[simp] theorem State.heathLog_leases (s : State) (a b c d : Nat) (v : W64) : (s.heathLog a b c d v).leases = s.leases := rfl
@[simp] theorem State.heathLog_nodes (s : State) (a b c d : Nat) (v : W64) : (s.heathLog a b c d v).nodes = s.nodes := rfl
@[simp] theorem State.heathLog_moves (s : State) (a b c d : Nat) (v : W64) : (s.heathLog a b c d v).moves = s.moves := rfl
@[simp] theorem State.heathLog_redirects (s : State) (a b c d : Nat) (v : W64) : (s.heathLog a b c d v).redirects = s.redirects := rfl
@[simp] theorem State.heathLog_pagers (s : State) (a b c d : Nat) (v : W64) : (s.heathLog a b c d v).pagers = s.pagers := rfl
@[simp] theorem State.heathLog_ckpt (s : State) (a b c d : Nat) (v : W64) : (s.heathLog a b c d v).ckpt = s.ckpt := rfl
@[simp] theorem State.heathLog_ckptStat (s : State) (a b c d : Nat) (v : W64) : (s.heathLog a b c d v).ckptStat = s.ckptStat := rfl
@[simp] theorem State.heathLog_s2waits (s : State) (a b c d : Nat) (v : W64) : (s.heathLog a b c d v).s2waits = s.s2waits := rfl
@[simp] theorem State.heathLog_ringWaits (s : State) (a b c d : Nat) (v : W64) : (s.heathLog a b c d v).ringWaits = s.ringWaits := rfl
@[simp] theorem State.heathLog_dir (s : State) (a b c d : Nat) (v : W64) : (s.heathLog a b c d v).dir = s.dir := rfl
@[simp] theorem State.heathLog_sharers (s : State) (a b c d : Nat) (v : W64) : (s.heathLog a b c d v).sharers = s.sharers := rfl
@[simp] theorem State.heathLog_upgrades (s : State) (a b c d : Nat) (v : W64) : (s.heathLog a b c d v).upgrades = s.upgrades := rfl
@[simp] theorem State.heathLog_heldFills (s : State) (a b c d : Nat) (v : W64) : (s.heathLog a b c d v).heldFills = s.heldFills := rfl
@[simp] theorem State.heathLog_exportWaits (s : State) (a b c d : Nat) (v : W64) : (s.heathLog a b c d v).exportWaits = s.exportWaits := rfl
@[simp] theorem State.heathLog_slotWaits (s : State) (a b c d : Nat) (v : W64) : (s.heathLog a b c d v).slotWaits = s.slotWaits := rfl
@[simp] theorem State.heathLog_pin (s : State) (a b c d : Nat) (v : W64) : (s.heathLog a b c d v).pin = s.pin := rfl
@[simp] theorem State.heathLog_homeWrites (s : State) (a b c d : Nat) (v : W64) : (s.heathLog a b c d v).homeWrites = s.homeWrites := rfl
@[simp] theorem State.heathLog_eccWaits (s : State) (a b c d : Nat) (v : W64) : (s.heathLog a b c d v).eccWaits = s.eccWaits := rfl
@[simp] theorem State.heathLog_regions (s : State) (a b c d : Nat) (v : W64) : (s.heathLog a b c d v).regions = s.regions := rfl
@[simp] theorem State.heathLog_banks (s : State) (a b c d : Nat) (v : W64) : (s.heathLog a b c d v).banks = s.banks := rfl
@[simp] theorem State.heathLog_outbox (s : State) (a b c d : Nat) (v : W64) : (s.heathLog a b c d v).outbox = s.outbox := rfl

/-! ### `State.tick` -/

@[simp] theorem State.tick_chosen (s : State) : (s.tick).chosen = s.chosen := rfl
@[simp] theorem State.tick_agenda (s : State) : (s.tick).agenda = s.agenda := rfl
@[simp] theorem State.tick_freeCtr (s : State) : (s.tick).freeCtr = s.freeCtr + 1 := rfl
@[simp] theorem State.tick_time (s : State) : (s.tick).time = s.time := rfl
@[simp] theorem State.tick_fields (s : State) : (s.tick).fields = s.fields := rfl
@[simp] theorem State.tick_launches (s : State) : (s.tick).launches = s.launches := rfl
@[simp] theorem State.tick_nextFid (s : State) : (s.tick).nextFid = s.nextFid := rfl
@[simp] theorem State.tick_nextReady (s : State) : (s.tick).nextReady = s.nextReady := rfl
@[simp] theorem State.tick_nextUid (s : State) : (s.tick).nextUid = s.nextUid := rfl
@[simp] theorem State.tick_accNo (s : State) : (s.tick).accNo = s.accNo := rfl
@[simp] theorem State.tick_ctxs (s : State) : (s.tick).ctxs = s.ctxs := rfl
@[simp] theorem State.tick_claims (s : State) : (s.tick).claims = s.claims := rfl
@[simp] theorem State.tick_queues (s : State) : (s.tick).queues = s.queues := rfl
@[simp] theorem State.tick_mem (s : State) : (s.tick).mem = s.mem := rfl
@[simp] theorem State.tick_pool (s : State) : (s.tick).pool = s.pool := rfl
@[simp] theorem State.tick_keys (s : State) : (s.tick).keys = s.keys := rfl
@[simp] theorem State.tick_keyMap (s : State) : (s.tick).keyMap = s.keyMap := rfl
@[simp] theorem State.tick_l1 (s : State) : (s.tick).l1 = s.l1 := rfl
@[simp] theorem State.tick_l2 (s : State) : (s.tick).l2 = s.l2 := rfl
@[simp] theorem State.tick_tlb (s : State) : (s.tick).tlb = s.tlb := rfl
@[simp] theorem State.tick_walkCache (s : State) : (s.tick).walkCache = s.walkCache := rfl
@[simp] theorem State.tick_nodeTlb (s : State) : (s.tick).nodeTlb = s.nodeTlb := rfl
@[simp] theorem State.tick_deferred (s : State) : (s.tick).deferred = s.deferred := rfl
@[simp] theorem State.tick_poisoned (s : State) : (s.tick).poisoned = s.poisoned := rfl
@[simp] theorem State.tick_frames (s : State) : (s.tick).frames = s.frames := rfl
@[simp] theorem State.tick_setsFixed (s : State) : (s.tick).setsFixed = s.setsFixed := rfl
@[simp] theorem State.tick_fills (s : State) : (s.tick).fills = s.fills := rfl
@[simp] theorem State.tick_zeroUnits (s : State) : (s.tick).zeroUnits = s.zeroUnits := rfl
@[simp] theorem State.tick_roUnits (s : State) : (s.tick).roUnits = s.roUnits := rfl
@[simp] theorem State.tick_leases (s : State) : (s.tick).leases = s.leases := rfl
@[simp] theorem State.tick_nodes (s : State) : (s.tick).nodes = s.nodes := rfl
@[simp] theorem State.tick_moves (s : State) : (s.tick).moves = s.moves := rfl
@[simp] theorem State.tick_redirects (s : State) : (s.tick).redirects = s.redirects := rfl
@[simp] theorem State.tick_pagers (s : State) : (s.tick).pagers = s.pagers := rfl
@[simp] theorem State.tick_ckpt (s : State) : (s.tick).ckpt = s.ckpt := rfl
@[simp] theorem State.tick_ckptStat (s : State) : (s.tick).ckptStat = s.ckptStat := rfl
@[simp] theorem State.tick_s2waits (s : State) : (s.tick).s2waits = s.s2waits := rfl
@[simp] theorem State.tick_ringWaits (s : State) : (s.tick).ringWaits = s.ringWaits := rfl
@[simp] theorem State.tick_dir (s : State) : (s.tick).dir = s.dir := rfl
@[simp] theorem State.tick_sharers (s : State) : (s.tick).sharers = s.sharers := rfl
@[simp] theorem State.tick_upgrades (s : State) : (s.tick).upgrades = s.upgrades := rfl
@[simp] theorem State.tick_heldFills (s : State) : (s.tick).heldFills = s.heldFills := rfl
@[simp] theorem State.tick_exportWaits (s : State) : (s.tick).exportWaits = s.exportWaits := rfl
@[simp] theorem State.tick_slotWaits (s : State) : (s.tick).slotWaits = s.slotWaits := rfl
@[simp] theorem State.tick_pin (s : State) : (s.tick).pin = s.pin := rfl
@[simp] theorem State.tick_homeWrites (s : State) : (s.tick).homeWrites = s.homeWrites := rfl
@[simp] theorem State.tick_eccWaits (s : State) : (s.tick).eccWaits = s.eccWaits := rfl
@[simp] theorem State.tick_regions (s : State) : (s.tick).regions = s.regions := rfl
@[simp] theorem State.tick_banks (s : State) : (s.tick).banks = s.banks := rfl
@[simp] theorem State.tick_heath (s : State) : (s.tick).heath = s.heath := rfl
@[simp] theorem State.tick_outbox (s : State) : (s.tick).outbox = s.outbox := rfl

/-! ### `State.updSwath` -/

@[simp] theorem State.updSwath_chosen (s : State) (p : PartyId) (g : Swath → Swath) : (s.updSwath p g).chosen = s.chosen := by
  cases p <;> rfl
@[simp] theorem State.updSwath_agenda (s : State) (p : PartyId) (g : Swath → Swath) : (s.updSwath p g).agenda = s.agenda := by
  cases p <;> rfl
@[simp] theorem State.updSwath_freeCtr (s : State) (p : PartyId) (g : Swath → Swath) : (s.updSwath p g).freeCtr = s.freeCtr := by
  cases p <;> rfl
@[simp] theorem State.updSwath_time (s : State) (p : PartyId) (g : Swath → Swath) : (s.updSwath p g).time = s.time := by
  cases p <;> rfl
@[simp] theorem State.updSwath_launches (s : State) (p : PartyId) (g : Swath → Swath) : (s.updSwath p g).launches = s.launches := by
  cases p <;> rfl
@[simp] theorem State.updSwath_nextFid (s : State) (p : PartyId) (g : Swath → Swath) : (s.updSwath p g).nextFid = s.nextFid := by
  cases p <;> rfl
@[simp] theorem State.updSwath_nextReady (s : State) (p : PartyId) (g : Swath → Swath) : (s.updSwath p g).nextReady = s.nextReady := by
  cases p <;> rfl
@[simp] theorem State.updSwath_nextUid (s : State) (p : PartyId) (g : Swath → Swath) : (s.updSwath p g).nextUid = s.nextUid := by
  cases p <;> rfl
@[simp] theorem State.updSwath_accNo (s : State) (p : PartyId) (g : Swath → Swath) : (s.updSwath p g).accNo = s.accNo := by
  cases p <;> rfl
@[simp] theorem State.updSwath_ctxs (s : State) (p : PartyId) (g : Swath → Swath) : (s.updSwath p g).ctxs = s.ctxs := by
  cases p <;> rfl
@[simp] theorem State.updSwath_claims (s : State) (p : PartyId) (g : Swath → Swath) : (s.updSwath p g).claims = s.claims := by
  cases p <;> rfl
@[simp] theorem State.updSwath_queues (s : State) (p : PartyId) (g : Swath → Swath) : (s.updSwath p g).queues = s.queues := by
  cases p <;> rfl
@[simp] theorem State.updSwath_mem (s : State) (p : PartyId) (g : Swath → Swath) : (s.updSwath p g).mem = s.mem := by
  cases p <;> rfl
@[simp] theorem State.updSwath_pool (s : State) (p : PartyId) (g : Swath → Swath) : (s.updSwath p g).pool = s.pool := by
  cases p <;> rfl
@[simp] theorem State.updSwath_keys (s : State) (p : PartyId) (g : Swath → Swath) : (s.updSwath p g).keys = s.keys := by
  cases p <;> rfl
@[simp] theorem State.updSwath_keyMap (s : State) (p : PartyId) (g : Swath → Swath) : (s.updSwath p g).keyMap = s.keyMap := by
  cases p <;> rfl
@[simp] theorem State.updSwath_l1 (s : State) (p : PartyId) (g : Swath → Swath) : (s.updSwath p g).l1 = s.l1 := by
  cases p <;> rfl
@[simp] theorem State.updSwath_l2 (s : State) (p : PartyId) (g : Swath → Swath) : (s.updSwath p g).l2 = s.l2 := by
  cases p <;> rfl
@[simp] theorem State.updSwath_tlb (s : State) (p : PartyId) (g : Swath → Swath) : (s.updSwath p g).tlb = s.tlb := by
  cases p <;> rfl
@[simp] theorem State.updSwath_walkCache (s : State) (p : PartyId) (g : Swath → Swath) : (s.updSwath p g).walkCache = s.walkCache := by
  cases p <;> rfl
@[simp] theorem State.updSwath_nodeTlb (s : State) (p : PartyId) (g : Swath → Swath) : (s.updSwath p g).nodeTlb = s.nodeTlb := by
  cases p <;> rfl
@[simp] theorem State.updSwath_deferred (s : State) (p : PartyId) (g : Swath → Swath) : (s.updSwath p g).deferred = s.deferred := by
  cases p <;> rfl
@[simp] theorem State.updSwath_poisoned (s : State) (p : PartyId) (g : Swath → Swath) : (s.updSwath p g).poisoned = s.poisoned := by
  cases p <;> rfl
@[simp] theorem State.updSwath_frames (s : State) (p : PartyId) (g : Swath → Swath) : (s.updSwath p g).frames = s.frames := by
  cases p <;> rfl
@[simp] theorem State.updSwath_setsFixed (s : State) (p : PartyId) (g : Swath → Swath) : (s.updSwath p g).setsFixed = s.setsFixed := by
  cases p <;> rfl
@[simp] theorem State.updSwath_fills (s : State) (p : PartyId) (g : Swath → Swath) : (s.updSwath p g).fills = s.fills := by
  cases p <;> rfl
@[simp] theorem State.updSwath_zeroUnits (s : State) (p : PartyId) (g : Swath → Swath) : (s.updSwath p g).zeroUnits = s.zeroUnits := by
  cases p <;> rfl
@[simp] theorem State.updSwath_roUnits (s : State) (p : PartyId) (g : Swath → Swath) : (s.updSwath p g).roUnits = s.roUnits := by
  cases p <;> rfl
@[simp] theorem State.updSwath_leases (s : State) (p : PartyId) (g : Swath → Swath) : (s.updSwath p g).leases = s.leases := by
  cases p <;> rfl
@[simp] theorem State.updSwath_nodes (s : State) (p : PartyId) (g : Swath → Swath) : (s.updSwath p g).nodes = s.nodes := by
  cases p <;> rfl
@[simp] theorem State.updSwath_moves (s : State) (p : PartyId) (g : Swath → Swath) : (s.updSwath p g).moves = s.moves := by
  cases p <;> rfl
@[simp] theorem State.updSwath_redirects (s : State) (p : PartyId) (g : Swath → Swath) : (s.updSwath p g).redirects = s.redirects := by
  cases p <;> rfl
@[simp] theorem State.updSwath_ckpt (s : State) (p : PartyId) (g : Swath → Swath) : (s.updSwath p g).ckpt = s.ckpt := by
  cases p <;> rfl
@[simp] theorem State.updSwath_ckptStat (s : State) (p : PartyId) (g : Swath → Swath) : (s.updSwath p g).ckptStat = s.ckptStat := by
  cases p <;> rfl
@[simp] theorem State.updSwath_s2waits (s : State) (p : PartyId) (g : Swath → Swath) : (s.updSwath p g).s2waits = s.s2waits := by
  cases p <;> rfl
@[simp] theorem State.updSwath_ringWaits (s : State) (p : PartyId) (g : Swath → Swath) : (s.updSwath p g).ringWaits = s.ringWaits := by
  cases p <;> rfl
@[simp] theorem State.updSwath_dir (s : State) (p : PartyId) (g : Swath → Swath) : (s.updSwath p g).dir = s.dir := by
  cases p <;> rfl
@[simp] theorem State.updSwath_sharers (s : State) (p : PartyId) (g : Swath → Swath) : (s.updSwath p g).sharers = s.sharers := by
  cases p <;> rfl
@[simp] theorem State.updSwath_upgrades (s : State) (p : PartyId) (g : Swath → Swath) : (s.updSwath p g).upgrades = s.upgrades := by
  cases p <;> rfl
@[simp] theorem State.updSwath_heldFills (s : State) (p : PartyId) (g : Swath → Swath) : (s.updSwath p g).heldFills = s.heldFills := by
  cases p <;> rfl
@[simp] theorem State.updSwath_exportWaits (s : State) (p : PartyId) (g : Swath → Swath) : (s.updSwath p g).exportWaits = s.exportWaits := by
  cases p <;> rfl
@[simp] theorem State.updSwath_slotWaits (s : State) (p : PartyId) (g : Swath → Swath) : (s.updSwath p g).slotWaits = s.slotWaits := by
  cases p <;> rfl
@[simp] theorem State.updSwath_pin (s : State) (p : PartyId) (g : Swath → Swath) : (s.updSwath p g).pin = s.pin := by
  cases p <;> rfl
@[simp] theorem State.updSwath_homeWrites (s : State) (p : PartyId) (g : Swath → Swath) : (s.updSwath p g).homeWrites = s.homeWrites := by
  cases p <;> rfl
@[simp] theorem State.updSwath_eccWaits (s : State) (p : PartyId) (g : Swath → Swath) : (s.updSwath p g).eccWaits = s.eccWaits := by
  cases p <;> rfl
@[simp] theorem State.updSwath_regions (s : State) (p : PartyId) (g : Swath → Swath) : (s.updSwath p g).regions = s.regions := by
  cases p <;> rfl
@[simp] theorem State.updSwath_banks (s : State) (p : PartyId) (g : Swath → Swath) : (s.updSwath p g).banks = s.banks := by
  cases p <;> rfl
@[simp] theorem State.updSwath_heath (s : State) (p : PartyId) (g : Swath → Swath) : (s.updSwath p g).heath = s.heath := by
  cases p <;> rfl
@[simp] theorem State.updSwath_outbox (s : State) (p : PartyId) (g : Swath → Swath) : (s.updSwath p g).outbox = s.outbox := by
  cases p <;> rfl

/-! ### What is read after an update -/

@[simp] theorem State.field?_setField (s : State) (f : Nat) (v : Field) : (s.setField f v).field? f = some v :=
  mget_mput_same _ _ _
theorem State.field?_setField_ne (s : State) {f k : Nat} (v : Field) (h : k ≠ f) : (s.setField f v).field? k = s.field? k :=
  mget_mput_ne _ _ h
@[simp] theorem State.ctx?_setCtx (s : State) (c : Nat) (v : Context) : (s.setCtx c v).ctx? c = some v :=
  mget_mput_same _ _ _
theorem State.ctx?_setCtx_ne (s : State) {c k : Nat} (v : Context) (h : k ≠ c) : (s.setCtx c v).ctx? k = s.ctx? k :=
  mget_mput_ne _ _ h
theorem State.ctx?_updCtx (s : State) (c : Nat) (g : Context → Context) : (s.updCtx c g).ctx? c = (s.ctx? c).map g :=
  mget_mupd_same _ _ _
theorem State.ctx?_updCtx_ne (s : State) {c k : Nat} (g : Context → Context) (h : k ≠ c) : (s.updCtx c g).ctx? k = s.ctx? k :=
  mget_mupd_ne _ _ h
@[simp] theorem State.frame_setFrame (s : State) (f : Nat) (v : Frame) : (s.setFrame f v).frame f = v := by
  simp [State.frame, State.setFrame, mgetD]
theorem State.frame_setFrame_ne (s : State) {f k : Nat} (v : Frame) (h : k ≠ f) : (s.setFrame f v).frame k = s.frame k := by
  simp [State.frame, State.setFrame, mgetD, mget_mput_ne _ _ h]
@[simp] theorem State.lease_setLease (s : State) (n : Nat) (v : Lease) : (s.setLease n v).lease n = v := by
  simp [State.lease, State.setLease, mgetD]
theorem State.lease_setLease_ne (s : State) {n k : Nat} (v : Lease) (h : k ≠ n) : (s.setLease n v).lease k = s.lease k := by
  simp [State.lease, State.setLease, mgetD, mget_mput_ne _ _ h]
@[simp] theorem State.node_setNode (s : State) (n : Nat) (v : Node) : (s.setNode n v).node n = v := by
  simp [State.node, State.setNode, mgetD]
theorem State.node_setNode_ne (s : State) {n k : Nat} (v : Node) (h : k ≠ n) : (s.setNode n v).node k = s.node k := by
  simp [State.node, State.setNode, mgetD, mget_mput_ne _ _ h]

end Sys2Proof.Machine
end

