-- ==== Sys2Proof/Tests/Slice0.lean ====
section
/-! SUPPORT. Tests: words of the specification against the decoder, refused ill-formed instructions, worked
examples of the chapters, and a witness for the hypotheses of every statement. -/

namespace Sys2Proof.Tests
open Sys2Proof Sys2Proof.Machine Sys2Proof.Claims

set_option Elab.async false

/-! ### Words, written out from the encodings of R16 to R24 -/

def guarded (g : BitVec 4) (neg : Bool := false) (stall : BitVec 4 := 0) (mark : Bool := false) : LHdr :=
  { guard := g, neg := neg, stall := stall, mark := mark }

theorem test_word_addi : decode (.scalar 0x2028DFF6) = .ok (.addi 5 6 0x7FD 2) := by rfl
theorem test_word_lit : decode (.scalar 0xFE02468A) = .ok (.lit 0x2468A) := by rfl
theorem test_word_lwait : decode (.scalar 0x84180004) = .ok (.lwait 3 0 1 0) := by rfl
theorem test_word_movxw : decode (.scalar 0x86102000) = .ok (.movxw 2 1 0) := by rfl
theorem test_word_movwx : decode (.scalar 0x8620A004) = .ok (.movwx 4 5 0) := by rfl
theorem test_word_setfmt : decode (.scalar 0x880040FC) = .ok (.setfmt 2 0x3F 0) := by rfl
theorem test_word_bars : decode (.scalar 0x8A018008) = .ok (.bars 0 12 0) := by rfl
theorem test_word_mmul : decode (.scalar 0x94010000) = .ok (.mmul 0 8 0) := by rfl
theorem test_word_mtern : decode (.scalar 0x9610C000) = .ok (.mtern 2 6 0) := by rfl
theorem test_word_mwait : decode (.scalar 0x9A012004) = .ok (.mwait 9 0) := by rfl
theorem test_word_waitc : decode (.scalar 0x9C100004) = .ok (.waitc 2 0 0) := by rfl
theorem test_word_pbwait : decode (.scalar 0x9E384008) = .ok (.pbwait 7 2 0 0) := by rfl
theorem test_word_atomAdd : decode (.scalar 0xA000C38C) = .ok (.atomAdd 0 6 7 0 3 0) := by rfl
theorem test_word_fenceRel : decode (.scalar 0xB0000054) = .ok (.fenceRel 5 0) := by rfl
theorem test_word_cinv : decode (.scalar 0xB22A8D04) = .ok (.cinv 5 20 26 0) := by rfl
theorem test_word_pfh : decode (.scalar 0xB442CB80) = .ok (.pfh 8 22 23 0) := by rfl
theorem test_word_wcntw : decode (.scalar 0xBA098680) = .ok (.wcntw 1 12 13 0) := by rfl
theorem test_word_mfsr : decode (.scalar 0xC0080049) = .ok (.mfsr 1 0x12 1) := by rfl
theorem test_word_tret : decode (.scalar 0xC6000000) = .ok (.tret 0) := by rfl
theorem test_word_trun : decode (.scalar 0xC602CB84) = .ok (.trun 22 23 0) := by rfl
theorem test_word_mapft : decode (.scalar 0xCA102000) = .ok (.mapft 2 1 0) := by rfl
theorem test_word_pgfill : decode (.scalar 0xD238C000) = .ok (.pgfill 7 6 0) := by rfl
theorem test_word_pgupg : decode (.scalar 0xD238C00C) = .ok (.pgupg 7 6 0) := by rfl
theorem test_word_cins : decode (.scalar 0xD6428A80) = .ok (.cins 2 20 21 0) := by rfl
theorem test_word_cbind : decode (.scalar 0xD6A3D214) = .ok (.cbind 5 15 18 0) := by rfl
theorem test_word_cunbind : decode (.scalar 0xD6A1C018) = .ok (.cunbind 5 14 0) := by rfl
theorem test_word_ctxgrant : decode (.scalar 0xD8528A84) = .ok (.ctxgrant 5 20 21 0) := by rfl
theorem test_word_lit_pair : litMeaning 0x2468A (.addi 7 0 0x678 0) ≠ none := by decide
theorem test_word_ffma : decode (.lane (0x10C10141#32 ++ 0x81CA7510#32 ++ 0#32)) =
    .ok (.ffma { h := guarded 2 true 3 true, ty := .f32, sub := 1, vd := 4, va := 5, b := .reg 6,
                 c := .reg 7 }) := by rfl
theorem test_word_brd : decode (.lane (0x50400000#32 ++ 0x00040000#32 ++ 0x00050004#32)) =
    .ok (.brd (guarded 1) 0x00050004) := by rfl
theorem test_word_xlane : decode (.lane (0x408302C0#32 ++ 0x00004122#32 ++ 0x10#32)) =
    .ok (.xlane { h := guarded 0 false 2, sub := 2, vd := 12, va := 11, b := .imm 0x10, c := .reg 0 }) := by rfl
theorem test_word_ldgT : decode (.lane (0x900240C0#32 ++ 0x420000C9#32 ++ 0#32)) =
    .ok (.ldgT { h := guarded 0, sz := 4, reg := 9, m := { base := .uni 1, idx := some 8, sc := 2, disp := 0 } } 3) := by
  rfl
theorem test_word_ldg : decode (.lane (0x60804000#32 ++ 0x00C400C9#32 ++ 0#32)) =
    .ok (.ldg { h := guarded 1, sz := 4, reg := 1, m := { base := .uni 0, idx := some 3, sc := 2, disp := 0 } }) := by
  rfl
theorem test_word_laneAtomAdd : decode (.lane (0x7001C180#32 ++ 0x410401B9#32 ++ 0#32)) =
    .ok (.laneAtomAdd { h := guarded 1, ty := .n32, scope := 3, vd := 7, va := 6,
                        m := { base := .uni 1, idx := some 4, sc := 2, disp := 0 } }) := by rfl

/-! ### Ill-formed instructions and words are refused (R38) -/

/-- A register operand with no modifier, in a form of each shape. -/
def bin (ty : LTy) (sub : BitVec 4) (vd va : BitVec 8) (b : Opnd) : LBin :=
  { h := guarded 0, ty := ty, sub := sub, vd := vd, va := va, b := b }
def mem (sz : BitVec 3) (reg : BitVec 8) (base : LBase) : LMem :=
  { h := guarded 0, sz := sz, reg := reg, m := { base := base, idx := none, sc := 0, disp := 0 } }
def acc (e : Opnd) : LAcc := { h := guarded 0, sub := 0, reg := 1, tile := 0, e := e }

/-- An ill-formed term for each check has no word, and names its reason. -/
theorem test_ill_formed_terms :
    (Instr.cmp 1 2 3 6 0).err = some .reservedFn ∧
    (Instr.vote { h := guarded 0, op := 0, g := 1, wd := 1, ka := 1 }).err = some .unusedField ∧
    (Instr.atomAdd 1 2 3 0 7 0).err = some .reservedScope ∧
    (Instr.sigrel 3 1 2 0).err = some .reservedScope ∧
    (Instr.laneFenceAcq (guarded 0) 7).err = some .reservedScope ∧
    (Instr.stg (mem 1 2 (.uni 0))).err = some .reservedWidth ∧
    (Instr.ldg (mem 7 2 (.uni 0))).err = some .reservedWidth ∧
    (Instr.accrd (acc (.imm 0))).err = some .reservedKind ∧
    (Instr.laneBara (guarded 0) 1 (.reg 2)).err = some .reservedKind ∧
    (Instr.imad { h := guarded 0, ty := .n32, sub := 0, vd := 1, va := 2, b := .imm 0,
                  c := .imm 1 }).err = some .reservedKind ∧
    (Instr.iadd (bin .n32 2 1 2 (.reg 3))).err = some .reservedSub ∧
    (Instr.fadd (bin .f32 6 1 2 (.reg 3))).err = some .reservedSub ∧
    (Instr.fadd (bin .n32 0 1 2 (.reg 3))).err = some .reservedType ∧
    (Instr.iadd (bin .n64 0 2 4 (.reg 5))).err = some .unalignedRegister ∧
    (Instr.ldg (mem 6 2 (.uni 0))).err = some .unalignedRegister ∧
    (Instr.ldg (mem 4 2 (.pair 3))).err = some .unalignedRegister ∧
    (Instr.mfsr 1 6 0).err = some .systemRegister ∧
    (Instr.mtsr 1 2 0).err = some .systemRegister ∧
    (Instr.join (guarded 1)).err = some .guarded ∧
    (Instr.mtern 1 2 0).err = some .reservedValue ∧
    (Instr.lsig (guarded 0) 0).err = some .reservedValue := by decide

/-- The same of words: a cell that is ILLEGAL, a fn and a unused field (R18, R35, R38). -/
theorem test_ill_formed_words :
    decode (.scalar 0x1E000000) = .error .illegalCell ∧ decode (.scalar 0x00000004) = .error .reservedFn ∧
    decode (.scalar 0x82002000) = .error .unusedField ∧ decode (.scalar 0xC0080018) = .error .systemRegister := by
  exact ⟨rfl, rfl, rfl, rfl⟩

/-- The word 0x9610_C000 of R154 with the odd tile 3. -/
theorem test_ill_formed_tile : decode (.scalar 0x9618C000) = .error .reservedValue := rfl

/-! ### Small states

The witnesses run in the state that `State.withFetchWord` makes of the state after reset: one resident field
of context 0 with one swath, which is about to issue. -/

/-- The swath `w` is about to issue a scalar instruction. -/
def run (w : Swath) : State := (State.reset.withFetchWord 32 0).updSwathAt 0 0 (fun _ => w)
def foc (w : Swath) : Focus :=
  { party := .scalar 0 0, fid := 0, sw := 0, core := 0, ctx := 0, launch := 0, level := w.ctl.level, pager := none }
/-- A swath with the `x` registers of `l`. -/
def xw (l : NMap W64) : Swath := { codeSwath with regs := { codeSwath.regs with x := l } }

theorem clear_of {s : State} {F : Focus} {w : Swath} (hf : s.scalarFocus = some (F, w))
    (h : (w.regs.chk, w.ctl.entering) = (0, false)) (r ws : List RegName) : Clear s F w r ws := by
  obtain ⟨hc, he⟩ := Prod.mk.inj h
  exact ⟨hf, he, by simp [stallShort, hc], by simp [regionWar, hc]⟩

theorem clear (w : Swath) (h : (w.regs.chk, w.ctl.entering) = (0, false) := by rfl) (r ws : List RegName) : Clear (run w) (foc w) w r ws :=
  clear_of rfl h r ws

/-- The fragment of `w`'s lane stream is about to issue. -/
def runLane (w : Swath) : State := (State.reset.withFetchWord 96 0).updSwathAt 0 0 (fun _ => w)
def lfoc (w : Swath) : Focus :=
  { party := .lane 0 0 false, fid := 0, sw := 0, core := 0, ctx := 0, launch := 0, level := w.ctl.level, pager := none }
def frag0 : Frag := newFrag (presentMask 1) 0 0

def vBelow (n : Nat) : RegName → Bool
  | .v k => decide (k < n)
  | _ => true

theorem laneClear_of {s : State} {F : Focus} {w : Swath} {g : Frag} {b : Bool} {h : LHdr}
    (hf : s.laneFocus = some (F, w, g, b)) (hc : w.regs.chk = 0) (hl : w.lanes.late = []) (r ws : List RegName)
    (hv : (r ++ ws).all (vBelow w.vregs) = true) (whole : Bool := false) : LaneClear s F w g b h r ws whole := by
  refine ⟨hf, fun n hn => ?_, by simp [stallShort, hc], by simp [hl], by simp [regionWar, hc]⟩
  have := List.all_eq_true.mp hv _ hn
  simpa [vBelow] using this

theorem laneClear (h : LHdr) (r ws : List RegName) (hv : (r ++ ws).all (vBelow 256) = true) (whole : Bool := false) :
    LaneClear (runLane codeSwath) (lfoc codeSwath) codeSwath frag0 false h r ws whole :=
  laneClear_of rfl rfl rfl r ws hv whole

/-- The pager core of die 0 is about to issue. -/
def runPager (w : Swath) : State :=
  { (State.reset.withFetchWord 32 0xD238C000) with
    pagers := mput State.reset.pagers 0 { Pager.zero.withWord 0xD238C000 with sw := w } }
def pfoc : Focus :=
  { party := .pager 0, fid := 0, sw := 0, core := 0, ctx := 0, launch := 0, level := 0, pager := some 0 }

theorem clearPager (w : Swath) (h : (w.regs.chk, w.ctl.entering) = (0, false) := by rfl) (r ws : List RegName) : Clear (runPager w) pfoc w r ws :=
  clear_of rfl h r ws

/-! ### A witness for the hypotheses of each statement -/

theorem witness_RegisterForms : ∃ s F w, ∀ r ws, Clear s F w r ws := ⟨_, _, _, clear codeSwath⟩
set_option maxRecDepth 20000
set_option exponentiation.threshold 2000
theorem witness_Branches : ∃ w : Swath, (∀ r ws, Clear (run w) (foc w) w r ws) ∧ w.xr 1 = w.xr 1 ∧ w.xr 1 ≠ w.xr 2 ∧
    (w.xr 1).toInt < (w.xr 2).toInt ∧ ¬ (w.xr 1).toNat < (w.xr 2).toNat :=
  ⟨xw [(1, BitVec.allOnes 64), (2, 0)], clear _, by decide⟩

theorem witness_LitPairs : ∃ s F w v s1, s.scalarFocus = some (F, w) ∧ fetchScalar s F w 4 = .word v s1 ∧
    s1.scalarFocus = some (F, w) ∧ decodeScalar v = .ok (.addi 7 0 0x678 0) ∧ ∀ r ws, Clear s1 F w r ws :=
  ⟨State.reset.withFetchWord 32 0x203819E0FE02468A, foc codeSwath, codeSwath, _, _, rfl, rfl, rfl, rfl, fun _ _ => clear_of rfl rfl _ _⟩

theorem witness_LitPairs_refused : ∃ s F w v s1, s.scalarFocus = some (F, w) ∧ fetchScalar s F w 4 = .word v s1 ∧
    s1.scalarFocus = some (F, w) ∧ ∀ i, decodeScalar v = .ok i → litMeaning 0x2468A i = none :=
  ⟨State.reset.withFetchWord 32 0x1E000000FE02468A, foc codeSwath, codeSwath, _, _, rfl, rfl, rfl, fun _ h => nomatch h⟩

/-- The pair of `LIT 0` and the word `v`, about to issue. -/
def pair (v : BitVec 32) (w : Swath) : State :=
  (State.reset.withFetchWord 32 (v.toNat * 2 ^ 32 + 0xFE000000)).updSwathAt 0 0 (fun _ => w)
/-- Both words of the pair are fetched, and its swath is still about to issue. -/
def PairAt (w : Swath) (i : Instr) (s1 : State) : Prop :=
  ∃ v s, s.scalarFocus = some (foc w, w) ∧ fetchScalar s (foc w) w 4 = .word v s1 ∧ decodeScalar v = .ok i ∧
    ∀ r ws, Clear s1 (foc w) w r ws
theorem pairAt {w : Swath} {i : Instr} {s1 : State} {v u : BitVec 32} (h : fetchScalar (pair v w) (foc w) w 4 = .word u s1)
    (hf : (pair v w).scalarFocus = some (foc w, w)) (hd : decodeScalar u = .ok i)
    (hs : s1.scalarFocus = some (foc w, w)) (hc : (w.regs.chk, w.ctl.entering) = (0, false)) : PairAt w i s1 :=
  ⟨u, _, hf, h, hd, clear_of hs hc⟩

theorem witness_LitPairs_forms :
    (∃ w s1 x s2, PairAt w (.ldd 7 1 0 0) s1 ∧ (w.xr 1).toNat % 8 = 0 ∧ inWindow (foc w) (w.xr 1).toNat = false ∧
      gLoad (foc w) .l1 false s1 (w.xr 1).toNat 8 = .ok x s2) ∧
    (∃ w s1 s2, PairAt w (.std 7 1 0 0) s1 ∧ plainStore (foc w) s1 (w.xr 1).toNat (w.xr 7).toNat 8 = .ok () s2) ∧
    (∃ w s1 f o, PairAt w (.lds 7 1 0 0) s1 ∧ scratchAt s1 0 (w.xr 1).toNat 8 false = some (f, o)) ∧
    (∃ w s1 f o, PairAt w (.sts 7 1 0 0) s1 ∧ scratchAt s1 0 (w.xr 1).toNat 8 false = some (f, o)) :=
  ⟨⟨xw [(1, 0x20008)], _, _, _, pairAt (v := 0x4C382000) rfl rfl rfl rfl rfl, rfl, rfl, rfl⟩,
   ⟨xw [(1, 0x20008)], _, _, pairAt (v := 0x54382000) rfl rfl rfl rfl rfl, rfl⟩,
   ⟨xw [(1, 8)], _, _, _, pairAt (v := 0x56382000) rfl rfl rfl rfl rfl, rfl⟩,
   ⟨xw [(1, 8)], _, _, _, pairAt (v := 0x58382000) rfl rfl rfl rfl rfl, rfl⟩⟩

theorem witness_LitPairs_jalr : (codeSwath.xr 1 + 0).toNat % 4 = 0 ∧ (codeSwath.xr 1 + 2).toNat % 4 ≠ 0 ∧
    (∃ v s s1, s.scalarFocus = some (foc codeSwath, codeSwath) ∧ fetchScalar s (foc codeSwath) codeSwath 4 = .word v s1 ∧
      decodeScalar v = .ok (.jalr 7 1 0 0) ∧ ∀ r ws, Clear s1 (foc codeSwath) codeSwath r ws) ∧
    (∃ v s s1, s.scalarFocus = some (foc codeSwath, codeSwath) ∧ fetchScalar s (foc codeSwath) codeSwath 4 = .word v s1 ∧
      decodeScalar v = .ok (.jalr 7 1 2 0) ∧ ∀ r ws, Clear s1 (foc codeSwath) codeSwath r ws) :=
  ⟨by decide, by decide, ⟨_, pair 0x6E382000 codeSwath, _, rfl, rfl, rfl, fun _ _ => clear_of rfl rfl _ _⟩,
   ⟨_, pair 0x6E382008 codeSwath, _, rfl, rfl, rfl, fun _ _ => clear_of rfl rfl _ _⟩⟩

theorem witness_ScalarDivisionNeverTraps : ∃ w : Swath, (∀ r ws, Clear (run w) (foc w) w r ws) ∧ w.xr 0 = 0 ∧
    w.xr 1 = BitVec.intMin 64 ∧ w.xr 2 = BitVec.allOnes 64 ∧ w.xr 3 = 7 :=
  ⟨xw [(1, BitVec.intMin 64), (2, BitVec.allOnes 64), (3, 7)], clear _, by decide⟩

theorem witness_ScalarLoads : ∃ w : Swath, (∀ r ws, Clear (run w) (foc w) w r ws) ∧ (w.xr 1).toNat % 8 = 0 ∧
    inWindow (foc w) (w.xr 1).toNat = false ∧ (∃ v s1, gLoad (foc w) .l1 false (run w) (w.xr 1).toNat 8 = .ok v s1) ∧
    (w.xr 2).toNat % 2 ≠ 0 :=
  ⟨xw [(1, 0x20008), (2, 0x20007)], clear _, rfl, rfl, ⟨_, _, rfl⟩, by decide⟩

/-- A line of the core's L1, all of it valid, that may be read and written. -/
def line1 (va : Nat) : Copy :=
  { unit := 0, ctx := 0, va := va, dpa := va, r := true, w := true, x := true, s := false, cls := 0,
    valid := BitVec.allOnes 128, dirty := 0, data := 0 }

theorem witness_L1Hits : ∃ (s : State) (F : Focus) (va : Nat) (c : Copy), F.pager = none ∧ copyAt s.l1 F.core F.ctx (va / 128) = some c ∧
    (byteMask (va % 128) 8 &&& ~~~c.valid) = 0 ∧ c.permits (F.agent.access true false false) = true :=
  ⟨{ run codeSwath with l1 := [line1 0x400] }, foc codeSwath, 0x20008, line1 0x400, rfl, rfl, by decide, rfl⟩

theorem witness_ScalarStores : ∃ w : Swath, (∀ r ws, Clear (run w) (foc w) w r ws) ∧ (w.xr 1).toNat % 8 = 0 ∧
    inWindow (foc w) (w.xr 1).toNat = false ∧ (∃ s1, plainStore (foc w) (run w) (w.xr 1).toNat 5 8 = .ok () s1) ∧
    (w.xr 2).toNat % 2 ≠ 0 :=
  ⟨xw [(1, 0x20078), (2, 0x20007)], clear _, rfl, rfl, ⟨_, rfl⟩, by decide⟩

theorem witness_PlainStores : ∃ (s : State) (F : Focus) (va : Nat) (c : Copy), va % 128 + 8 ≤ 128 ∧ F.pager = none ∧
    copyAt s.l1 F.core F.ctx (va / 128) = some c ∧ c.permits (F.agent.access false true false) = true :=
  ⟨{ run codeSwath with l1 := [line1 0x400] }, foc codeSwath, 0x20078, _, by decide, rfl, rfl, rfl⟩

theorem witness_PlainStores_pager : ∃ s F va, va % 128 + 8 ≤ 128 ∧ (Focus.pager F).isSome ∧ pagerCheck s va = none ∧
    dregion va = .hbm ∧ dregion (va / 128 * 128) = .hbm ∧ writeHold s (va / 128) (byteMask (va % 128) 8) = none ∧
    s.mem.wf = true :=
  ⟨runPager Swath.zero, pfoc, 0x20078, by decide, rfl, rfl, rfl, rfl, rfl, rfl⟩

/-- The launch has a constant block of 64 bytes. -/
def withConst (w : Swath) : State :=
  { run w with launches := [(0, { codeLaunch with lrec := { codeLaunch.lrec with const := 0x20000, clen := 64 } })] }

theorem witness_ScratchpadForms : ∃ (w : Swath) (f o v : _), (∀ r ws, Clear (withConst w) (foc w) w r ws) ∧
    (w.xr 1).toNat % 8 = 0 ∧ scratchAt (withConst w) 0 (w.xr 1).toNat 8 false = some (f, o) ∧
    (∃ fd, (withConst w).field? f = some fd ∧ fd.spad.wf = true) ∧ constRd (withConst w) (foc w) (w.xr 1).toNat 8 = some (.ok v) :=
  ⟨xw [(1, 56)], _, _, _, fun _ _ => clear_of rfl rfl _ _, rfl, rfl, ⟨_, rfl, rfl⟩, rfl⟩

theorem witness_GlobalAccesses : ∃ s F v s1 s2 s3, gLoad F .l1 false s 0x20000 8 = .ok v s1 ∧
    gStore F .home false s 0x20000 1 8 = .ok () s2 ∧ gAtomic F .home false s 0x20000 8 (fun _ => some 3) = .ok v s3 :=
  ⟨run codeSwath, foc codeSwath, _, _, _, _, rfl, rfl, rfl⟩
/-- A swath with a handshake state, and `x` registers. -/
def mw (hs : Handshake) (l : NMap W64) (sig : Nat := 0) (go : Bool := false) : Swath :=
  { xw l with meet := { Meet.zero with hs := hs, sig := sig, go := go } }
/-- A swath whose scalar stream waits. -/
def ww (k : SWait) (l : NMap W64 := []) : Swath := { xw l with ctl := { Ctl.zero with wait := k } }
/-- A resident swath that waits is found again. -/
theorem resident (w : Swath) : (run w).residentAt 0 0 = some (foc w, w) := rfl

theorem witness_Calls : ∃ w : Swath, (∀ r ws, Clear (run w) (foc w) w r ws) ∧ (w.xr 1).toNat % 4 = 0 ∧
    (w.xr 2).toNat % 4 ≠ 0 := ⟨xw [(1, 0x20004), (2, 0x20002)], clear _, by decide⟩

theorem witness_UniformMoves : ∃ w : Swath, (∀ r ws, Clear (run w) (foc w) w r ws) ∧
    fmtOk ((w.regs.fmt &&& ~~~fmtMask 0x3F) ||| (w.xr 1 &&& fmtMask 0x3F)) = true ∧
    fmtOk ((w.regs.fmt &&& ~~~fmtMask 0x3F) ||| (w.xr 2 &&& fmtMask 0x3F)) = false :=
  ⟨xw [(1, 0x08B9), (2, 0xF)], clear _, by decide⟩

theorem witness_LaneStarts : (∃ w : Swath, (∀ r ws, Clear (run w) (foc w) w r ws) ∧
      (w.xr 1).toNat < (run w).llen 0 ∧ w.meet.hs = .idle) ∧
    (∃ w : Swath, (∀ r ws, Clear (run w) (foc w) w r ws) ∧ (run w).llen 0 ≤ (w.xr 1).toNat ∧
      (w.xr 2).toNat < (run w).llen 0 ∧ w.meet.hs ≠ .idle ∧ w.meet.hs = .running ∧ w.meet.go = false) ∧
    (∃ w : Swath, (∀ r ws, Clear (run w) (foc w) w r ws) ∧ w.meet.hs = .held) ∧
    (∃ w : Swath, (∀ r ws, Clear (run w) (foc w) w r ws) ∧ w.meet.hs = .running ∧ w.meet.go = true) :=
  ⟨⟨mw .idle [(1, 65535)], clear _, by decide⟩, ⟨mw .running [(1, 65536), (2, 65535)], clear _, by decide⟩,
   ⟨mw .held [], clear _, rfl⟩, ⟨mw .running [] 0 true, clear _, rfl, rfl⟩⟩

theorem witness_LwaitForms : (∃ w : Swath, (∀ r ws, Clear (run w) (foc w) w r ws) ∧ (w.xr 1).toNat ≤ 65535 ∧
      (w.xr 1).toNat ≤ w.meet.sig ∧ (w.xr 2).toNat ≤ 65535 ∧ w.meet.sig < (w.xr 2).toNat ∧ w.meet.hs = .running ∧
      65535 < (w.xr 3).toNat) ∧
    (∃ w : Swath, (∀ r ws, Clear (run w) (foc w) w r ws) ∧ w.meet.sig < (w.xr 1).toNat ∧ (w.xr 1).toNat ≤ 65535 ∧
      w.meet.hs ≠ .running) ∧
    (∃ w : Swath, (run w).residentAt 0 0 = some (foc w, w) ∧ w.ctl.wait = .lwait 3 0 ∧ 0 ≤ w.meet.sig ∧
      regionWar w.regs.chk w.ctl.rset [.x 3] = false) :=
  ⟨⟨mw .running [(1, 65534), (2, 65535), (3, 65536)] 65534, clear _, by decide⟩,
   ⟨mw .idle [(1, 65535)] 65534, clear _, by decide⟩, ⟨ww (.lwait 3 0), rfl, rfl, Nat.zero_le _, rfl⟩⟩

theorem witness_BarrierArrivals : ∃ b c : Bar, (b.pending ≠ 0 ∧ b.expected ≠ 4) ∧ (4095 : Nat) ≤ 4095 ∧ b.expected = 3 ∧
    b.pending + 1 = 3 ∧ c.pending = 0 ∧ c.pending + 1 ≠ 4095 ∧ c.pending + 1 = 1 :=
  ⟨⟨3, 2, true⟩, ⟨9, 0, false⟩, by decide⟩

theorem witness_ScalarBarriers_none : ∃ (s : State) (F : Focus) (w : Swath), F.pager = none ∧ s.bar F.fid 0 = none ∧
    ∀ r ws, Clear s F w r ws :=
  ⟨{ run codeSwath with fields := [(0, { codeField with bars := [] })] }, foc codeSwath, codeSwath, rfl, rfl,
   fun _ _ => clear_of rfl rfl _ _⟩

theorem witness_ScalarBarriers : (∃ (w : Swath) (bar bar' : Bar) (ph : Bool), (∀ r ws, Clear (run w) (foc w) w r ws) ∧
      (run w).bar 0 15 = some bar ∧ bar.arrive (w.xr 1).toNat = some (bar', ph) ∧ bar'.phase ≠ ph ∧
      ¬ (w.meet.barsDone = true ∧ w.meet.barsPc = w.regs.pc) ∧ bar.arrive (w.xr 0).toNat = none ∧
      barWaits (run w) 0 15 w.eng.stok = false) ∧
    (∃ (w : Swath) (bar bar' : Bar) (ph : Bool), (∀ r ws, Clear (run w) (foc w) w r ws) ∧
      (run w).bar 0 0 = some bar ∧ bar.arrive (w.xr 1).toNat = some (bar', ph) ∧ bar'.phase = ph ∧
      w.meet.barsDone = false) ∧
    (∃ w : Swath, (∀ r ws, Clear (run w) (foc w) w r ws) ∧ barWaits (run w) 0 3 w.eng.stok = true) ∧
    (∃ w : Swath, (∀ r ws, Clear (run w) (foc w) w r ws) ∧ w.meet.barsDone = true ∧ w.meet.barsPc = w.regs.pc ∧
      barWaits (run w) 0 3 w.eng.stok = false) ∧
    (∃ w : Swath, (run w).residentAt 0 0 = some (foc w, w) ∧ w.ctl.wait = .barw 3 ∧ barWaits (run w) 0 3 w.eng.stok = false) ∧
    (∃ w : Swath, (run w).residentAt 0 0 = some (foc w, w) ∧ w.ctl.wait = .bars 3 ∧ barWaits (run w) 0 3 w.eng.stok = false) :=
  ⟨⟨xw [(1, 1)], _, _, _, clear _, rfl, rfl, by decide, by decide, rfl, by decide⟩,
   ⟨xw [(1, 4095)], _, _, _, clear _, rfl, rfl, by decide, rfl⟩,
   ⟨{ codeSwath with eng := { Engines.zero with stok := tokSet 0 3 false } }, clear _, by decide⟩,
   ⟨{ codeSwath with meet := { Meet.zero with barsDone := true, barsPc := w64 codeVa } }, clear _, rfl, rfl, by decide⟩,
   ⟨ww (.barw 3), rfl, rfl, by decide⟩, ⟨ww (.bars 3), rfl, rfl, by decide⟩⟩

theorem witness_WaitmForms : (∃ (w : Swath) (v : Nat) (s1 s2 : State), (∀ r ws, Clear (run w) (foc w) w r ws) ∧
      (w.xr 1).toNat % 8 = 0 ∧ inWindow (foc w) (w.xr 1).toNat = false ∧
      waitmLook (foc w) (run w) 0 true (w.xr 1) (w.xr 0) true = .ok (some v) s1 ∧
      waitmLook (foc w) (run w) 0 true (w.xr 1) (w.xr 2) true = .ok none s2) ∧
    (∃ w : Swath, (∀ r ws, Clear (runPager w) pfoc w r ws) ∧ inWindow pfoc (w.xr 1).toNat = true) ∧
    (∃ (w : Swath) (f : Field) (v : Nat) (s1 : State), (run w).field? 0 = some f ∧ f.status = .resident ∧
      (run w).focusAt 0 0 = some (foc w, w) ∧ w.ctl.wait = .waitm 3 0 true 0x30000 0 ∧
      waitmLook (foc w) (run w) 0 true 0x30000 0 true = .ok (some v) s1 ∧
      regionWar w.regs.chk w.ctl.rset [.x 3] = false) :=
  ⟨⟨xw [(1, 0x30000), (2, 1)], _, _, _, clear _, rfl, rfl, rfl, rfl⟩,
   ⟨xw [(1, 0xF000000000000)], clearPager _, by decide⟩,
   ⟨ww (.waitm 3 0 true 0x30000 0), _, _, _, rfl, rfl, rfl, rfl, rfl, rfl⟩⟩

theorem witness_YieldAndExit : (∃ w : Swath, (∀ r ws, Clear (run w) (foc w) w r ws) ∧ w.meet.hs = .held) ∧
    (∃ w : Swath, (∀ r ws, Clear (run w) (foc w) w r ws) ∧ w.meet.hs ≠ .held ∧ exitReady w = false) ∧
    (∃ w : Swath, (∀ r ws, Clear (run w) (foc w) w r ws) ∧ exitReady w = true) ∧
    (∃ (w : Swath) (f : Field), (run w).residentAt 0 0 = some (foc w, w) ∧ w.ctl.wait = .exit ∧ exitReady w = true ∧
      (run w).field? 0 = some f) ∧
    (∃ f : Field, ∃ k v, mget f.sws k = some v ∧ k ≠ 0 ∧ v.ctl.exited = false) :=
  ⟨⟨mw .held [], clear _, rfl⟩, ⟨codeSwath, clear _, by decide, rfl⟩, ⟨mw .idle [], clear _, rfl⟩,
   ⟨{ ww .exit with meet := Meet.zero }, _, rfl, rfl, rfl, rfl⟩,
   ⟨{ codeField with sws := [(0, codeSwath), (1, codeSwath)] }, 1, codeSwath, rfl, by decide, rfl⟩⟩

theorem witness_SystemRegisterMoves : ∃ w : Swath, (∀ r ws, Clear (run w) (foc w) w r ws) ∧ fmtOk (w.xr 1) = true ∧
    fmtOk (w.xr 2) = false ∧ w.ctl.level = 0 := ⟨xw [(1, 0x08B9), (2, 0xF)], clear _, by decide⟩

theorem witness_SystemRegisterMoves_handler : ∃ w : Swath, (∀ r ws, Clear (run w) (foc w) w r ws) ∧ w.ctl.level = 1 :=
  ⟨{ codeSwath with ctl := { Ctl.zero with level := 1 } }, clear _, rfl⟩
theorem witness_AtomicForms : ∃ (w : Swath) (old : Nat) (s1 : State), (∀ r ws, Clear (run w) (foc w) w r ws) ∧
    (w.xr 1).toNat % 8 = 0 ∧ inWindow (foc w) (w.xr 1).toNat = false ∧ acquireClamped (run w) (foc w) 6 = false ∧
    loggedAtomic (foc w) 0 (scopeLevel (run w) 0 6) true (run w) (w.xr 1).toNat 8 (fun _ => some 1) = .ok old s1 ∧
    (w.xr 2).toNat % 4 ≠ 0 :=
  ⟨xw [(1, 0x20008), (2, 0x20002)], _, _, clear _, rfl, rfl, rfl, rfl, by decide⟩

theorem witness_AtomicBytes :
    (∃ (s : State) (F : Focus) (va : Nat) (c : Copy), va % 128 + 8 ≤ 128 ∧ F.pager = none ∧
      copyAt s.l1 F.core F.ctx (va / 128) = some c ∧ (byteMask (va % 128) 8 &&& ~~~c.valid) = 0 ∧
      c.permits (F.agent.access true true false) = true) ∧
    (∃ F xl s1, Focus.pager F = none ∧ atHome (run codeSwath) F.agent 0x20008 (F.agent.access true true false) false
      (byteMask (0x20008 % 128) 8) = .ok xl s1) ∧
    (∃ s F va, (Focus.pager F).isSome ∧ pagerCheck s va = none ∧ pagerShut s va = false ∧ dregion va = .hbm ∧
      dregion (va / 128 * 128) = .hbm ∧ readHold s (va / 128) (byteMask (va % 128) 8) = none ∧
      writeHold s (va / 128) (byteMask (va % 128) 8) = none ∧ s.mem.wf = true) :=
  ⟨⟨{ run codeSwath with l1 := [line1 0x400] }, foc codeSwath, 0x20078, line1 0x400, by decide, rfl, rfl, by decide, rfl⟩,
   ⟨foc codeSwath, _, _, rfl, rfl⟩,
   ⟨runPager Swath.zero, pfoc, 0x20078, rfl, rfl, rfl, rfl, rfl, rfl, rfl, rfl⟩⟩

/-- Context 0 with the widest scope `n` and the choice of R197. -/
def narrowed (n : Nat) (trap : Bool) (w : Swath) : State :=
  { run w with ctxs := [(0, { Context.root0 with policy := { Context.root0.policy with widest := n, clampTrap := trap } })] }

theorem witness_AtomicForms_clamped : ∃ w : Swath, Clear (narrowed 3 true w) (foc w) w [] [] ∧
    acquireClamped (narrowed 3 true w) (foc w) 4 = true := ⟨codeSwath, clear_of rfl rfl _ _, rfl⟩

theorem witness_AcquireForms : ∃ (w : Swath) (v : Nat) (s1 s2 s3 : State), (∀ r ws, Clear (run w) (foc w) w r ws) ∧
    (w.xr 1).toNat % 8 = 0 ∧ inWindow (foc w) (w.xr 1).toNat = false ∧ acquireClamped (run w) (foc w) 5 = false ∧
    scopedLoad (foc w) (run w) 5 (w.xr 1).toNat 8 = .ok v s1 ∧ releaseScope (run w) (foc w) 5 = some (5, false) ∧
    scopedStore (foc w) (run w) 5 (w.xr 1).toNat 0 8 = .ok () s2 ∧ partyRelease (foc w) (run w) 5 = .ok () s3 :=
  ⟨xw [(1, 0x20008)], _, _, _, _, clear _, rfl, rfl, rfl, rfl, rfl, rfl, rfl⟩

theorem witness_AcquireForms_clamped : (∃ w : Swath, Clear (narrowed 3 true w) (foc w) w [] [] ∧
      releaseScope (narrowed 3 true w) (foc w) 5 = none) ∧
    (∃ w : Swath, ∃ s1, Clear (narrowed 3 false w) (foc w) w [] [] ∧
      releaseScope (narrowed 3 false w) (foc w) 5 = some (3, true) ∧ partyRelease (foc w) (narrowed 3 false w) 3 = .ok () s1) :=
  ⟨⟨codeSwath, clear_of rfl rfl _ _, rfl⟩, ⟨codeSwath, _, clear_of rfl rfl _ _, rfl, rfl⟩⟩

theorem witness_CopiesOfScope : ∃ s s1 : State, releaseTo .home s 0 0 = .ok () s1 ∧
    ∃ c ∈ s1.l1, inL1 0 0 c = true :=
  ⟨{ run codeSwath with l1 := [line1 0x400] }, _, rfl, line1 0x400, by decide, rfl⟩

theorem witness_CacheRange : ∃ w : Swath, (∀ r ws, Clear (run w) (foc w) w r ws) ∧ (w.xr 0).toNat = 0 ∧
    0 < (w.xr 1).toNat ∧ (w.xr 1).toNat ≤ 2 ^ 40 ∧ 2 ^ 40 < (w.xr 2).toNat ∧
    ∃ s1, cacheClean .home (foc w) 0x20000 (w.xr 1).toNat (run w) = .ok () s1 :=
  ⟨xw [(1, 0x10000000000), (2, 0x10000000001)], clear _, rfl, by decide, by decide, by decide, _, rfl⟩

theorem witness_PrefetchHints : ∃ w : Swath, (∀ r ws, Clear (run w) (foc w) w r ws) ∧ w.eng.gathers < 255 ∧
    ¬ ((w.xr 1).extractLsb' 48 16 ≠ 0 ∨ (w.xr 1).extractLsb' 32 10 ≠ 0) ∧
    ((w.xr 2).extractLsb' 48 16 ≠ 0 ∨ (w.xr 2).extractLsb' 32 10 ≠ 0) ∧ (run w).swathAt 0 0 = some w :=
  ⟨{ xw [(1, 1), (2, 0x1000000000000)] with eng := { Engines.zero with gathers := 254, hints := [⟨3⟩] } },
   clear _, by decide, by decide, by decide, rfl⟩

theorem witness_SignalForms : ∃ (w : Swath) (v : Nat) (s1 s2 s4 : State), (∀ r ws, Clear (run w) (foc w) w r ws) ∧
    (w.xr 1).toNat % 8 = 0 ∧ inWindow (foc w) (w.xr 1).toNat = false ∧ releaseScope (run w) (foc w) 5 = some (5, false) ∧
    signalStore (foc w) (run w) 5 (w.xr 1).toNat 0 = .ok () s1 ∧ acquireClamped (run w) (foc w) 5 = false ∧
    scopedLoad (foc w) (run w) 5 (w.xr 1).toNat 8 = .ok v s2 ∧ scopedStore (foc w) (run w) 4 (w.xr 1).toNat 0 8 = .ok () s4 :=
  ⟨xw [(1, 0x20008)], _, _, _, _, clear _, rfl, rfl, rfl, rfl, rfl, rfl, rfl⟩

theorem witness_SignalForms_record : ∃ (w : Swath) (xl : Xl) (s1 : State),
    translate (run w) (foc w).agent.cluster 0 0x20008 ((foc w).agent.access true true false) = .ok xl ∧
    signalRoom (run w) (xl.dpa / 128) = true ∧ gStore (foc w) .home false (run w) 0x20008 0 8 = .ok () s1 :=
  ⟨codeSwath, _, _, rfl, rfl, rfl⟩

theorem witness_SignalForms_full : ∃ (s : State) (xl : Xl), (foc codeSwath).pager = none ∧
    translate s (foc codeSwath).agent.cluster 0 0x20008 ((foc codeSwath).agent.access true true false) = .ok xl ∧
    signalRoom s (xl.dpa / 128) = false :=
  ⟨{ run codeSwath with deferred := List.replicate 8 { line := 0x20008 / 128, ctx := 0, core := 0 } }, _, rfl, rfl, by decide⟩

theorem witness_SignalForms_records : ∃ (s s1 : State) (v : Nat) (xl : Xl), s.deferred ≠ [] ∧
    scopedLoad (foc codeSwath) s 5 0x20008 8 = .ok v s1 ∧
    translate s (foc codeSwath).agent.cluster 0 0x20008 ((foc codeSwath).agent.access true false false) = .ok xl ∧
    xl.zero = false :=
  ⟨{ run codeSwath with deferred := [{ line := 0x20008 / 128, ctx := 0, core := 0 }] }, _, _, _, by decide, rfl, rfl, rfl⟩

/-- A context with a handler, and a swath at a level of traps. -/
def handled (w : Swath) : State := { run w with ctxs := [(0, { Context.root0 with handler := 0x20000 })] }
def lw (n : Nat) (f : TFrame := .zero) : Swath := { codeSwath with ctl := { Ctl.zero with level := n, f1 := f, f2 := f } }

theorem witness_FaultLadder : (∃ (w : Swath) (r : Raise) (f : Field), (handled w).scalarFocus = some (foc w, w) ∧
      (handled w).field? 0 = some f ∧ r.cause.vectoring = true ∧ (handled w).handler 0 ≠ 0 ∧ w.ctl.level < 2 ∧ w.ctl.level = 1) ∧
    (∃ (w : Swath) (r : Raise) (f : Field), (run w).scalarFocus = some (foc w, w) ∧ (run w).field? 0 = some f ∧
      r.cause.vectoring = true ∧ (run w).handler 0 = 0 ∧ r.cause ≠ .software ∧ r.cause.parks = true) ∧
    (∃ (w : Swath) (r : Raise) (f : Field), (handled w).scalarFocus = some (foc w, w) ∧ (handled w).field? 0 = some f ∧
      r.cause.vectoring = false ∧ r.cause.parks = false) :=
  ⟨⟨lw 1, raise .firstTouch, _, rfl, rfl, rfl, by decide, by decide, rfl⟩,
   ⟨codeSwath, raise .firstTouch, _, rfl, rfl, rfl, rfl, by decide, rfl⟩,
   ⟨lw 2, raise .illegal, _, rfl, rfl, rfl, rfl⟩⟩

theorem witness_FaultLadder_gates : (∃ (w : Swath) (f : Field), (run w).field? 0 = some f ∧
      parkGate (run w) f 0 w = .go none) ∧
    (∃ (w : Swath) (n : _), (handled w).scalarFocus = some (foc w, w) ∧ w.ctl.wait = .wreg n ∧ w.ctl.entering = false) :=
  ⟨⟨codeSwath, _, rfl, rfl⟩, ⟨ww (.wreg 1), 1, rfl, rfl, rfl⟩⟩

theorem witness_TrapForm : (∃ w f, Clear (handled w) (foc w) w [] [] ∧ (handled w).handler 0 ≠ 0 ∧ w.ctl.level < 2 ∧
      (handled w).field? 0 = some f ∧ (foc w).party = .scalar 0 0 ∧ w.ctl.exited = false) ∧
    (∃ w f, Clear (handled w) (foc w) w [] [] ∧ w.ctl.level = 2 ∧ (handled w).field? 0 = some f) ∧
    (∃ w f, Clear (run w) (foc w) w [] [] ∧ (run w).handler 0 = 0 ∧ (run w).field? 0 = some f) :=
  ⟨⟨lw 1, _, clear_of rfl rfl _ _, by decide, by decide, rfl, rfl, rfl⟩, ⟨lw 2, _, clear_of rfl rfl _ _, rfl, rfl⟩,
   ⟨codeSwath, _, clear _ rfl _ _, rfl, rfl⟩⟩

/-- A swath in the handler of a lane trap, with its TRAP entry and the held handler fragment. -/
def trapEnt : StackEnt :=
  { mask := presentMask 1, jpc := 7, apc := 0, kind := .trap 1, nest := false, arm := false, abars := false, hbar := none,
    endPc := none, born := 0, heldArm := false, conv := false, jfmt := 0, afmt := 0, atok := 0 }
def laneTrapped : Swath :=
  { lw 1 { TFrame.zero with src := true, tpc := 0x20000 } with
    lanes := { codeSwath.lanes with f0 := some { newFrag (presentMask 1) 0 0 with held := true }, stack := [trapEnt] } }

theorem witness_HandlerForms : (∃ (w : Swath) (b : Bool) (i : Nat) (e : StackEnt) (g : Frag), (∀ r ws, Clear (run w) (foc w) w r ws) ∧
      0 < w.ctl.level ∧ (w.ctl.frame w.ctl.level).src = true ∧ w.lanes.heldHandler = some (b, i, e, g) ∧
      (w.xr 0).toNat < (run w).llen 0) ∧
    (∃ w : Swath, (∀ r ws, Clear (run w) (foc w) w r ws) ∧ w.ctl.level = 2 ∧ (w.ctl.frame w.ctl.level).src = false) ∧
    (∃ (w : Swath) (g : Frag), (∀ r ws, Clear (run w) (foc w) w r ws) ∧ w.ctl.level = 0 ∧ (run w).swathAt 0 0 = some w ∧
      w.lanes.get false = some g ∧ g.pend = true) :=
  ⟨⟨laneTrapped, _, _, _, _, clear _, by decide, rfl, rfl, by decide⟩, ⟨lw 2, clear _, rfl, rfl⟩,
   ⟨{ codeSwath with lanes := { codeSwath.lanes with f0 := some { newFrag (presentMask 1) 0 0 with pend := true } } },
    _, clear _, rfl, rfl, rfl, rfl⟩⟩

/-- Two arms with a pending fault each, the second's raised first. -/
def twoPending : Swath :=
  { codeSwath with lanes := { codeSwath.lanes with
      f0 := some { newFrag (presentMask 1) 0 0 with pend := true, pendAt := 2 },
      f1 := some { newFrag (presentMask 1) 0 0 with pend := true, pendAt := 1 } } }
theorem witness_HandlerForms_order : ∃ (w : Swath) (g o : Frag), (run w).swathAt 0 0 = some w ∧ w.ctl.level = 0 ∧
    w.lanes.get true = some g ∧ w.lanes.get false = some o ∧ g.pendAt < o.pendAt ∧ g.pendAt ≠ 0 :=
  ⟨twoPending, _, _, rfl, rfl, rfl, rfl, by decide, by decide⟩

theorem witness_ParkForm_gate : ∃ (w : Swath), Clear (run w) (foc w) w [] [] ∧ 0 < w.ctl.level ∧
    w.ctl.f1.cause = Cause.software.code ∧ ∀ f, (run w).field? 0 = some f → parkGate (run w) f 0 w.giveUp = .go none :=
  ⟨lw 1 { TFrame.zero with cause := Cause.software.code }, clear _ rfl _ _, by decide, rfl, fun _ h => by cases h; rfl⟩

theorem witness_ParkForm : (∃ w : Swath, Clear (run w) (foc w) w [] [] ∧ 0 < w.ctl.level ∧
      w.ctl.f1.cause = Cause.firstTouch.code) ∧ (∃ w : Swath, Clear (run w) (foc w) w [] [] ∧ w.ctl.level = 0) :=
  ⟨⟨lw 1 { TFrame.zero with cause := Cause.firstTouch.code }, clear _ rfl _ _, by decide, rfl⟩, ⟨lw 0, clear _ rfl _ _, rfl⟩⟩

theorem witness_SystemForms_mapft : ∃ (w : Swath) (p : Nat × State), (∀ r ws, Clear (run w) (foc w) w r ws) ∧
    0 < w.ctl.level ∧ bindAt (run w) (foc w).agent.cluster 0 (w.xr 0).toNat = .ok p := by
  have h : (bindAt (run (lw 1)) (foc (lw 1)).agent.cluster 0 ((lw 1).xr 0).toNat).isOk = true := by decide +kernel
  match e : bindAt (run (lw 1)) (foc (lw 1)).agent.cluster 0 ((lw 1).xr 0).toNat, h with
  | .ok p, _ => exact ⟨lw 1, p, clear _, by decide, e⟩

/-- Memory of which the reserve of die 0 holds the frame 9, in the state `st`. -/
def reserved (st : FrState) : State :=
  { run codeSwath with
    frames := [(9, { Frame.zero with role := .reserve, st := st })] }

theorem witness_SystemForms_bind :
    (∃ s : State, (s.localUnit 5 || (cacheFrame s 5).isSome) = true) ∧
    (∃ s : State, (s.localUnit 5 || (cacheFrame s 5).isSome) = false ∧ s.frameBudget 0 ≤ heldFrames s 0) ∧
    (∀ st ∈ [FrState.free, .filling], ∃ s : State, (s.localUnit 5 || (cacheFrame s 5).isSome) = false ∧
      heldFrames s 0 < s.frameBudget 0 ∧ (∀ p ∈ s.frames, s.frame p.1 = p.2) ∧ s.mem.wf = true ∧
      ∀ p ∈ s.frames, p.1 / framesPerDie = homeDie (5 * 65536) ∧ (s.frame p.1).role = .reserve ∧
        (s.frame p.1).st = st ∧ frameFenced s p.1 = false) :=
  ⟨⟨{ run codeSwath with zeroUnits := [5] }, by decide⟩, ⟨run codeSwath, by decide, by decide⟩,
   fun st _ => ⟨reserved st, by decide +revert, by cases st <;> decide, by cases st <;> decide, rfl,
     by cases st <;> decide +kernel⟩⟩

/-- An error that waits for nothing. -/
def ungated {α : Type} : Except XErr α → Bool
  | .error e => e.gate.isNone
  | .ok _ => false
theorem ungated_error {α : Type} {r : Except XErr α} (h : ungated r = true) : ∃ e, r = .error e ∧ e.gate = none := by
  cases r <;> simp_all [ungated]
/-- A handler with an address in `x1` that no table maps. -/
def high : Swath := { xw [(1, 0x8000000000000000)] with ctl := { Ctl.zero with level := 1 } }
theorem witness_SystemForms_mapft_fails : ∃ (s : State) (w : Swath) (e : XErr), Clear s (foc w) w (xs [1]) (xs [2]) ∧ 0 < w.ctl.level ∧
    bindAt s (foc w).agent.cluster (foc w).ctx (w.xr 1).toNat = .error e ∧ e.gate = none := by
  obtain ⟨x, hx, hg⟩ := ungated_error (r := bindAt (run high) 0 0 (high.xr 1).toNat) (by decide +kernel)
  exact ⟨run high, high, x, clear high rfl _ _, by decide, hx, hg⟩

theorem witness_SystemForms_brkpt :
    (∃ (w : Swath) (x : Context), Clear (run w) (foc w) w [] [] ∧ (run w).ctx? 0 = some x ∧ x.policy.debug = true) ∧
    (∃ (s : State) (w : Swath) (x : Context), Clear s (foc w) w [] [] ∧ s.ctx? 0 = some x ∧ x.policy.debug = false) :=
  ⟨⟨codeSwath, _, clear _ rfl _ _, rfl, rfl⟩,
   ⟨{ run codeSwath with ctxs := [(0, { Context.root0 with policy := { Context.root0.policy with debug := false } })] },
    codeSwath, _, clear_of rfl rfl _ _, rfl, rfl⟩⟩

theorem witness_SystemForms_tlbi : ∃ (w : Swath) (s1 : State), (∀ r ws, Clear (run w) (foc w) w r ws) ∧ w.ctl.level = 0 ∧
    0 < (w.xr 1).toNat ∧ (w.xr 1).toNat ≤ 2 ^ 56 ∧ invalidate (run w) 0 0 (w.xr 1).toNat = .ok () s1 :=
  ⟨xw [(1, 0x100000000000000)], _, clear _, rfl, by decide, by decide, rfl⟩

theorem witness_SystemForms_context : (∃ s1, invalidate (run codeSwath) 0 0 (2 ^ 64) = .ok () s1) ∧
    mayTlbi (run codeSwath) 0 0 = true ∧ mayTlbi (run codeSwath) 0 4095 = false :=
  ⟨⟨_, rfl⟩, by decide +kernel, by decide +kernel⟩

theorem witness_WaitingRecords : ∃ (s s' : State) (x : RingWait) (seq : W32), s.ringWaits = [x] ∧ x.ctx = 0 ∧
    x.service = false ∧ ringTry s x.die 0 x.retry x.words = .done s' seq :=
  ⟨{ run codeSwath with
      ctxs := [(0, { Context.root0 with retry := { base := 0x30040, size := 4, prod := 0, lost := 0 } })]
      ringWaits := [{ ctx := 0, retry := true, words := List.replicate 8 0, req := none, service := false, die := 0 }] },
   _, _, _, rfl, rfl, rfl, rfl⟩
/-- A swath in formats `fmt` with registers and engine state, in a field with a scratchpad. -/
def ew (fmt : W64) (l : NMap W64) (e : Engines := .zero) : Swath :=
  { xw l with regs := { (xw l).regs with fmt := fmt }, eng := e }
def pad (l : List (Nat × Nat)) : Mem := l.foldl (fun (m : Mem) (x : Nat × Nat) => m.wrN x.1 8 x.2) []
def padField (p : Mem) (w : Swath) : Field := { codeField with spad := p, sws := [(0, w)] }
def padded (p : Mem) (w : Swath) : State := { run w with fields := [(0, padField p w)] }

/-- Descriptors at 0x8000, 0x8040 and 0x8080: a multiplication of one row by 64 elements, a ternary one by
128, and a drain of one row. -/
def descs : Mem :=
  pad [(0x8000, 128 * 2 ^ 20 + 2 ^ 36 + 64 * 2 ^ 43), (0x8008, 0x2000 + 2 ^ 20), (0x8040, 128 * 2 ^ 20 + 2 ^ 36 + 128 * 2 ^ 43),
       (0x8048, 0x2000 + 2 ^ 20), (0x8080, 0x9000 + 256 * 2 ^ 20 + 2 ^ 36)]

theorem witness_MatrixIssue : (∃ w : Swath, (∀ r ws, Clear (padded descs w) (foc w) w r ws) ∧ w.eng.matrix < 255 ∧
      (15#4).toNat < ((padded descs w).matrixSide 0).1 ∧ (w.xr 1).toNat % 128 = 0 ∧
      (w.xr 1).toNat + 4096 ≤ ((padded descs w).matrixSide 0).2 ∧ 1 ≤ fmtWF w.regs.fmt ∧ fmtWF w.regs.fmt < 8 ∧
      (w.xr 3).toNat + planeBytes (fmtWF w.regs.fmt) ≤ ((padded descs w).matrixSide 0).2 ∧ mulFmtOk false w.regs.fmt = true ∧
      opTrap (descAt (padded descs w) 0 (w.xr 2).toNat) false w.regs.fmt w.eng.fpFormats.1 ((padded descs w).matrixSide 0).2 = none ∧
      (w.xr 2).toNat % 128 = 0 ∧ (w.xr 4).toNat % 128 ≠ 0) ∧
    (∃ w : Swath, (∀ r ws, Clear (padded descs w) (foc w) w r ws) ∧ mulFmtOk true w.regs.fmt = true ∧
      (14#4).toNat + 1 < ((padded descs w).matrixSide 0).1 ∧ (14#4).toNat % 2 = 0 ∧
      opTrap (descAt (padded descs w) 0 (w.xr 1).toNat) true w.regs.fmt w.eng.fpFormats.1 ((padded descs w).matrixSide 0).2 = none) ∧
    (∃ w : Swath, (∀ r ws, Clear (padded descs w) (foc w) w r ws) ∧ drainFmtOk w.regs.fmt = true ∧
      drainTrap (descAt (padded descs w) 0 (w.xr 1).toNat) w.regs.fmt ((padded descs w).matrixSide 0).2 = none) ∧
    (∃ w : Swath, (∀ r ws, Clear (run w) (foc w) w r ws) ∧ 255 ≤ w.eng.matrix) ∧
    (∃ s F w, Clear s F w [] [] ∧ (State.matrixSide s F.fid).1 ≤ (0#4).toNat ∧ w.eng.matrix < 255) :=
  ⟨⟨ew 0x11 [(1, 0xF000), (2, 0x8000), (3, 0xE000), (4, 0x40)], fun _ _ => clear_of rfl rfl _ _, by decide, by decide, rfl, by decide, by decide,
     by decide, by decide, rfl, rfl, rfl, by decide⟩,
   ⟨ew 0x8B9 [(1, 0x8040)], fun _ _ => clear_of rfl rfl _ _, rfl, by decide, rfl, rfl⟩,
   ⟨ew 0x11 [(1, 0x8080)], fun _ _ => clear_of rfl rfl _ _, rfl, rfl⟩,
   ⟨ew 0 [] { Engines.zero with matrix := 255 }, clear _, by decide⟩,
   ⟨{ run codeSwath with fields := [(0, { codeField with tiles := 0 })] }, foc codeSwath, codeSwath, clear_of rfl rfl _ _,
    by decide, by decide⟩⟩

/-- A matrix operation of a kind that has done `n` K-steps. -/
def matOp (kind n : Nat) (closed : Bool := false) : MatOp :=
  { kind := kind, tile := 0, prog := n, batch := 0, closed := closed, fmt := 0x8B9, gen := 0, src := 0,
    desc := descAt (padded descs codeSwath) 0 0x8000, flags := 0 }

theorem witness_BatchesAndGrowth : (∃ (w : Swath) (f : Field) (l : Launch), (∀ r ws, Clear (run w) (foc w) w r ws) ∧
      (w.xr 1).toNat < 65536 ∧ batchAge w ((w.xr 1).setWidth 16) < 32768 ∧ batchDone w ((w.xr 1).setWidth 16) = true ∧
      (run w).field? 0 = some f ∧ mget (run w).launches f.launch = some l ∧
      (growField (run w) f (l.lrec.mw != 0) 0 0).1 = 0 ∧ (growField (run w) f (l.lrec.mw != 0) 17 0).1 ≠ 0) ∧
    (∃ w : Swath, (∀ r ws, Clear (run w) (foc w) w r ws) ∧ batchDone w ((w.xr 1).setWidth 16) = false ∧
      batchAge w ((w.xr 1).setWidth 16) < 32768) ∧
    (∃ w : Swath, (run w).residentAt 0 0 = some (foc w, w) ∧ w.ctl.wait = .mwait 0 ∧ batchDone w 0 = true) :=
  ⟨⟨ew 0 [(1, 0)] { Engines.zero with nb := 32768 }, _, _, clear _, by decide, by decide, rfl, rfl, rfl, rfl, by decide⟩,
   ⟨ew 0 [(1, 0)] { Engines.zero with nb := 1, mq := [matOp 7 0 true] }, clear _, by decide, by decide⟩, ⟨ww (.mwait 0), rfl, rfl, rfl⟩⟩

theorem witness_MatrixOperationsRunAndComplete : ∀ k ∈ [(5, 0), (5, 1), (6, 0), (7, 0), (3, 0), (4, 0), (1, 0), (2, 0), (8, 0)],
    ∃ (f : Field) (w : Swath) (o : MatOp), (padded descs w).field? 0 = some f ∧ f.status = .resident ∧
      mget f.sws 0 = some w ∧ w.eng.mq = [o] ∧ o.kind = k.1 ∧ o.prog = k.2 ∧ (k = (5, 0) → o.isMul = true ∧ o.prog < o.steps) ∧
      (k = (5, 1) → o.isMul = true ∧ o.steps ≤ o.prog) := by
  intro k hk
  refine ⟨_, ew 0x11 [] { Engines.zero with mq := [matOp k.1 k.2] }, matOp k.1 k.2, rfl, rfl, rfl, rfl, rfl, rfl, ?_, ?_⟩
  · rintro rfl; exact ⟨rfl, by decide⟩
  · rintro rfl; exact ⟨rfl, by decide⟩

theorem witness_ChainStarts : (∃ w : Swath, (∀ r ws, Clear (run w) (foc w) w r ws) ∧ w.eng.copies < 255 ∧
      (w.xr 1).toNat % 64 = 0 ∧ (w.xr 1).toNat + 1 ≤ ((run w).matrixSide 0).2 ∧ w.eng.counter 0 ≤ (w.xr 2).toNat ∧
      (w.xr 0).toNat < w.eng.counter 0 ∧ (w.xr 0).toNat < 255) ∧
    (∃ w : Swath, (run w).residentAt 0 0 = some (foc w, w) ∧ w.ctl.wait = .waitc 0 0 ∧ w.eng.counter 0 ≤ 0) ∧
    (∃ (w : Swath) (p : Mem) (v : Nat) (v' : Nat) (s1 s2 : State), (∀ r ws, Clear (padded p w) (foc w) w r ws) ∧
      pbPlace (padded p w) 0 (w.xr 1).toNat = .ok (0, 8) ∧ 0 < (w.xr 2).toNat ∧ (w.xr 2).toNat < 65536 ∧
      pbArrive (scratchRd (padded p w) 0 8 8) (w.xr 3).toNat = some v' ∧ pbRelease (padded p w) 0 0 0 0 0 = .ok () s1 ∧
      pbLook (padded p w) (foc w) (w.xr 1) true = .ok (some (v, s2)) ∧
      pbLook (padded p w) (foc w) (w.xr 1) false = .ok none) ∧
    (∃ (w : Swath) (v : Nat) (s1 : State), (padded (pad [(8, 0x10001)]) w).residentAt 0 0 = some (foc w, w) ∧
      w.ctl.wait = .pbwait 3 8 true ∧ pbLook (padded (pad [(8, 0x10001)]) w) (foc w) 8 true = .ok (some (v, s1)) ∧
      regionWar w.regs.chk w.ctl.rset [.x 3] = false) :=
  ⟨⟨ew 0 [(1, 0xFFC0), (2, 1)] { Engines.zero with copies := 1 }, clear _, by decide, rfl, by decide, by decide, by decide, by decide⟩,
   ⟨ww (.waitc 0 0), rfl, rfl, by decide⟩,
   ⟨xw [(1, 8), (2, 65535), (3, 1)], pad [(8, 0x10001)], _, _, _, _, fun _ _ => clear_of rfl rfl _ _, rfl, by decide, by decide, rfl, rfl, rfl, rfl⟩,
   ⟨ww (.pbwait 3 8 true), _, _, rfl, rfl, rfl, rfl⟩⟩

theorem witness_PhaseBarrierArrivals : (0 : Nat) < 65535 ∧ (65535 : Nat) ≤ 65535 ∧ (0 : Nat) < 1 ∧ (1 : Nat) < 65535 ∧
    (65535 : Nat) < 65536 := by decide

/-- Entries of a chain: END at 0, then COPY, GATHER, LOOP, SKIPIF and ARRIVE. -/
def entries : Mem :=
  pad [(64, 0x61), (72, 0x4000), (80, 0x5000), (88, 8 + 2 ^ 32 + 2 ^ 48), (128, 0x42), (136, 0x30000), (144, 0x6000),
       (152, 0x7000 + 0x7100 * 2 ^ 32), (160, 1 + 8 * 2 ^ 32), (192, 3), (200, 0x20001), (256, 4), (264, 0x100 + 2 ^ 40), (320, 5),
       (328, 0x8100 + 2 ^ 32), (0x8100, 0x10001)]
def chainAtEntry (cur : Nat) (done : Bool := false) : Chain := { newChain 1 0 with cur := cur, done := done }
def chained (cur : Nat) (done : Bool := false) : Swath := ew 0 [] { Engines.zero with chains := [chainAtEntry cur done], copies := 1 }
def entryWords (cur : Nat) : List W64 := (List.range 8).map (fun i => BitVec.ofNat 64 (entries.rdN (cur + 8 * i) 8))

/-- The chain once it has reached its entry. -/
def reached_ (cur : Nat) : Chain := (chainAtEntry cur).reach (padField entries (chained cur))

theorem at_entry (cur kind : Nat) (h : cur + 64 ≤ 65536 ∧ entryOk (entryWords cur) = true ∧ fld ((entryWords cur).getD 0 0) 3 0 = kind) :
    AtEntry (padded entries (chained cur)) 0 0 1 kind (padField entries (chained cur)) (chained cur) (reached_ cur)
      (entryWords cur) :=
  ⟨chainAtEntry cur, rfl, rfl, h.1, rfl, rfl, fun _ => rfl, h.2.1, h.2.2, rfl⟩

theorem witness_ChainSteps_copy : ∃ s f w c d c' s1, AtEntry s 0 0 1 1 f w c d ∧
    copyStep 0 f (engineAgent f w) c d (s.setChain 0 0 c) = .ok c' s1 := ⟨_, _, _, _, _, _, _, at_entry 64 1 (by decide), rfl⟩
theorem witness_ChainSteps_gather : ∃ s f w c d c' s1, AtEntry s 0 0 1 2 f w c d ∧
    gatherStep 0 f (engineAgent f w) c d (s.setChain 0 0 c) = .ok c' s1 := ⟨_, _, _, _, _, _, _, at_entry 128 2 (by decide), rfl⟩
theorem witness_ChainSteps_loop : ∃ s f w c d c' s1, AtEntry s 0 0 1 3 f w c d ∧
    loopStep 0 f (engineAgent f w) c d (s.setChain 0 0 c) = .ok c' s1 := ⟨_, _, _, _, _, _, _, at_entry 192 3 (by decide), rfl⟩
theorem witness_ChainSteps_skipif : ∃ s f w c d k o, AtEntry s 0 0 1 4 f w c d ∧ fld (d.getD 1 0) 31 0 % 4 = 0 ∧
    fld (d.getD 1 0) 45 40 ≠ 0 ∧ skipsLoop f c.cur (fld (d.getD 1 0) 45 40) = false ∧
    scratchAt (s.setChain 0 0 c) 0 (fld (d.getD 1 0) 31 0) 4 false = some (k, o) :=
  ⟨_, _, _, _, _, _, _, at_entry 256 4 (by decide), rfl, by decide, by decide, rfl⟩
theorem witness_ChainSteps_arrive : ∃ s f w c d k o v s1, AtEntry s 0 0 1 5 f w c d ∧ fld (d.getD 1 0) 31 0 % 8 = 0 ∧
    fld (d.getD 1 0) 47 32 ≠ 0 ∧ scratchAt (s.setChain 0 0 c) 0 (fld (d.getD 1 0) 31 0) 8 false = some (k, o) ∧
    pbArrive (scratchRd (s.setChain 0 0 c) k o 8) (fld (d.getD 1 0) 47 32) = some v ∧
    pbRelease (s.setChain 0 0 c) 0 f.launch (engineAgent f w).core (engineAgent f w).ctx k = .ok () s1 :=
  ⟨_, _, _, _, _, _, _, _, _, at_entry 320 5 (by decide), rfl, by decide, rfl, rfl, rfl⟩
theorem witness_ChainSteps_end : (∃ s f w c d, AtEntry s 0 0 1 0 f w c d) ∧
    (∃ w c, (run w).swathAt 0 0 = some w ∧ w.eng.chains = [c] ∧ c.done = true) :=
  ⟨⟨_, _, _, _, _, at_entry 0 0 (by decide)⟩, ⟨chained 0 true, _, rfl, rfl, rfl⟩⟩
theorem witness_ChainSteps_pages : rowPages (run codeSwath) (engineAgent codeField codeSwath) 0x20000 8 = ([], none) := rfl

theorem witness_CopiedBytes : (∃ (s : State) (f : Field), s.field? 0 = some f ∧ f.spad.wf = true ∧ 0 + 8 ≤ f.scrKib * 1024 ∧
      (0x4000 : Nat) + 8 ≤ 2 ^ 64 ∧ 0x4000 + 8 ≤ f.scrKib * 1024) ∧
    (∃ (s : State) (A : Agent) (c : Copy) (f : Field), s.field? 0 = some f ∧ f.spad.wf = true ∧ (0x20078 : Nat) % 128 + 8 ≤ 128 ∧
      copyAt s.l1 A.core A.ctx (0x20078 / 128) = some c ∧ byteMask (0x20078 % 128) 8 &&& ~~~c.valid = 0 ∧
      c.permits (A.access true false false) = true ∧ c.permits (A.access false true false) = true) :=
  ⟨⟨run codeSwath, _, rfl, rfl, by decide, by decide, by decide⟩,
   ⟨{ run codeSwath with l1 := [line1 0x400] }, engineAgent codeField codeSwath, line1 0x400, _, rfl, rfl, by decide, rfl,
    by decide, rfl, rfl⟩⟩
/-- A lane swath: lanes of the fragment, predicates, uniform registers of the lane view, lane registers. -/
def vsw (m : LaneMask) (k : NMap LaneMask := []) (u : NMap W64 := []) (v : NMap W32 := []) (fmt : W64 := 0) : Swath :=
  { codeSwath with
    regs := { codeSwath.regs with k := k, wL := u, v := v },
    lanes := { codeSwath.lanes with f0 := some (newFrag m 0 fmt) } }

theorem lclear (h : LHdr) (m : LaneMask) (k : NMap LaneMask) (u : NMap W64) (v : NMap W32) (fmt : W64) (r ws : List RegName)
    (hv : (r ++ ws).all (vBelow 256) = true) (whole : Bool := false) :
    LaneClear (runLane (vsw m k u v fmt)) (lfoc (vsw m k u v fmt)) (vsw m k u v fmt) (newFrag m 0 fmt) false h r ws whole :=
  laneClear_of rfl rfl rfl r ws hv whole

theorem witness_LaneIntegerForms : (∃ s F w g b, LaneClear s F w g b (guarded 0)
      (vregs (254#8).toNat 2 ++ opNames (.reg 252) .n64) (vregs (250#8).toNat 2)) ∧
    (∃ s F w g b, LaneClear s F w g b (guarded 1 true 0 true)
      (vregs (255#8).toNat 1 ++ opNames (.imm 3) .n32 ++ opNames (.reg 9) .n32) (vregs (255#8).toNat 1)) :=
  ⟨⟨_, _, _, _, _, laneClear _ _ _ (by decide)⟩, ⟨_, _, _, _, _, laneClear _ _ _ (by decide)⟩⟩

theorem witness_LaneFloatAndPackedForms : packFmt .n8x4 = none ∧ packFmt .f16x2 = some binary16 ∧ packFmt .bf16x2 = some bf16 ∧
    ∃ s F w g b, LaneClear s F w g b (guarded 2) (.v (255#8).toNat :: (opNames (.reg 0) .f32 ++ opNames (.imm 1) .f32))
      (vregs (0#8).toNat 1) := ⟨rfl, rfl, rfl, _, _, _, _, _, laneClear _ _ _ (by decide)⟩

theorem witness_LanePredicatesAndMoves : (∃ s F w g b f, LaneClear s F w g b (guarded 0) [.sr 7] (vregs (254#8).toNat 2) ∧
      State.field? s F.fid = some f) ∧
    (∃ s F w g b, LaneClear s F w g b (guarded 0) (.v (255#8).toNat :: opNames (.reg 1) .f32) [.k (15#4).toNat]) :=
  ⟨⟨_, _, _, _, _, _, laneClear _ _ _ (by decide), rfl⟩, ⟨_, _, _, _, _, laneClear _ _ _ (by decide)⟩⟩

theorem witness_CrossLane : ∀ seg < 4, (0 : Nat) < 1024 ∧ (31 : Nat) < 32 ∧ ∃ sub : BitVec 4, sub.toNat / 4 = seg ∧ sub.toNat % 4 = 3 := by
  decide

theorem witness_ReductionsVotesAndScans : (∃ s F w g b, LaneClear s F w g b (guarded 1) (vregs (254#8).toNat 2) [.w (15#4).toNat] ∧
      LTy.n64 ≠ .f32) ∧
    (∃ s F w g b, LaneClear s F w g b (guarded 1) [.k (15#4).toNat] [.w (0#4).toNat]) ∧
    (∃ s F w g b, LaneClear s F w g b (guarded 0) [.v (255#8).toNat] [.v (255#8).toNat]) ∧
    (∃ u, (run u).swathAt 0 0 = some u ∧ u.lanes.late ≠ []) :=
  ⟨⟨_, _, _, _, _, laneClear _ _ _ (by decide), by decide⟩, ⟨_, _, _, _, _, laneClear _ _ _ (by decide)⟩,
   ⟨_, _, _, _, _, laneClear _ _ _ (by decide)⟩,
   ⟨{ codeSwath with lanes := { codeSwath.lanes with late := [{ second := false, w := 3, value := 7, flags := 0 }] } }, rfl, by decide⟩⟩

/-- The stack entries of a split whose fragment stands at PC 0. -/
def splitEnt (k : EntKind) (jpc : W32) (heldArm : Bool := true) : StackEnt :=
  { mask := 2, jpc := jpc, apc := 5, kind := k, nest := false, arm := false, abars := false, hbar := none, endPc := none,
    born := 1, heldArm := heldArm, conv := false, jfmt := 0, afmt := 0, atok := 0 }
/-- A lane swath with a stack and perhaps a second fragment, `k1` true in lane 0 alone. -/
def stacked (st : List StackEnt) (f1 : Option Frag := none) (f0 : Frag := newFrag 3 0 0) : Swath :=
  let w := vsw 3 [(1, 1), (2, 0), (3, 3)]
  { w with lanes := { w.lanes with f0 := some f0, f1 := f1, stack := st, births := 2 } }

theorem witness_LaneBranches : (∃ w g, LaneClear (runLane w) (lfoc w) w g false (guarded 0) [.k (0#4).toNat] [] true ∧
      active (lfoc w) w g false (guarded 0) = g.mask ∧ g.mask ≠ 0) ∧
    (∃ w g, LaneClear (runLane w) (lfoc w) w g false (guarded 2) [.k (2#4).toNat] [] true ∧
      active (lfoc w) w g false (guarded 2) = 0 ∧ g.mask ≠ 0) ∧
    (∃ w g, LaneClear (runLane w) (lfoc w) w g false (guarded 1) [.k (1#4).toNat] [] true ∧
      active (lfoc w) w g false (guarded 1) ≠ g.mask ∧ active (lfoc w) w g false (guarded 1) ≠ 0 ∧
      g.mask &&& ~~~(active (lfoc w) w g false (guarded 1)) ≠ 0 ∧ w.lanes.stack.length < 64) ∧
    (∃ w g, LaneClear (runLane w) (lfoc w) w g false (guarded 1) [.k (1#4).toNat] [] true ∧
      active (lfoc w) w g false (guarded 1) ≠ 0 ∧ g.mask &&& ~~~(active (lfoc w) w g false (guarded 1)) ≠ 0 ∧
      64 ≤ w.lanes.stack.length) :=
  ⟨⟨stacked [], _, laneClear_of rfl rfl rfl _ _ rfl true, by decide, by decide⟩,
   ⟨stacked [], _, laneClear_of rfl rfl rfl _ _ rfl true, by decide, by decide⟩,
   ⟨stacked (List.replicate 63 (splitEnt .first 9)), _, laneClear_of rfl rfl rfl _ _ rfl true, by decide, by decide, by decide, by decide⟩,
   ⟨stacked (List.replicate 64 (splitEnt .first 9)), _, laneClear_of rfl rfl rfl _ _ rfl true, by decide, by decide, by decide⟩⟩

theorem witness_Joins : (∃ w g, LaneClear (runLane w) (lfoc w) w g false (guarded 0) [] [] true ∧ w.lanes.innermost false = none) ∧
    (∀ k ∈ [EntKind.first, .second, .dual], ∃ w g e, LaneClear (runLane w) (lfoc w) w g false (guarded 0) [] [] true ∧
      w.lanes.innermost false = some 0 ∧ w.lanes.stack[0]? = some e ∧ e.jpc = g.pc ∧ e.kind = k) ∧
    (∃ w g e, LaneClear (runLane w) (lfoc w) w g false (guarded 0) [] [] true ∧ w.lanes.innermost false = some 0 ∧
      w.lanes.stack[0]? = some e ∧ e.jpc ≠ g.pc) ∧
    (∃ w o, w = stacked [splitEnt .dual 0] (some o) ∧ w.lanes.innermost false = some 0 ∧ w.lanes.get (!false) = some o ∧
      ¬(o.wait = .join ∧ o.pc = 0)) ∧
    (∃ w o, w = stacked [splitEnt .dual 0] (some o) ∧ w.lanes.get (!false) = some o ∧ o.wait = .join ∧ o.pc = 0) := by
  refine ⟨⟨stacked [], _, laneClear_of rfl rfl rfl _ _ rfl true, rfl⟩, ?_, ⟨stacked [splitEnt .first 9], _, _, laneClear_of rfl rfl rfl _ _ rfl true, rfl, rfl, by decide⟩,
    ⟨_, newFrag 12 0 0, rfl, rfl, rfl, by decide⟩, ⟨_, { newFrag 12 0 0 with wait := .join }, rfl, rfl, rfl, rfl⟩⟩
  intro k hk
  simp only [List.mem_cons, List.not_mem_nil, or_false] at hk
  rcases hk with rfl | rfl | rfl
  all_goals exact ⟨stacked [splitEnt _ 0], newFrag 3 0 0, _, laneClear_of rfl rfl rfl _ _ rfl true, rfl, rfl, rfl, rfl⟩

theorem witness_WaitingArms : ∃ (w : Swath) (g : Frag) (e : StackEnt), (run w).residentAt 0 0 = some (foc w, w) ∧
    w.lanes.f0 = some g ∧ w.lanes.f1 = none ∧ g.wait.bar = some 3 ∧ w.lanes.innermost false = some 0 ∧
    w.lanes.stack[0]? = some e ∧ e.kind = .first ∧ barWaits (run w) 0 3 g.tok = true ∧
    ∀ m, e.hbar = some m → barWaits (run w) 0 m e.atok = false :=
  ⟨stacked [splitEnt .first 9] none { newFrag 3 0 0 with wait := .barw 3, tok := tokSet 0 3 false }, _, _, rfl, rfl, rfl, rfl, rfl, rfl, rfl,
   by decide, nofun⟩

/-- A lane swath with a handshake state. -/
def hsw (sig : Nat) (go : Bool) (st : List StackEnt := []) : Swath :=
  { stacked st with meet := { Meet.zero with hs := .running, sig := sig, go := go } }

theorem witness_LaneHandshake : (∃ w g, LaneClear (runLane w) (lfoc w) w g false (guarded 0) [] [] true ∧ w.lanes.reconverged = false ∧
      65535 < w.meet.sig + (1#8).toNat) ∧
    (∃ w g, LaneClear (runLane w) (lfoc w) w g false (guarded 0) [] [] true ∧ w.lanes.reconverged = true ∧ w.meet.go = false ∧
      w.meet.sig + (1#8).toNat ≤ 65535) ∧
    (∃ w g, LaneClear (runLane w) (lfoc w) w g false (guarded 0) [] [] true ∧ w.lanes.reconverged = true ∧ w.meet.go = true) ∧
    (∃ w g, LaneClear (runLane w) (lfoc w) w g false (guarded 0) [.w (1#4).toNat] [.sr 0] true ∧
      fmtOk (mgetD w.regs.wL (1#4).toNat 0) = false ∧ fmtOk (mgetD w.regs.wL (2#4).toNat 0) = true) :=
  ⟨⟨hsw 65535 false [splitEnt .first 9], _, laneClear_of rfl rfl rfl _ _ rfl true, rfl, by decide⟩,
   ⟨hsw 65534 false, _, laneClear_of rfl rfl rfl _ _ rfl true, rfl, rfl, by decide⟩,
   ⟨hsw 0 true, _, laneClear_of rfl rfl rfl _ _ rfl true, rfl, rfl⟩,
   ⟨vsw 3 [] [(1, 0xF), (2, 0x8B9)], _, laneClear_of rfl rfl rfl _ _ rfl true, by decide, by decide⟩⟩

theorem witness_LaneBarriers : (∃ w g v, LaneClear (runLane w) (lfoc w) w g false (guarded 0) (opNames (.uni 1) .n32) [] true ∧
      (runLane w).bar 0 (15#4).toNat = some v ∧ v.arrive (opVal (.uni 1) w .n32 0) = none ∧
      (∃ v' p, v.arrive (opVal (.uni 2) w .n32 0) = some (v', p) ∧ v'.phase = p) ∧
      (∃ v' p, v.arrive (opVal (.uni 3) w .n32 0) = some (v', p) ∧ v'.phase ≠ p) ∧
      tokHas g.tok (15#4).toNat = false) ∧
    (∃ s F w g, LaneClear s F w g false (guarded 0) [] [] true ∧ State.bar s F.fid (15#4).toNat = none) ∧
    (∃ w g v, LaneClear (runLane w) (lfoc w) w g false (guarded 0) [] [] true ∧ (runLane w).bar 0 (3#4).toNat = some v ∧
      tokHas g.tok (3#4).toNat = true ∧ v.phase = tokPhase g.tok (3#4).toNat) :=
  ⟨⟨vsw 3 [] [(1, 4096), (2, 4095), (3, 1)], _, _, laneClear_of rfl rfl rfl _ _ rfl true, rfl, by decide, ⟨_, _, rfl, rfl⟩, ⟨_, _, rfl, by decide⟩, by decide⟩,
   ⟨{ runLane codeSwath with fields := [(0, { codeField with bars := [] })] }, lfoc codeSwath, codeSwath, _, laneClear_of rfl rfl rfl _ _ rfl true, rfl⟩,
   ⟨stacked [] none { newFrag 3 0 0 with tok := tokSet 0 3 false }, _, _, laneClear_of rfl rfl rfl _ _ rfl true, rfl, by decide, by decide⟩⟩
theorem witness_LaneBarriers_looks : (∃ (w : Swath) (g : Frag), (runLane w).residentAt 0 0 = some (foc w, w) ∧
      w.lanes.get false = some g ∧ g.wait = .barw 3 ∧ barWaits (runLane w) 0 3 g.tok = true) ∧
    (∃ (w : Swath) (g : Frag), (runLane w).residentAt 0 0 = some (foc w, w) ∧
      w.lanes.get false = some g ∧ g.wait = .barw 3 ∧ barWaits (runLane w) 0 3 g.tok = false) ∧
    (∃ (w : Swath) (g : Frag), (runLane w).residentAt 0 0 = some (foc w, w) ∧
      w.lanes.get false = some g ∧ g.wait = .bars 3 ∧ barWaits (runLane w) 0 3 g.tok = false) :=
  ⟨⟨stacked [] none { newFrag 3 0 0 with wait := .barw 3, tok := tokSet 0 3 false }, _, rfl, rfl, rfl, by decide⟩,
   ⟨stacked [] none { newFrag 3 0 0 with wait := .barw 3, tok := tokSet 0 3 true }, _, rfl, rfl, rfl, by decide⟩,
   ⟨stacked [] none { newFrag 3 0 0 with wait := .bars 3, tok := tokSet 0 3 true }, _, rfl, rfl, rfl, by decide⟩⟩
/-- An address operand: a base in `w1` and an index in `v8`. -/
def maddr : MemOp := { base := .uni 1, idx := some 8, sc := 2, disp := 0 }
/-- Two lanes, with `w1` at 0x30000 and their indices: aligned, or both misaligned. -/
def two : Swath := vsw 3 [] [(1, 0x30000)] [(8 * 1024 + 1, 1)]
def single : Swath := vsw 1 [] [(1, 0x30000)]
def crooked : Swath := vsw 3 [] [(1, 0x30002)]
def ldo : LMem := { h := guarded 0, sz := 4, reg := 9, m := maddr }

theorem witness_LaneMemory : (∃ (w : Swath) (g : Frag), w = single ∧ LaneClear (runLane w) (lfoc w) w g false (guarded 0)
      (memNames maddr) (vregs (9#8).toNat (memRegs 4)) ∧ active (lfoc w) w g false (guarded 0) = 1 ∧
      (∀ l ∈ lanesOf 1, memAddr maddr w l % szBytes 4 = 0)) ∧
    (∃ x3, each (fun l s => match scratchAt s 0 (4 * l) 4 false with
        | none => .trap (raise .range)
        | some (k, off) => .ok (scratchRd s k off 4) s) (lanesOf 3) (runLane single) = some x3) ∧
    (∃ (w : Swath) (g : Frag), LaneClear (runLane w) (lfoc w) w g false (guarded 0) (memNames maddr)
      (vregs (9#8).toNat (memRegs 4)) ∧ lanesOf (active (lfoc w) w g false (guarded 0)) = [0, 1] ∧
      ∀ j ∈ [0, 1], memAddr maddr w j % szBytes 4 ≠ 0) :=
  ⟨⟨single, _, rfl, laneClear_of rfl rfl rfl _ _ rfl, by decide, by decide⟩, ⟨_, rfl⟩,
   ⟨crooked, _, laneClear_of rfl rfl rfl _ _ rfl, by decide, by decide⟩⟩

/-- A check that does not trap. -/
def passed {α : Type} : LRes α → Bool
  | .trap _ => false
  | _ => true
theorem performed {α : Type} {F : Focus} {va : LaneVa} {one : Nat → State → LRes α} {ls : List Nat} {s : State}
    (h : (ls.all (fun l => passed (pinnedRun F va s one l { s with freeCtr := s.freeCtr + 4 * l }))
      && (each (pinnedRun F va s one) ls s).isSome) = true) : ∃ out s1, Performed F va one ls s out s1 := by
  rw [Bool.and_eq_true] at h
  obtain ⟨x, hx⟩ := Option.isSome_iff_exists.mp h.2
  refine ⟨x.1, _, fun l hl r e => ?_, x.2, hx, rfl⟩
  have := List.all_eq_true.mp h.1 l hl
  rw [e] at this
  cases this

theorem witness_LaneMemory_load : ∃ out s1, Performed (lfoc single) (fun l => some (memAddr maddr single l)) (fun l s =>
    (wideRead (lfoc single) (fun a n s => gLoad (lfoc single) .l1 false s a n) (memAddr maddr single l) 4 s).lane
      (lfoc single) (memAddr maddr single l)) (lanesOf 1)
    (marked (runLane single) (lfoc single) single (newFrag 1 0 0) false (guarded 0)) out s1 := performed (by decide +kernel)
theorem witness_LaneMemory_store : ∃ out s1, Performed (lfoc single) (fun l => some (memAddr maddr single l)) (fun l s =>
    (wideWrite (lfoc single) (fun a v n s => plainStore (lfoc single) s a v n) (memAddr maddr single l) (single.vrN 9 l 1) 4
      s).lane (lfoc single) (memAddr maddr single l)) (lanesOf 1)
    (marked (runLane single) (lfoc single) single (newFrag 1 0 0) false (guarded 0)) out s1 := performed (by decide +kernel)
theorem witness_LaneMemory_constants : ∃ out s1, Performed (lfoc two) (fun _ => none) (fun l => halvesRead (fun a n s =>
    match constRd s (lfoc two) a n with
    | none => .trap (raise .range)
    | some (.error r) => .trap r
    | some (.ok (v, s1)) => .ok v s1) (4 * l) 4) (lanesOf 3) (withConst two) out s1 := performed (by decide +kernel)
theorem witness_LaneMemory_scratch : ∃ out s1, Performed (lfoc two) (fun _ => none) (fun l => halvesRead (fun a n s =>
    match scratchAt s 0 a n false with
    | none => .trap (raise .range)
    | some (k, o) => .ok (scratchRd s k o n) s) (16 * l) 16) (lanesOf 3) (runLane two) out s1 := performed (by decide +kernel)

theorem witness_LaneMemory_wide : ∃ (rd : Nat → Nat → State → MRes Nat) (lo hi : Nat) (s1 s2 : State),
    rd 0x30000 8 (runLane single) = .ok lo s1 ∧ rd 0x30008 8 (s1.stirAt (lfoc single).agent 0x30000) = .ok hi s2 :=
  ⟨fun a n s => .ok (homeRd s a n) s, _, _, _, _, rfl, rfl⟩

theorem witness_TolerantGathers : ∃ (w : Swath) (g : Frag), LaneClear (runLane w) (lfoc w) w g false (guarded 0)
      (memNames maddr) (.k (3#4).toNat :: vregs (9#8).toNat (memRegs 4)) ∧
      (∀ l ∈ lanesOf (active (lfoc w) w g false (guarded 0)), memAddr maddr w l % szBytes 4 = 0) ∧
      ∃ out s1, Performed (lfoc w) (fun l => some (memAddr maddr w l)) (fun l => tolerantLoad (lfoc w) (memAddr maddr w l) 4)
        (lanesOf (active (lfoc w) w g false (guarded 0))) (marked (runLane w) (lfoc w) w g false (guarded 0)) out s1 :=
  ⟨single, newFrag 1 0 0, laneClear_of rfl rfl rfl _ _ rfl, by decide, performed (by decide +kernel)⟩

/-- A pool page that is not in the page cache, for a lane that gathers (R207). -/
theorem witness_TolerantGathers_absent : ∃ (w : Swath) (e : XErr) (s1 : State),
    tolerantLoad (lfoc w) (poolBase + 65536) 4 (runLane w) = .ok (.error e) s1 ∨
      tolerantLoad (lfoc w) (poolBase + 65536) 4 (runLane w) = .trap (e.raise (poolBase + 65536)) := by
  have h : (match tolerantLoad (lfoc two) (poolBase + 65536) 4 (runLane two) with
    | .hold _ => false | .ok (.ok _) _ => false | _ => true) = true := by decide +kernel
  simp only [tolerantLoad, wideRead, Nat.reduceLeDiff, if_true] at h ⊢
  match e : gLoad (lfoc two) .l1 false (runLane two) (poolBase + 65536) 4 with
  | .fault x =>
    refine ⟨two, x, runLane two, ?_⟩
    rw [e]
    by_cases hx : x.absent = true <;> simp [hx]
  | .ok _ _ => rw [e] at h; cases h
  | .hold _ => rw [e] at h; cases h

theorem witness_LaneAtomics : (∃ (w : Swath) (g : Frag), LaneClear (runLane w) (lfoc w) w g false (guarded 0)
      (vregs (6#8).toNat 2 ++ memNames maddr) (vregs (7#8).toNat 1) ∧
      (∀ l ∈ lanesOf (active (lfoc w) w g false (guarded 0)), memAddr maddr w l % 4 = 0) ∧
      active (lfoc w) w g false (guarded 0) ≠ 0 ∧ acquireClamped (runLane w) (lfoc w) 3 = false ∧
      (∃ out s1, Performed (lfoc w) (fun l => some (memAddr maddr w l)) (fun l s' =>
        if acquireClamped s' (lfoc w) 3 then .trap (raise .scopeClamp) else
          (loggedAtomic (lfoc w) l (scopeLevel s' 0 3) false s' (memAddr maddr w l) 4 (fun _ => some 1)).lane (lfoc w)
            (memAddr maddr w l)) (lanesOf 1) (runLane w) out s1) ∧
      (∃ out s1, Performed (lfoc w) (fun l => some (memAddr maddr w l)) (fun l s' =>
        if acquireClamped s' (lfoc w) 5 then .trap (raise .scopeClamp) else
          (scopedLoad (lfoc w) s' 5 (memAddr maddr w l) 4).lane (lfoc w) (memAddr maddr w l)) (lanesOf 1) (runLane w) out s1)) ∧
    (∃ (w : Swath) (g : Frag), LaneClear (runLane w) (lfoc w) w g false (guarded 0) [] [] ∧ active (lfoc w) w g false (guarded 0) = 0) ∧
    (∃ (w : Swath) (sc : Nat) (c : Bool) (s1 : State), releaseScope (runLane w) (lfoc w) 6 = some (sc, c) ∧
      partyRelease (lfoc w) (runLane w) sc = .ok () s1 ∧ ∃ out s2, Performed (lfoc w) (fun _ => some 0x30000) (fun l s' =>
        (gStore (lfoc w) (scopeLevel s' 0 sc) (sc = 6) s' 0x30000 5 4).lane (lfoc w) 0x30000) (lanesOf 1) s1 out s2) :=
  ⟨⟨single, newFrag 1 0 0, laneClear_of rfl rfl rfl _ _ rfl, by decide, by decide, rfl, performed (by decide +kernel),
     performed (by decide +kernel)⟩,
   ⟨vsw 0, _, laneClear_of rfl rfl rfl _ _ rfl, by decide⟩,
   ⟨two, _, _, _, rfl, rfl, performed (by decide +kernel)⟩⟩

theorem witness_LaneAtomics_clamped : ∃ s F w g, LaneClear s F w g false (guarded 0) [] [] ∧ active F w g false (guarded 0) ≠ 0 ∧
    acquireClamped s F 4 = true ∧ releaseScope s F 4 = none :=
  ⟨{ runLane two with ctxs := (narrowed 3 true two).ctxs }, lfoc two, two, _, laneClear_of rfl rfl rfl _ _ rfl, by decide, rfl, rfl⟩

/-- Lane elements in `v8`; the second lane's is the last, or one beyond. -/
def elems (n : Nat) (fmt : W64 := 0) (m : LaneMask := 3) : Swath := vsw m [] [] [(8 * 1024 + 1, BitVec.ofNat 32 n)] fmt

theorem witness_AccumulatorForms : (∃ (w : Swath) (g : Frag) (f : Field), LaneClear (runLane w) (lfoc w) w g false (guarded 0)
      (opNames (.reg 8) .n32) [.v (1#8).toNat] ∧ (runLane w).field? 0 = some f ∧ (15#4).toNat < f.tiles ∧
      (∀ l ∈ [0, 1], opVal (.reg 8) w .n32 l < 4096) ∧ tileBusy f (15#4).toNat = false ∧ fmtACC g.fmt = 8 ∧
      [0, 1].Pairwise (fun i j => opVal (.reg 8) w .n32 i ≠ opVal (.reg 8) w .n32 j)) ∧
    (∃ (w : Swath) (g : Frag), (runLane w).laneFocus = some (lfoc w, w, g, false) ∧ opVal (.reg 8) w .n32 1 = 4096 ∧
      opVal (.reg 8) w .n32 0 < 4096) ∧
    (∃ (w : Swath) (g : Frag), (runLane w).laneFocus = some (lfoc w, w, g, false) ∧ fmtACC g.fmt ≠ 8 ∧
      lanesOf (active (lfoc w) w g false (guarded 0)) = [1]) ∧
    (∃ f : Field, tileBusy f 0 = true) ∧ ({ codeField with tiles := 15 }).tiles ≤ (15#4).toNat :=
  ⟨⟨elems 4095 0x8B9, _, _, laneClear_of rfl rfl rfl _ _ rfl, rfl, by decide, by decide, rfl, by decide, by decide⟩,
   ⟨elems 4096, _, rfl, by decide, by decide⟩, ⟨elems 1 0 2, _, rfl, by decide, by decide⟩,
   ⟨padField [] (ew 0 [] { Engines.zero with mq := [matOp 7 0] }), by decide⟩, by decide⟩

/-! Windows: an export is entry 0 and an import entry 1 of the table at 0x40000. -/

def table (w : Swath) : State :=
  { run w with
    ctxs := [(0, { Context.root0 with winTab := 0x40000 })]
    mem := (((((run w).mem.wrN 0x40000 8 (0xD + 7 * 2 ^ 32)).wrN 0x40008 8 0x50000).wrN 0x40010 8 0x1000).wrN 0x40020 8 0xE).wrN 0x40028 8 3 }
/-- The same with the import known: `reg` its registered length. -/
def known (reg : Option Nat) (asked : Bool) (w : Swath) : State :=
  { table w with ctxs := [(0, { Context.root0 with
      winTab := 0x40000, wins := [{ num := 1, words := [0xE, 3, 0, 0], reg := reg, asked := asked }] })] }

theorem witness_WindowIssue : (∃ (w : Swath) (e : WinEnt) (s1 : State), (∀ r ws, Clear (table w) (foc w) w r ws) ∧ w.eng.windows < 255 ∧
      ((w.xpair 1).2).extractLsb' 48 16 = 0 ∧ (((w.xpair 1).2).extractLsb' 16 32).toNat ≠ 0 ∧
      (((w.xpair 1).2).extractLsb' 0 16).toNat < 1024 ∧ winEntry (table w) 0 0 (((w.xpair 1).2).extractLsb' 0 16).toNat = .ok (e, s1) ∧
      winImport e.words true = true ∧ e.reg = none) ∧
    (∃ (w : Swath) (e : WinEnt) (s1 : State), winEntry (known (some 64) false w) 0 0 1 = .ok (e, s1) ∧
      (∀ r ws, Clear (known (some 64) false w) (foc w) w r ws) ∧ winImport e.words true = true ∧ e.reg = some 64 ∧
      (w.xpair 1).1.toNat + (((w.xpair 1).2).extractLsb' 16 32).toNat = 64 ∧ 64 < (w.xpair 2).1.toNat + (((w.xpair 2).2).extractLsb' 16 32).toNat) ∧
    (∃ (w : Swath) (e : WinEnt) (s1 : State), winEntry (table w) 0 0 0 = .ok (e, s1) ∧ winImport e.words true = false ∧
      ((w.xpair 1).2).extractLsb' 48 16 ≠ 0 ∧ (((w.xpair 2).2).extractLsb' 16 32).toNat = 0 ∧
      1024 ≤ (((w.xpair 3).2).extractLsb' 0 16).toNat ∧ (((w.xpair 3).2).extractLsb' 16 32).toNat ≠ 0) :=
  ⟨⟨xw [(3, 0x80001)], _, _, fun _ _ => clear_of rfl rfl _ _, by decide, by decide, by decide, by decide, rfl, rfl, rfl⟩,
   ⟨xw [(2, 56), (3, 0x80001), (4, 57), (5, 0x80001)], _, _, rfl, fun _ _ => clear_of rfl rfl _ _, rfl, rfl, by decide, by decide⟩,
   ⟨xw [(3, 0x1000000080001), (7, 0x80400)], _, _, rfl, rfl, by decide, by decide, by decide, by decide⟩⟩

def readIs1 (n : Nat) : MRes W64 → Bool
  | .ok v _ => v.toNat == n
  | _ => false
theorem readIs1_ok {n : Nat} {r : MRes W64} (h : readIs1 n r = true) : ∃ v s, r = .ok v s ∧ v.toNat = n := by
  cases r <;> simp_all [readIs1]

theorem witness_WindowIssue_wcntw : (∃ (w : Swath) (e : WinEnt) (s1 : State), (∀ r ws, Clear (table w) (foc w) w r ws) ∧
      (w.xr 0).toNat < 1024 ∧ acquireClamped (table w) (foc w) 5 = false ∧ winEntry (table w) 0 0 0 = .ok (e, s1) ∧
      winExport e.words = true ∧ (∃ n s2, arrivals s1 (foc w) 0 = .ok n s2 ∧ n.toNat = 0) ∧
      (w.xr 0).toNat ≤ 0 ∧ 0 < (w.xr 1).toNat ∧ 1024 ≤ (w.xr 2).toNat) ∧
    (∃ (w : Swath) (e : WinEnt) (s1 : State), winEntry (table w) 0 0 1 = .ok (e, s1) ∧ winExport e.words = false) ∧
    (∃ w : Swath, (table w).residentAt 0 0 = some (foc w, w) ∧ w.ctl.wait = .wcntw 3 0 0 ∧
      (∃ n s2, arrivals (table w) (foc w) 0 = .ok n s2 ∧ n.toNat = 0) ∧
      (0 : W64).toNat ≤ 0 ∧ 0 < (1 : W64).toNat ∧ regionWar w.regs.chk w.ctl.rset [.x 3] = false) :=
  ⟨⟨xw [(1, 1), (2, 1024)], _, _, fun _ _ => clear_of rfl rfl _ _, by decide, rfl, rfl, rfl, readIs1_ok (by decide +kernel), by decide, by decide, by decide⟩,
   ⟨codeSwath, _, _, rfl, rfl⟩,
   ⟨ww (.wcntw 3 0 0), rfl, rfl, readIs1_ok (by decide +kernel), by decide, by decide, rfl⟩⟩

/-- A swath with one transfer. -/
def xfer (post : Bool) (ph : XPhase) (data : List Byte := []) : Xfer :=
  { newXfer 1 post 0x30000 0 1 2 [0xE, 3, 0, 0] with phase := ph, data := data }
def transferring (x : Xfer) : Swath := { codeSwath with eng := { Engines.zero with xfers := [x], windows := 1 } }

def eOk (p : State → Bool) : ERes Unit → Bool
  | .ok _ s => p s
  | _ => false
def mOk : MRes Unit → Bool
  | .ok _ _ => true
  | _ => false

theorem eres_ok {r : ERes Unit} {p : State → Bool} (h : eOk p r = true) : ∃ s, r = .ok () s ∧ p s = true := by
  cases r with
  | ok _ s => exact ⟨s, rfl, h⟩
  | hold _ => cases h
  | fault _ _ _ => cases h

theorem mres_ok {r : MRes Unit} (h : mOk r = true) : ∃ s, r = .ok () s := by
  cases r with
  | ok _ s => exact ⟨s, rfl⟩
  | hold _ => cases h
  | fault _ => cases h

/-- The device reaches agent 3 on port 2. -/
def sending (x : Xfer) : State :=
  { run (transferring x) with nodes := [(3, { Node.zero with route := 4 })] }

theorem witness_WindowSteps : ∀ x ∈ [xfer true .sent, xfer false .sent, xfer true .answered, xfer false .answered [1, 2], xfer true .unsent, xfer false .unsent,
      xfer false .written],
    ∃ (f : Field) (w : Swath), (sending x).field? 0 = some f ∧ f.status = .resident ∧ mget f.sws 0 = some w ∧
      w.eng.xfers = [x] ∧ x.waiting = false ∧ x.revoked = false ∧ x.node = 3 ∧ x.node ≠ thisNode ∧ heard (sending x) x.node = true ∧
      (sending x).portTo x.node = some 2 ∧ (sending x).carries 2 = true ∧
      linesHold (sending x) (dirtyLines (sending x) (xferL1 (engineAgent f w) x.src.toNat x.len) (xferL2 (engineAgent f w) x.src.toNat x.len)) = none := by
  intro x hx
  simp only [List.mem_cons, List.not_mem_nil, or_false] at hx
  rcases hx with rfl | rfl | rfl | rfl | rfl | rfl | rfl
  all_goals exact ⟨_, _, rfl, rfl, rfl, rfl, rfl, rfl, rfl, by decide, by decide +kernel, by decide +kernel, by decide +kernel, by decide +kernel⟩

theorem witness_WindowIssue_count : ∃ (s : State) (u : Swath) (g : Field) (x : Xfer), s.field? 0 = some g ∧
    mget g.sws 0 = some u ∧ (foc u).party = .scalar 0 0 ∧ x.post = false ∧ x.node ≠ thisNode ∧ x.revoked = false ∧
    s.unreachable x.node = false ∧ ∀ y ∈ u.eng.xfers, y.uid ≠ x.uid :=
  ⟨{ run codeSwath with nodes := [(3, { Node.zero with route := 4 })] }, _, _, xfer false .unsent, rfl, rfl, rfl, rfl,
    by decide, rfl, by decide +kernel, nofun⟩

theorem witness_WindowSteps_bytes : ∃ s1, xferWrite (engineAgent codeField codeSwath) 0 0x30000 0 [1, 2] (run (transferring (xfer false .answered [1, 2])))
    = .ok () s1 ∧ (s1.field? 0).isSome = true :=
  eres_ok (p := fun s1 => (s1.field? 0).isSome) (by decide +kernel)

theorem witness_WindowRegistration : (∃ e x, (known none true (ww (.wreg 1))).askedImport 0 0 = some (0, e) ∧
      (known none true (ww (.wreg 1))).ctx? 0 = some x ∧ e.num = 1) ∧
    (∃ e x, (known none true codeSwath).askedImport 0 0 = some (0, e) ∧ (known none true codeSwath).ctx? 0 = some x ∧
      (known none true codeSwath).wregWaiters 0 e.num = []) :=
  ⟨⟨_, _, rfl, rfl, rfl⟩, ⟨_, _, rfl, rfl, rfl⟩⟩

theorem witness_Exports : (∃ s, exportEntry s 0 1 = .ok none) ∧
    (∃ ws, exportEntry (table codeSwath) 0 0 = .ok (some ws) ∧ ((ws.getD 0 0) >>> 32).setWidth 32 = (7 : W32) ∧
      ((ws.getD 0 0) >>> 32).setWidth 32 ≠ (8 : W32) ∧ (ws.getD 0 0).getLsbD 2 = true ∧ (ws.getD 0 0).getLsbD 3 = true ∧
      (ws.getD 2 0).toNat = 0x1000) :=
  ⟨⟨table codeSwath, rfl⟩, ⟨_, rfl, by decide, by decide, rfl, rfl, rfl⟩⟩
theorem witness_Exports_read : ∃ ds, exportBytes (table codeSwath) 0 0x50000 false 2 = .ok ds := ⟨_, rfl⟩
theorem witness_Exports_write : exportBytes (table codeSwath) 0 0x50000 true 2 = .ok [some 0x50000, some 0x50001] ∧
    ∃ s1, exportWrite ([some 0x50000, some 0x50001].zip [1, 2]) (table codeSwath) = .ok () s1 := ⟨rfl, mres_ok (by decide +kernel)⟩
theorem witness_Exports_arrival : (∃ x, (table codeSwath).ctx? 0 = some x ∧ winEntryVa x 0 + 24 = 0x40018) ∧
    (∃ xl, forContext (table codeSwath) 0 0 0x40018 true = .ok xl ∧ xl.dpa = 0x40018) ∧
    replayGate (table codeSwath) 0 0 18 noSwath 0 = .go none := ⟨⟨_, rfl, rfl⟩, ⟨_, rfl, rfl⟩, rfl⟩
theorem witness_Exports_counter : ∃ s1, homePutHold (table codeSwath) 0x40018 1 8 = .ok () s1 := mres_ok (by decide +kernel)
/-- A replay whose log holds the arrival of export 0 with the count 1. -/
def replaying : State :=
  ({ table codeSwath with
      mem := ((table codeSwath).mem.wrN 0x60000 8 (logHead 18 noSwath).toNat).wrN 0x60018 8 1 } : State).updBank none
    (fun b => { b with replay := true, logBase := 0x60000 })
theorem witness_Exports_replay : replayGate replaying 0 0 18 noSwath 0 = .go (some 1) ∧ (1 : W64) ≠ 2 := by decide +kernel
/-! Pool pages: lease 5 of node 9 is bound at the start of pool space; frames 100 to 107 are a set of CACHE
frames. -/

def leased (st : LeaseState) (len : Nat := 16) : Lease :=
  { st := st, warn := false, ack := false, node := 9, remain := 5000, pbase := 0, dbase := poolBase, len := len, safe := true }
def cached (st : FrState) (unit : Nat := poolBase / 65536) (role : FrRole := .cache) : Frame :=
  { role := role, st := st, count := 0, unit := unit, lease := 5, charge := 0, hold := 0, inSet := false }
def pooled (ls : NMap Lease) (fs : NMap Frame) (w : Swath := Swath.zero) : State :=
  { runPager w with leases := ls, nodes := [(9, { route := 1, lost := false, needGrant := false, missed := 0 })], frames := fs }
/-- The set of frames, the first one in a state of its own. -/
def set8 (e : Frame) : NMap Frame := (100, e) :: (List.range 7).map (fun i => (101 + i, cached .free 0))
/-- A pager core's swath with registers. -/
def pw (l : NMap W64) : Swath := { Swath.zero with regs := { Regs.zero with x := l } }

theorem clearPool (ls : NMap Lease) (fs : NMap Frame) (w : Swath)
    (h : (w.regs.chk, w.ctl.entering) = (0, false) := by rfl) (r ws : List RegName) :
    Clear (pooled ls fs w) pfoc w r ws := clear_of rfl h r ws

theorem witness_ChainSteps_absent : ∃ e es r,
    rowPages (pooled [(5, leased .live)] (set8 (cached .free))) (engineAgent codeField codeSwath) poolBase 8 = (e :: es, r) := by
  have h : (rowPages (pooled [(5, leased .live)] (set8 (cached .free))) (engineAgent codeField codeSwath) poolBase 8).1.isEmpty = false := by
    decide +kernel
  match e : rowPages (pooled [(5, leased .live)] (set8 (cached .free))) (engineAgent codeField codeSwath) poolBase 8, h with
  | (x :: xs, r), _ => exact ⟨x, xs, r, rfl⟩

theorem witness_PageForms : (∃ (w : Swath) (f : Nat) (s1 : State), (∀ r ws, Clear (pooled [(5, leased .live)] (set8 (cached .free)) w) pfoc w r ws) ∧
      (w.xr 1).toNat % 65536 = 0 ∧ (dregion (w.xr 1).toNat).tag = 3 ∧
      presentFrame (pooled [(5, leased .live)] (set8 (cached .free)) w) (poolBase / 65536) = none ∧
      pageStatus (pooled [(5, leased .live)] (set8 (cached .free)) w) (w.xr 1).toNat = none ∧
      cacheFrame (pooled [(5, leased .live)] (set8 (cached .free)) w) (poolBase / 65536) = none ∧
      bypasses (pooled [(5, leased .live)] (set8 (cached .free)) w) (poolBase / 65536) 0 = false ∧
      fillCharge (pooled [(5, leased .live)] (set8 (cached .free)) w) (poolBase / 65536) = 0 ∧
      State.takeFrame (pooled [(5, leased .live)] (set8 (cached .free)) w) (poolBase / 65536) 0 0 = some (f, s1)) ∧
    (∃ w : Swath, (w.xr 2).toNat % 65536 ≠ 0 ∧ (w.xr 3).toNat % 65536 = 0 ∧ (dregion (w.xr 3).toNat).tag ≠ 3 ∧ w = pw [(2, 1), (3, 0x20000)]) ∧
    (∀ st ∈ [FrState.clean, .dirty, .shared], ∃ f, cacheFrame (pooled [(5, leased .live)] (set8 (cached st))) (poolBase / 65536) = some f ∧
      (State.frame (pooled [(5, leased .live)] (set8 (cached st))) f).st = st) ∧
    (∃ n l pa, backing (pooled [(5, leased .live)] (set8 (cached .shared))) poolBase = some (n, l, pa) ∧ l.st = .live) := by
  refine ⟨⟨pw [(1, 0x4000000000000)], _, _, clearPool _ _ _, rfl, rfl, rfl, rfl, rfl, rfl, rfl, rfl⟩, ⟨_, by decide, by decide, by decide, rfl⟩, ?_, ⟨_, _, _, rfl, rfl⟩⟩
  intro st hst
  simp only [List.mem_cons, List.not_mem_nil, or_false] at hst
  rcases hst with rfl | rfl | rfl
  all_goals exact ⟨100, by decide +kernel, rfl⟩

theorem witness_PageForms_move : ∃ w : Swath, (∀ r ws, Clear (pooled [(5, leased .live)] (set8 (cached .clean)) w) pfoc w r ws) ∧
    (w.xr 1).toNat % 65536 = 0 ∧ (dregion (w.xr 1).toNat).tag = 3 ∧
    (∀ m ∈ (pooled [(5, leased .live)] (set8 (cached .clean)) w).moves, m.unit ≠ poolBase / 65536) ∧
    pageStatus (pooled [(5, leased .live)] (set8 (cached .clean)) w) (w.xr 1).toNat = none ∧
    ((pooled [(5, leased .live)] (set8 (cached .clean)) w).lease ((w.xpair 1).1.extractLsb' 0 12).toNat).st = .live ∧
    ((pooled [(5, leased .live)] (set8 (cached .clean)) w).node 9).lost = false ∧
    ((pooled [(5, leased .live)] (set8 (cached .clean)) w).node 9).route ≠ 0 ∧ (w.xpair 1).2.toNat % 65536 = 0 ∧
    (w.xpair 1).2.toNat < (leased .live).len * 65536 ∧ (leased .live).len * 65536 ≤ (w.xpair 2).2.toNat ∧
    (w.xpair 3).2.toNat % 65536 ≠ 0 :=
  ⟨pw [(1, 0x4000000000000), (2, 5), (3, 0xF0000), (4, 5), (5, 0x100000), (6, 5), (7, 0xFFFF)], clearPool _ _ _,
   rfl, rfl, nofun, rfl, rfl, rfl, by decide, rfl, by decide, by decide, by decide⟩

theorem witness_PageForms_upgrade : (∃ f, cacheFrame (pooled [(5, leased .live)] (set8 (cached .shared))) (poolBase / 65536) = some f ∧
      (State.frame (pooled [(5, leased .live)] (set8 (cached .shared))) f).st = .shared) ∧
    (∃ n l pa, backing (pooled [(5, leased .expired)] []) poolBase = some (n, l, pa) ∧ l.st ≠ .live) ∧
    (∃ k, pageStatus (pooled [(5, leased .lost)] []) poolBase = some k) ∧
    (presentFrame (pooled [(5, leased .live)] (set8 (cached .clean))) (poolBase / 65536)).isSome = true :=
  ⟨⟨100, by decide +kernel, rfl⟩, ⟨_, _, _, rfl, by decide⟩, ⟨_, rfl⟩, by decide +kernel⟩

theorem witness_FillsAndEvictions_evict : ∃ s f pa, State.mem s = [] ∧ s.pool.wf = true ∧ unitHomes s (s.frame f).unit = [pa] ∧
    ((s.flushUnit (s.frame f).unit).frame f).st = .dirty ∧ unitKey s (s.frame f).unit = none ∧
    ∀ c, c ∈ s.l1 ∨ c ∈ s.l2 → inUnit (s.frame f).unit c = true → c.dirty = 0 :=
  ⟨{ pooled [(5, leased .live)] (set8 (cached .dirty)) with mem := [] }, 100, _, rfl, rfl, rfl, rfl, rfl, fun _ h => by
    rcases h with h | h <;> cases h⟩
/-- The first unit of the pool is marked with the key in slot 2. -/
theorem witness_FillsAndEvictions_key : ∃ s k, unitKey s (poolBase / 65536) = some k ∧ unitHomes s (poolBase / 65536) ≠ [] :=
  ⟨{ pooled [(5, leased .live)] (set8 (cached .dirty)) with keyMap := [(poolBase / 65536, 2)], keys := [(2, 9)] }, _, rfl,
   by decide +kernel⟩

theorem witness_FillsAndEvictions : ∃ s f pa, State.mem s = [] ∧ s.pool.wf = true ∧ unitHomes s (s.frame f).unit = [pa] :=
  ⟨{ pooled [(5, leased .live)] (set8 (cached .filling)) with mem := [] }, 100, _, rfl, rfl, rfl⟩

theorem witness_LeaseOperations : (∃ w : Swath, (∀ r ws, Clear (pooled [(5, leased .live)] [] w) pfoc w r ws) ∧ w.ctl.wait = .none ∧
      (w.xr 1).toNat < 4096 ∧ ((pooled [(5, leased .live)] [] w).lease (w.xr 1).toNat).st = .live ∧
      (∀ f ∈ leaseFrames (pooled [(5, leased .live)] [] w) 5, ((pooled [(5, leased .live)] [] w).frame f).st ≠ .filling) ∧
      ((pooled [(5, leased .live)] [] w).lease (w.xr 2).toNat).st = .empty ∧ (w.xr 2).toNat = 4095 ∧ 4096 ≤ (w.xr 3).toNat ∧
      w.xr 0 = 0 ∧ w.xr 1 ≠ 0 ∧ 0 < (w.xr 4).toNat ∧ (w.xr 4).toNat < 2 ^ 32 ∧ 2 ^ 32 ≤ (w.xr 6).toNat) ∧
    (∀ st ∈ [LeaseState.expired, .revoked, .lost, .releasing], ((pooled [(5, leased st)] []).lease 5).st = st) ∧
    (∃ p, mget (pooled [(5, leased .live)] []).pagers 0 = some p ∧ (pooled [(5, leased .live)] []).carries p.mgrPort = true) := by
  refine ⟨⟨pw [(1, 5), (2, 4095), (3, 4096), (4, 0xFFFFFFFF), (6, 0x100000000)], clearPool _ _ _, rfl, by decide, rfl, nofun, rfl, rfl,
    by decide, by decide, by decide, by decide, by decide, by decide⟩, ?_, _, rfl, by decide⟩
  intro st _; rfl

theorem witness_LeaseOperations_release : ∃ w : Swath, (∀ r ws, Clear (pooled [(5, leased .live)] [(100, cached .dirty)] w) pfoc w r ws) ∧
    w.ctl.wait = .none ∧ leaseFrames (pooled [(5, leased .live)] [(100, cached .dirty)] w) 5 = [100] ∧
    backShut (pooled [(5, leased .live)] [(100, cached .dirty)] w) 100 = false ∧
    ∀ c, c ∈ (pooled [(5, leased .live)] [(100, cached .dirty)] w).l1 ∨ c ∈ (pooled [(5, leased .live)] [(100, cached .dirty)] w).l2 →
      frameless (pooled [(5, leased .live)] [(100, cached .dirty)] w) 5 c = true → c.dirty ≠ 0 → False :=
  ⟨pw [(1, 5)], clearPool _ _ _, rfl, by decide +kernel, by decide +kernel, fun _ h => by rcases h with h | h <;> cases h⟩
/-- The pager core of die 0 waits. -/
def waiting (st : LeaseState) (k : SWait) : State := pooled [(5, leased st)] [] { Swath.zero with ctl := { Ctl.zero with wait := k } }

theorem witness_LeaseAnswers : (∃ p, PagerWaits (waiting .live (.leaseop 3 5 false)) 0 p (.leaseop 3 5 false) ∧
      ((waiting .live (.leaseop 3 5 false)).lease 5).st = .live) ∧
    (∃ p, PagerWaits (waiting .releasing (.leaseop 3 5 true)) 0 p (.leaseop 3 5 true) ∧
      ((waiting .releasing (.leaseop 3 5 true)).lease 5).st = .releasing) := ⟨⟨_, ⟨rfl, rfl⟩, rfl⟩, ⟨_, ⟨rfl, rfl⟩, rfl⟩⟩

theorem witness_LeasesLiveAndEnd : ((4095 : Nat) < 4096 ∧ (4094 : Nat) < 4095 ∧ (2 : Nat) ^ 34 ≤ 2 ^ 34 ∧
      (State.lease State.reset 4095).st = .empty) ∧
    (((pooled [(5, leased .live)] []).lease 5).st = .live ∧ ((pooled [(5, leased .live)] []).lease 5).remain ≤ 10000 ∧
      ((pooled [(5, leased .live)] []).lease 5).ack = false ∧ ((pooled [(5, leased .live)] []).lease 5).warn = false) ∧
    (∃ s : State, (s.lease 5).st = .live ∧ (s.lease 5).warn = true ∧ (s.lease 5).ack = false ∧ (s.lease 5).remain = 0) ∧
    (∃ s : State, (s.lease 5).ackDue = true ∧ (∀ f ∈ leaseFrames s 5, (s.frame f).st = .dirty) ∧ leaseFrames s 5 = [100]) ∧
    (∃ s : State, (s.lease 5).ackDue = true ∧ ∃ f ∈ leaseFrames s 5, (s.frame f).st ≠ .dirty) ∧ ((pooled [(5, leased .live)] []).lease 5).ackDue = false ∧
    leaseFrames (pooled [(5, leased .live)] []) 5 = [] ∧
    ((pooled [(5, leased .revoked)] []).lease 5).st = .revoked ∧ ¬ ((State.lease State.reset 5).st = .live ∨ (State.lease State.reset 5).st = .expired) ∧
    ((pooled [(5, leased .live)] []).lease 5).node = 9 ∧ ((pooled [(5, leased .live)] []).lease 5).node ≠ 8 :=
  ⟨by decide, by decide, ⟨pooled [(5, { leased .live with warn := true, remain := 0 })] [], rfl, rfl, rfl, rfl⟩,
   ⟨pooled [(5, { leased .revoked with ackDue := true })] [(100, cached .dirty)], rfl, by decide +kernel, by decide +kernel⟩,
   ⟨pooled [(5, { leased .revoked with ackDue := true })] [(100, cached .filling)], rfl, by decide +kernel⟩, rfl, by decide +kernel,
   rfl, by decide, rfl, by decide⟩

theorem witness_BindingsRoutesAndRoles : (∃ (s : State) (v : W64), (s.lease 5).st = .live ∧ (s.lease 5).dbase = 0 ∧
      (v.extractLsb' 16 36).toNat * 65536 ≠ 0 ∧ poolBase ≤ (v.extractLsb' 16 36).toNat * 65536 ∧
      (v.extractLsb' 16 36).toNat * 65536 + (s.lease 5).len * 65536 ≤ poolEnd ∧
      ∀ m k, (m, k) ∈ s.leases → m ≠ 5 → k.dbase ≠ 0 → False) ∧
    (∃ s : State, (s.lease 5).st = .live ∧ (s.lease 5).dbase ≠ 0 ∧ (∀ x ∈ s.frames, x.2.lease ≠ 5) ∧
      ((0 : W64).extractLsb' 16 36).toNat * 65536 = 0) ∧
    (State.lease State.reset 5).st ≠ .live ∧
    (∀ r : BitVec 3, (r ++ 0#61 : W64).extractLsb' 61 3 = r) ∧
    (State.frame State.reset 7).st = .free ∧ (State.frame State.reset 7).role ≠ .retired ∧ State.reset.setsFixed = false ∧
    (State.frame (pooled [] [(7, cached .free 0 .retired)]) 7).role = .retired := by
  refine ⟨⟨pooled [(5, { leased .live with dbase := 0 })] [], 0x4000000000000, rfl, rfl, by decide, by decide, by decide, ?_⟩,
    ⟨pooled [(5, leased .live)] [], rfl, by decide, nofun, by decide⟩, by decide, by decide, by decide, by decide, rfl, rfl⟩
  intro m k h hm _
  simp only [pooled, List.mem_cons, List.not_mem_nil, or_false, Prod.mk.injEq] at h
  exact hm h.1

/-- A service record. -/
def record (st : RecState) (kind : Nat) (c : Cause) : Service :=
  { idx := 4, st := st, cause := c.code, kind := kind, noLease := false, merged := false, lease := 0, ctx := 0, rq := 0, va := 0,
    dpa := poolBase, coords := 0, event := 0, seq := 1, reqs := [.swath 0 0] }
def serving (r : Service) (k : SWait := .none) : State :=
  { State.reset with pagers := [(0, { Pager.zero with recs := [r], imgLen := 4, sw := { Swath.zero with ctl := { Ctl.zero with wait := k } } })] }

theorem witness_ServiceRecords : (∃ p r, mget (serving (record .waiting 0 .poolMiss)).pagers 0 = some p ∧
      p.recs.find? (fun r => r.st == .waiting) = some r ∧ p.used.contains 1023 = false ∧ p.running = false ∧ p.imgLen ≠ 0) ∧
    (∃ p i recs, mget (serving (record .queued 0 .poolMiss) (.deq 3 4)).pagers 0 = some p ∧ p.sw.ctl.wait = .deq 3 4 ∧
      takeRecord p.recs = some (i, recs)) ∧
    (∃ p, mget (serving (record .dequeued 0 .poolMiss) (.deq 3 4)).pagers 0 = some p ∧ p.sw.ctl.wait = .deq 3 4 ∧
      takeRecord p.recs = none ∧ (serving (record .dequeued 0 .poolMiss) (.deq 3 4)).dequeued 0 5 = none) ∧
    (∃ r, (serving (record .dequeued 0 .firstTouch)).dequeued 0 4 = some r ∧ r.kind = 0 ∧ r.cause = Cause.firstTouch.code) ∧
    (∃ r, (serving (record .dequeued 0 .poolMiss)).dequeued 0 4 = some r ∧ r.kind = 0 ∧ r.cause ≠ Cause.firstTouch.code) ∧
    (∃ r, (serving (record .dequeued 1 .poolMiss)).dequeued 0 4 = some r ∧ r.kind ≠ 0) :=
  ⟨⟨_, _, rfl, rfl, rfl, rfl, by decide⟩, ⟨_, _, _, rfl, rfl, rfl⟩, ⟨_, rfl, rfl, rfl, rfl⟩, ⟨_, rfl, rfl, rfl⟩,
   ⟨_, rfl, rfl, by decide⟩, ⟨_, rfl, by decide⟩⟩

def ask (f : Option Nat) : Fill := { unit := poolBase / 65536, ctx := 0, group := 0, rq := 0, frame := f, snooped := false }
def filling (f : Option Nat) (e : Frame) : State := { pooled [(5, leased .live)] (set8 e) with fills := [ask f] }
/-- An open dual-home window from lease 5 to lease 6, which is not bound. -/
def moving (copied : Bool) : State :=
  { pooled [(5, leased .live), (6, { leased .live with dbase := 0 })] [] with
    moves := [{ unit := poolBase / 65536, die := 0, src := 5, dst := 6, off := 0, copied := copied }] }

theorem witness_PageCacheEvents : (∃ q f s1, (filling none (cached .free)).fills = [q] ∧ q.frame = none ∧ q.group = 0 ∧ q.rq ≠ 4 ∧
      presentFrame (filling none (cached .free)) q.unit = none ∧ pageStatus (filling none (cached .free)) (q.unit * 65536) = none ∧
      bypasses (filling none (cached .free)) q.unit q.ctx = false ∧ cacheFrame (filling none (cached .free)) q.unit = none ∧
      (filling none (cached .free)).takeFrame q.unit q.ctx 0 = some (f, s1)) ∧
    (∃ q, (filling (some 100) (cached .filling)).fills.find? (fun x => x.unit == poolBase / 65536 && x.frame.isSome) = some q ∧
      q.frame = some 100 ∧ ((filling (some 100) (cached .filling)).frame 100).st = .filling ∧
      ((filling (some 100) (cached .filling)).frame 100).unit = poolBase / 65536 ∧ q.snooped = false) ∧
    (State.reset.fills.find? (fun x => x.unit == 3 && x.frame.isNone) = none) ∧
    (∀ c, ∃ m, (moving c).moves.find? (fun m => m.die == 0) = some m ∧ m.copied = c) ∧
    (∃ a b, unitHomes (moving false) (poolBase / 65536) = [a, b]) ∧ portShut (moving false) (poolBase / 65536) = false ∧
    (∃ q, (moving false).poolPort 9 (poolBase / 65536) = some q ∧ (moving false).heath.fenced.getLsbD q = false) ∧
    (∃ s : State, s.mem.wf = true ∧ (s.frame 7).role = .local_ ∧ ∀ x ∈ s.ctxs, x.2.ranges = []) := by
  refine ⟨⟨_, _, _, rfl, rfl, rfl, by decide, rfl, rfl, rfl, rfl, rfl⟩, ⟨_, rfl, rfl, rfl, rfl, rfl⟩, rfl, ?_, ⟨_, _, rfl⟩, rfl, ⟨_, rfl, rfl⟩,
    ⟨{ State.reset with frames := [(7, cached .clean 0 .local_)] }, rfl, rfl, by simp [State.reset, Context.root0]⟩⟩
  intro c; exact ⟨_, rfl, rfl⟩

theorem witness_PageCacheEvents_fill : portShut (filling (some 100) (cached .filling)) (poolBase / 65536) = false ∧
    leaseGone ((filling (some 100) (cached .filling)).fillFrame 100) 100 = false ∧
    (∀ x ∈ (filling (some 100) (cached .filling)).fills, x.unit = poolBase / 65536 → x.snooped = false) ∧
    (filling (some 100) (cached .filling)).fields = [] := ⟨rfl, rfl, by decide, rfl⟩

/-- A checkpoint to lease 5 that runs, after its first step or after its last frame. -/
def checkpointing (st : W64) (at_ : Nat := 0) : State :=
  { pooled [(5, leased .live 3146113)] [] with ckptStat := st, ckpt := 0x1005, heath := { Heath.reset with ckptAt := at_ } }

theorem witness_CheckpointsCopyTheDevice : (∃ s : State, (s.lease 5).st = .live ∧ (s.lease 5).dbase ≠ 0 ∧ (s.lease 5).safe = true ∧
      3146113 ≤ (s.lease 5).len ∧ s.ckptRuns = false) ∧
    ((checkpointing 1).ckptStat.extractLsb' 0 2 = 1#2 ∧
      linesHold (checkpointing 1) (dirtyLines (checkpointing 1) (fun _ => true) (fun _ => true)) = none) ∧
    (∀ n ∈ [0, allFrames], (checkpointing 2 n).ckptStat.extractLsb' 0 2 = 2#2 ∧
      nextCopied (checkpointing 2 n) (checkpointing 2 n).frames.length n = n ∧
      ((checkpointing 2 n).heath.fenced = 0 ∧ (checkpointing 2 n).mem.wf = true ∧ (checkpointing 2 n).pool.wf = true)) ∧
    ((checkpointing 2).ckptRuns = true ∧ ((checkpointing 2).ckpt.extractLsb' 0 12).toNat = 5 ∧
      (({ checkpointing 2 with leases := [(5, { leased .live 3146113 with remain := 0 })] } : State).lease 5).remain = 0) ∧
    (State.lease State.reset 5).st ≠ .live ∧ State.reset.ckptRuns = false :=
  ⟨⟨pooled [(5, leased .live 3146113)] [], rfl, by decide, rfl, by decide, by decide⟩, ⟨by decide, by decide +kernel⟩,
   by decide +kernel, ⟨by decide, by decide, rfl⟩, by decide, by decide⟩
theorem witness_CheckpointsCopyTheDevice_key : ∃ s : State, s.ckptStat.extractLsb' 0 2 = 2#2 ∧
    (s.frame 0).st ≠ .free ∧ ∃ k, unitKey s (s.frame 0).unit = some k :=
  ⟨{ checkpointing 2 with frames := [(0, cached .dirty)], keyMap := [(poolBase / 65536, 2)], keys := [(2, 9)] }, by decide,
   by decide, _, rfl⟩
/-! Content: region 3 has one leaf, of the line in slot 5, and one node of it. -/

def leafName : BitVec 128 := nameOf 7 0 1
def nodeName : BitVec 128 := nameOf 8 0 2
def dirOf (count : Nat) : NMap DirName :=
  [(28, { name := leafName, slot := 5, count := count, q := false }), (32, { name := nodeName, slot := 6, count := 1, q := false })]
def region3 (count : Nat) (st : RegionState := .live) : Region :=
  { st := st, follow := false, home := 0, capk := 1, owner := 0, agent := 0, store := 0x1000000, dir := dirOf count, reclaims := [] }
def withRegion (g : Region) (w : Swath := codeSwath) : State := { run w with regions := [(3, g)] }

theorem clearRegion (g : Region) (w : Swath)
    (h : (w.regs.chk, w.ctl.entering) = (0, false) := by rfl) (r ws : List RegName) :
    Clear (withRegion g w) (foc w) w r ws := clear_of rfl h r ws

theorem witness_ContentReferences : (∃ s id g n, mget s.regions id = some g ∧ g.follow = false ∧ present s g n = true ∧ countOf s id n = 0xFFFFFF) ∧
    (∃ s id g n, mget s.regions id = some g ∧ g.follow = false ∧ present s g n = true ∧ countOf s id n = 0) ∧
    (∃ s g, mget (State.regions s) 3 = some g ∧ g.follow = true) :=
  ⟨⟨withRegion (region3 0xFFFFFF), 3, _, leafName, rfl, rfl, by decide +kernel, by decide +kernel⟩,
   ⟨withRegion (region3 0), 3, _, leafName, rfl, rfl, by decide +kernel, by decide +kernel⟩,
   ⟨withRegion { region3 0 with follow := true }, _, rfl, rfl⟩⟩

def names (n : BitVec 128) : NMap W64 := [(2, n.setWidth 64), (3, (n >>> 64).setWidth 64), (5, 3)]

theorem witness_ContentForms : (∃ (w : Swath) (n : BitVec 128) (g : Region), (∀ r ws, Clear (withRegion (region3 1) w) (foc w) w r ws) ∧
      n = (w.xpair 1).2 ++ (w.xpair 1).1 ∧ (w.xr 5).toNat < 2 ^ 16 ∧ wellFormedName n = true ∧
      usableRegion (withRegion (region3 1) w) 0 (w.xr 5).toNat false = some g ∧ n ≠ 0 ∧ present (withRegion (region3 1) w) g n = true ∧
      countOf (withRegion (region3 1) w) 3 n ≠ 0) ∧
    (∃ (w : Swath) (g : Region), usableRegion (withRegion (region3 1) w) 0 (w.xr 5).toNat false = some g ∧
      present (withRegion (region3 1) w) g ((w.xpair 1).2 ++ (w.xpair 1).1) = false ∧ wellFormedName ((w.xpair 1).2 ++ (w.xpair 1).1) = true) ∧
    wellFormedName 3 = false ∧ usableRegion (run codeSwath) 0 3 false = none ∧ usableRegion (withRegion (region3 1 .destroying)) 0 3 false = none :=
  ⟨⟨xw (names leafName), leafName, _, clearRegion _ _, by decide +kernel, by decide, by decide, rfl, by decide, by decide +kernel, by decide +kernel⟩,
   ⟨xw (names (nameOf 9 0 1)), _, rfl, by decide +kernel, by decide⟩, by decide, by decide, by decide⟩

/-- The bucket in which the lookup of `leafName` begins is lost. -/
def losing (w : Swath) : State :=
  { withRegion (region3 1) w with heath := { Heath.reset with lostShares := [bucketSlice (region3 1) 7] } }
theorem witness_ContentForms_lost : ∃ (w : Swath) (n : BitVec 128) (e : XErr), (∀ r ws, Clear (losing w) (foc w) w r ws) ∧
    n = (w.xpair 1).2 ++ (w.xpair 1).1 ∧ wellFormedName n = true ∧ usableRegion (losing w) 0 (w.xr 5).toNat false = some (region3 1) ∧
    lookupFault (losing w) 0 (region3 1) n = some e ∧ e.gate = none := by
  have hl : bucketLost (losing (xw (names leafName))) (region3 1) 7 = true := by simp [bucketLost, losing, withRegion]
  have hb : probeBuckets (region3 1) leafName = [7, 8, 9, 10, 11, 12, 13, 14] := by decide +kernel
  refine ⟨xw (names leafName), leafName, .of .poisoned, fun _ _ => clear_of rfl rfl _ _, by decide +kernel, by decide, by decide, ?_, rfl⟩
  rw [lookupFault, if_neg (by decide), if_neg (by decide), hb, readsLost, hl, Bool.true_or, if_pos rfl]
theorem witness_ContentForms_kept : lookupFault (withRegion (region3 1)) 0 (region3 1) leafName = none ∧ lookupFault (withRegion (region3 1)) 0 (region3 1) 0 = none := by
  decide +kernel

def atomed (n : Nat) : MRes Nat → Bool
  | .ok v _ => v == n
  | _ => false
theorem atomed_ok {n : Nat} {r : MRes Nat} (h : atomed n r = true) : ∃ s, r = .ok n s := by
  cases r <;> simp_all [atomed]
def swapped (k : Nat) : MRes CRes → Bool
  | .ok v _ => v.status == k
  | _ => false
theorem swapped_ok {k : Nat} {r : MRes CRes} (h : swapped k r = true) : ∃ v s, r = .ok v s ∧ v.status = k := by
  cases r <;> simp_all [swapped]

def resOk : MRes CRes → Bool
  | .ok _ _ => true
  | _ => false
theorem resOk_ok {r : MRes CRes} (h : resOk r = true) : ∃ v s, r = .ok v s := by
  cases r <;> simp_all [resOk]
def nodeOk : Except Cause (MRes CRes) → Bool
  | .ok r => resOk r
  | .error _ => false
theorem nodeOk_ok {r : Except Cause (MRes CRes)} (h : nodeOk r = true) : ∃ v s, r = .ok (.ok v s) := by
  match r with
  | .ok (.ok v s) => exact ⟨v, s, rfl⟩
  | .ok (.hold _) | .ok (.fault _) | .error _ => cases h

theorem witness_ContentForms_lines : (∃ (w : Swath) (s1 : State), (∀ r ws, Clear (withRegion (region3 1) w) (foc w) w r ws) ∧ (w.xr 1).toNat % 128 = 0 ∧
      (w.xr 5).toNat = 3 ∧ readLine (foc w) (w.xr 1).toNat 0 16 (withRegion (region3 1) w) = .ok 0 s1) ∧
    (∃ n ∈ children8 3, wellFormedName n = false) ∧
    (∃ r t, insertNode (withRegion (region3 1)) 3 ((nameOf 9 0 1).setWidth 1024) = .ok (.ok r t)) ∧
    (∃ r t, insertLine (withRegion { region3 1 with capk := 0, dir := [] }) 3 1 1 = .ok r t) :=
  ⟨⟨xw [(1, 0x30000), (5, 3)], Exists.choose (atomed_ok (n := 0) (r := readLine (foc (xw [(1, 0x30000), (5, 3)])) 0x30000 0 16
        (withRegion (region3 1) (xw [(1, 0x30000), (5, 3)]))) (by decide +kernel)), clearRegion _ _, by decide, by decide, Exists.choose_spec (atomed_ok (by decide +kernel))⟩,
   ⟨3, by decide +kernel, by decide⟩,
   nodeOk_ok (by decide +kernel), resOk_ok (by decide +kernel)⟩

def swapper : Swath := xw [(2, 0x30000), (3, 3), (6, leafName.setWidth 64), (7, (leafName >>> 64).setWidth 64)]

theorem witness_ContentForms_swap : (∀ r ws, Clear (withRegion (region3 1) swapper) (foc swapper) swapper r ws) ∧
    wellFormedName (swapper.xr 5 ++ swapper.xr 4) = true ∧ wellFormedName (swapper.xr 7 ++ swapper.xr 6) = true ∧
    (usableRegion (withRegion (region3 1) swapper) 0 3 false).isSome = true ∧ acquireClamped (withRegion (region3 1) swapper) (foc swapper) 5 = false ∧
    (∃ xl, translate (withRegion (region3 1) swapper) 0 0 0x30000 ((foc swapper).agent.access true true false) = .ok xl) ∧
    (∃ v s, swapRoot (foc swapper) (withRegion (region3 1) swapper) 3 0x30000 0 leafName = .ok v s ∧ v.status = 0) :=
  ⟨clearRegion _ _, by decide +kernel, by decide +kernel, by decide, by decide, ⟨_, rfl⟩, swapped_ok (by decide +kernel)⟩

/-- Context 1 maps the units at 0 and at 0x10000, of class CONTENT, through tables at 0x100000. -/
def wide : RangeEnt := { cbase := 0, dbase := 0, len := 0x1000, r := true, w := true, x := true, lineage := [] }
def child (l : List Binding) : Context :=
  { Context.root0 with depth := 1, root := 0x100000, ranges := [wide], bindings := l }
def mapped (w : Swath) (l : List Binding) : State :=
  { withRegion (region3 1) w with
    ctxs := [(0, Context.root0), (1, child l)]
    fields := [(0, { codeField with ctx := 1, sws := [(0, w)] })]
    mem := ((((((run w).mem.wrN 0x100000 8 0x102001).wrN 0x102000 8 0x104001).wrN 0x104000 8 0x106001).wrN 0x106000 8 0x200C13).wrN 0x106008 8 0x210C13) }
def foc1 (w : Swath) : Focus := { foc w with ctx := 1 }
theorem clearMapped (w : Swath) (l : List Binding)
    (h : (w.regs.chk, w.ctl.entering) = (0, false) := by rfl) (r ws : List RegName) :
    Clear (mapped w l) (foc1 w) w r ws := clear_of rfl h r ws
def bound (at_ : W64) : Binding := { id := 0, region := 3, name := leafName, depth := 0, win := at_, len := 65536 }
def binder (at_ : W64) : Swath := xw [(2, at_), (3, 3), (4, leafName.setWidth 64), (5, (leafName >>> 64).setWidth 64)]

theorem witness_ContentBindings : (∀ r ws, Clear (mapped (binder 0) []) (foc1 (binder 0)) (binder 0) r ws) ∧
    badRoot leafName 0 = false ∧ (usableRegion (mapped (binder 0) []) 1 3 true).isSome = true ∧
    windowMapped (mapped (binder 0) []) 0 1 0 1 = true ∧ (∃ x, (mapped (binder 0) []).ctx? 1 = some x ∧ x.bindings.length < 64) ∧
    windowMapped (mapped (binder 0x20000) []) 0 1 0x20000 1 = false ∧
    (∃ x, (mapped (binder 0) [bound 0]).ctx? 1 = some x ∧ ∃ v ∈ x.bindings, 0 < v.win.toNat + v.len ∧ v.win.toNat < 0 + 65536) ∧
    (∃ x, (mapped (binder 0) (List.replicate 64 (bound 0x10000))).ctx? 1 = some x ∧ 64 ≤ x.bindings.length ∧
      ¬ ∃ v ∈ x.bindings, 0 < v.win.toNat + v.len ∧ v.win.toNat < 0 + 65536) :=
  ⟨clearMapped _ _, by decide, by decide, by decide +kernel, ⟨_, rfl, by decide⟩, by decide +kernel, ⟨_, rfl, by decide⟩, ⟨_, rfl, by decide, by decide +kernel⟩⟩

theorem witness_ContentBindings_cunbind : (∃ (x : Context) (v : Binding) (s1 : State),
      (mapped (binder 0) [bound 0]).ctx? 1 = some x ∧ x.bindings.find? (fun v => v.win == 0) = some v ∧
      (mapped (binder 0) [bound 0]).unbind 1 v = .ok () s1) ∧
    (∃ x : Context, (mapped (binder 0) [bound 0]).ctx? 1 = some x ∧ ∀ v ∈ x.bindings, v.win ≠ 8) := by
  obtain ⟨s1, h⟩ := mres_ok (r := (mapped (binder 0) [bound 0]).unbind 1 (bound 0)) (by decide +kernel)
  exact ⟨⟨_, _, s1, rfl, rfl, h⟩, ⟨_, rfl, by decide⟩⟩

def tree (pos : Nat) : CopyTree := { region := 3, name := leafName, depth := 0, dst := 0x30000, len := 128, pos := pos }
def copying : Swath := ew 0 [] { Engines.zero with chains := [{ newChain 1 0 with ccopy := some (tree 0) }], copies := 1 }

theorem witness_ContentBindings_ccopy : ∃ f u ch line s1, (withRegion (region3 1) copying).chainAt 0 0 1 = some (f, u, ch) ∧ ch.ccopy = some (tree 0) ∧
    ch.revoked = false ∧ treeLine (withRegion (region3 1) copying) (engineAgent f u) (tree 0) = .ok line ∧
    putLine (engineAgent f u) 0 0x30000 line 0 128 (withRegion (region3 1) copying) = .ok () s1 := by
  obtain ⟨s1, h, -⟩ := eres_ok (r := putLine (engineAgent { codeField with sws := [(0, copying)] } copying) 0 0x30000 0 0 128 (withRegion (region3 1) copying))
    (p := fun _ => true) (by decide +kernel)
  exact ⟨_, _, _, 0, s1, rfl, rfl, rfl, by rfl, h⟩

/-- Heath has booted up to a step. -/
def heardAt (n : Nat) : State := { run codeSwath with heath := { Heath.reset with bootStep := n } }

theorem witness_ContentRegions : (mget (run codeSwath).regions 3 = none ∧ (dregion 0x1000000).tag = 0 ∧
      inOneRegion 0x1000000 (storeBytes 1 0x1000000) = true ∧
      directoryBytes ({ run codeSwath with heath := { Heath.reset with llcCarve := [(0, 0x1000000)] } } : State) 0 + 512 * 1 * 128 ≤
        State.llcCarved { run codeSwath with heath := { Heath.reset with llcCarve := [(0, 0x1000000)] } } 0) ∧
    (∃ g, mget (withRegion { region3 1 with reclaims := [(28, 0)] }).regions 3 = some g ∧ g.st = .live ∧ (withRegion { region3 1 with reclaims := [(28, 0)] }).scrubFirst = false ∧
      g.reclaims = (28, 0) :: [] ∧ ∃ e, mget g.dir 28 = some e ∧ e.count ≠ 0) ∧
    (∃ g, mget (withRegion (region3 1 .destroying)).regions 3 = some g ∧ g.st = .destroying) :=
  ⟨⟨rfl, by decide, by decide +kernel, by decide +kernel⟩, ⟨_, rfl, rfl, rfl, rfl, _, rfl, by decide⟩, ⟨_, rfl, rfl⟩⟩
theorem witness_ContentRegions_descriptor : ∃ g, mget (withRegion (region3 1)).regions 3 = some g ∧ g.home < 4 ∧ g.capk < 2 ^ 20 ∧ g.owner < 4096 ∧
    g.agent < 4096 ∧ g.store < 2 ^ 52 ∧ g.dir.length < 2 ^ 24 := ⟨_, rfl, by decide⟩
theorem witness_ContentRegions_heard : Heard (heardAt 6) .i3c ∧ Heard (heardAt 1) (.pcie none) ∧ mget (heardAt 1).regions 3 = none :=
  ⟨⟨rfl, by decide, .inl rfl⟩, ⟨rfl, by decide, .inr rfl⟩, rfl⟩
/-! Contexts: context 1 is a child of context 0, with grant 1 of a range; its descriptors stand at 0x30000. -/

def line8 (l : List (Nat × Nat)) (m : Mem) : Mem := l.foldl (fun (m : Mem) (x : Nat × Nat) => m.wrN (0x30000 + 8 * x.1) 8 x.2) m
def kid (st : CtxState) (gs : List Grant := []) (rs : List RangeEnt := []) (left : List (Nat × Nat) := []) : Context :=
  { Context.root0 with depth := 1, state := st, grants := gs, ranges := rs, scrubLeft := left, scrubAll := 2, winTab := 0 }
def family (x : Context) (l : List (Nat × Nat)) (w : Swath := codeSwath) : State :=
  { run w with ctxs := [(0, Context.root0), (1, x)], mem := line8 l (run w).mem }
def caller : Caller := swathCaller (foc codeSwath)

def outIs (k : Nat) : CtxOut → Bool
  | .done _ n _ => n == k
  | _ => false
theorem outIs_done {k : Nat} {r : CtxOut} (h : outIs k r = true) : ∃ t v, r = .done t k v := by
  cases r <;> simp_all [outIs]
def outHas (p : State → Bool) : CtxOut → Bool
  | .done t n _ => n == 0 && p t
  | _ => false
theorem outHas_done {p : State → Bool} {r : CtxOut} (h : outHas p r = true) : ∃ t v, r = .done t 0 v ∧ p t = true := by
  cases r <;> simp_all [outHas]
def readHas (l : List W64) (p : State → Bool) : MRes (List W64) → Bool
  | .ok v s => v == l && p s
  | _ => false
theorem readHas_ok {l : List W64} {p : State → Bool} {r : MRes (List W64)} (h : readHas l p r = true) : ∃ s, r = .ok l s ∧ p s = true := by
  cases r <;> simp_all [readHas]
def readIs (l : List W64) : MRes (List W64) → Bool
  | .ok v _ => v == l
  | _ => false
theorem readIs_ok {l : List W64} {r : MRes (List W64)} (h : readIs l r = true) : ∃ s, r = .ok l s := by
  cases r <;> simp_all [readIs]

/-- A creation descriptor: retry ring of size 1, policy with the CREATE capability. -/
def newDesc : List (Nat × Nat) := [(0, 0x100000), (4, 0x11), (5, 0x46)]

theorem witness_ContextsMadeAndEnded_new : (∃ x, (family (kid .live) newDesc).ctx? 0 = some x ∧ x.policy.create = true ∧ x.depth < 7 ∧
      exceeds (readPolicy 0x46) x.policy = false ∧ (readPolicy 0x46).prot = false) ∧
    newOk [0x100000, 0, 0, 0, 0x11, 0x46, 0, 0] = true ∧
    (∃ s1, caller.rds 0x30000 8 (family (kid .live) newDesc) = .ok [0x100000, 0, 0, 0, 0x11, 0x46, 0, 0] s1) ∧
    (∃ t v, ctxNew caller 0x30000 (family (kid .live) newDesc) = .done t 0 v) ∧ exceeds { readPolicy 0x46 with maxClass := 0 } { readPolicy 0 with maxClass := 1 } = true :=
  ⟨⟨_, rfl, rfl, by decide, by decide, by decide⟩, by decide +kernel, readIs_ok (by decide +kernel), outIs_done (by decide +kernel), by decide⟩

/-- A descriptor of a protected child. -/
def keyedDesc : List (Nat × Nat) := [(0, 0x100000), (4, 0x11), (5, 0x246)]
theorem witness_ContextsMadeAndEnded_keyed : (readPolicy 0x246).prot = true ∧ exceeds (readPolicy 0x246) Context.root0.policy = false ∧
    newOk [0x100000, 0, 0, 0, 0x11, 0x246, 0, 0] = true ∧
    (∃ s1, caller.rds 0x30000 8 (family (kid .live) keyedDesc) = .ok [0x100000, 0, 0, 0, 0x11, 0x246, 0, 0] s1 ∧ (freeKeySlot s1).isSome = true) ∧
    (∃ t v, ctxNew caller 0x30000 (family (kid .live) keyedDesc) = .done t 0 v) ∧
    (∃ s : State, freeKeySlot s = none) :=
  ⟨by decide, by decide, by decide +kernel, readHas_ok (p := fun s1 => (freeKeySlot s1).isSome) (by decide +kernel), outIs_done (by decide +kernel),
   ⟨{ run codeSwath with ctxs := (List.range 64).map (fun i => (i, { Context.root0 with key := some i })) }, by decide +kernel⟩⟩

def rangeGrant : Grant := { id := 1, kind := .range }
def granted : RangeEnt := { wide with lineage := [(1, 1)] }

theorem witness_ContextsMadeAndEnded_end : (∃ t v, ctxRevoke caller 1 1 (family (kid .live [rangeGrant] [granted]) []) = .done t 0 v) ∧
    (∃ t v, ctxBudg caller 1 0x30000 (family (kid .live) [(0, 1 + 2 ^ 16 + 1000 * 2 ^ 32)]) = .done t 0 v) ∧
    (∃ t v, ctxQ caller 1 (7 * 2 ^ 10 + 5) (family (kid .live) []) = .done t 0 v) ∧
    (∃ t v, ctxKill caller 1 (family (kid .live) []) = .done t 0 v) ∧ isChild (family (kid .live) []) 0 2 = false :=
  ⟨outIs_done (by decide +kernel), outIs_done (by decide +kernel), outIs_done (by decide +kernel), outIs_done (by decide +kernel), by decide⟩

/-- A RANGE grant of 16 units at 0x1000000, with every permission. -/
def rangeDesc : List (Nat × Nat) := [(0, 0xE3), (1, 0x1000000), (2, 0x20000), (3, 16)]

theorem witness_Grants : ∃ s s1 t v x y y', s = family (kid .live) rangeDesc ∧ caller.rds 0x30000 4 s = .ok [0xE3, 0x1000000, 0x20000, 16] s1 ∧
    ctxGrant caller 1 0x30000 s = .done t 0 v ∧ s1.ctx? 0 = some x ∧ s1.ctx? 1 = some y ∧ t.ctx? 1 = some y' := by
  obtain ⟨t, v, h, h1⟩ := outHas_done (p := fun t => (t.ctx? 1).isSome) (r := ctxGrant caller 1 0x30000 (family (kid .live) rangeDesc)) (by decide +kernel)
  obtain ⟨s1, hr, h2⟩ := readHas_ok (l := [0xE3, 0x1000000, 0x20000, 16]) (p := fun t => (t.ctx? 0).isSome && (t.ctx? 1).isSome)
    (r := caller.rds 0x30000 4 (family (kid .live) rangeDesc)) (by decide +kernel)
  simp only [Bool.and_eq_true, Option.isSome_iff_exists] at h1 h2
  obtain ⟨⟨x, hx⟩, y, hy⟩ := h2
  obtain ⟨y', hy'⟩ := h1
  exact ⟨_, s1, t, v, x, y, y', rfl, hr, h, hx, hy, hy'⟩

theorem witness_ContextForms : ∀ (d : BitVec 5), (∀ r ws, Clear (family (kid .live) []) (foc codeSwath) codeSwath r ws) ∧ pairOf d = [.x (2 * d.toNat), .x (2 * d.toNat + 1)] :=
  fun _ => ⟨fun r ws => clear_of rfl rfl r ws, rfl⟩

def asks : S2Wait := { owner := 0, seq := 9, ctx := 1, va := 0x20000, req := .swath 0 0 }

theorem witness_ContextReports : (∃ x l s1, (family (kid .live) []).ctx? 1 = some x ∧ (family (kid .live) []).descends 0 1 = true ∧ infoItem 0 = true ∧
      infoWords (family (kid .live) []) 1 x 0 = some l ∧ caller.wrs 0x30000 l (family (kid .live) []) = .ok () s1) ∧
    infoItem 5 = false ∧ infoItem 0x130 = false ∧ infoItem 0x12F = true ∧ (family (kid .live) []).descends 1 0 = false ∧
    (fld (BitVec.ofNat 64 (2 ^ 32 + Cause.walkStage2.code.toNat)) 43 32 = 1 ∧ fld (BitVec.ofNat 64 (2 ^ 32 + Cause.walkStage2.code.toNat)) 15 0 = Cause.walkStage2.code.toNat) ∧
    (∃ s1, caller.rds 0x30000 8 (family (kid .live) [(0, 2 ^ 32 + Cause.walkStage2.code.toNat), (7, 9)]) =
      .ok [BitVec.ofNat 64 (2 ^ 32 + Cause.walkStage2.code.toNat), 0, 0, 0, 0, 0, 0, 9] s1) := by
  obtain ⟨s1, h⟩ := mres_ok (r := caller.wrs 0x30000 ((infoWords (family (kid .live) []) 1 (kid .live) 0).getD []) (family (kid .live) [])) (by decide +kernel)
  exact ⟨⟨_, _, s1, rfl, by decide, by decide, rfl, h⟩, by decide, by decide, by decide, by decide, by decide, readIs_ok (by decide +kernel)⟩

theorem witness_ContextReports_reserved : recordOk [0x10000000000000] = false ∧ recordOk [0, 0, 0, 0x2000000000000] = false ∧
    recordOk [BitVec.ofNat 64 (2 ^ 32 + Cause.walkStage2.code.toNat), 0, 0, 0, 0, 0, 0, 9] = true ∧
    (∃ s1, caller.rds 0x30000 8 (family (kid .live) [(0, 0x10000000000000)]) = .ok [0x10000000000000, 0, 0, 0, 0, 0, 0, 0] s1) :=
  ⟨by decide, by decide, by decide, readIs_ok (by decide +kernel)⟩

/-- Field 0 of context 1 stands FAULTED, under the tag of its launch. -/
def faulted : State :=
  { family (kid .live) [] with fields := [(0, { codeField with ctx := 1, status := .faulted })] }

theorem witness_ContextReports_items : (({ family (kid .live) [] with s2waits := [asks] } : State).s2waits = [asks] ∧ asks.owner = caller.ctx ∧ asks.ctx = 1 ∧
      asks.seq = BitVec.ofNat 32 (fld (9 : W64) 31 0)) ∧
    (∃ f l, faulted.fields = [(0, f)] ∧ f.status = .faulted ∧ f.ctx = 1 ∧ mget faulted.launches f.launch = some l ∧
      f.num = fld (BitVec.ofNat 64 (f.num + f.mx * 2 ^ 24 + f.my * 2 ^ 29)) 23 0 ∧ f.mx = fld (BitVec.ofNat 64 (f.num + f.mx * 2 ^ 24 + f.my * 2 ^ 29)) 28 24 ∧
      f.my = fld (BitVec.ofNat 64 (f.num + f.mx * 2 ^ 24 + f.my * 2 ^ 29)) 33 29 ∧ l.ltag.toNat = fld (BitVec.ofNat 64 l.ltag.toNat) 31 0) ∧
    (family (kid .live) []).s2waits = [] :=
  ⟨⟨rfl, rfl, rfl, by decide⟩, ⟨_, _, rfl, rfl, rfl, rfl, by decide, by decide, by decide, by decide⟩, rfl⟩

theorem witness_SubtreesAreScrubbed : (∃ x u r, (family (kid .scrubbing [] [] [(5, 40), (1, 3)]) []).ctx? 1 = some x ∧ x.scrubLeft = u :: r ∧ u.1 = 5) ∧
    Mem.wf (family (kid .scrubbing [] [] [(5, 40), (1, 3)]) []).mem = true ∧
    (scrubRoot (family (kid .scrubbing) []) 1 = true ∧ (kid .scrubbing).scrubLeft = []) ∧
    (family (kid .scrubbing) []).descends 1 1 = true ∧ (family (kid .scrubbing) []).descends 1 0 = false :=
  ⟨⟨_, _, _, rfl, rfl, rfl⟩, by decide +kernel, by decide, by decide, by decide⟩
theorem witness_SubtreesAreScrubbed_held : ∃ x, (family { kid .scrubbing with scrubHeld := [(1, 3)] } []).ctx? 1 = some x ∧ (1, 3) ∈ x.scrubHeld :=
  ⟨_, rfl, by decide⟩
/-! Scheduling: context 1 holds quadrant 0 of core 0 and its banks; its field 0 waits to exit there, and its launch 1 waits for the place. -/

def tenant0 : Context := kid .live [{ id := 1, kind := .quad 0 1 true }, { id := 2, kind := .banks 0 (BitVec.allOnes 64) }]
def small (ctx cls next : Nat) (slots : List Nat) : Launch :=
  { codeLaunch with ctx := ctx, cls := cls, next := next, slots := slots, lrec := { codeLaunch.lrec with vregs := 8, scr := 0, barr := 0 } }
def exiting : Swath := { Swath.zero with vregs := 8, ctl := { Ctl.zero with wait := .exit } }
def small0 (ctx : Nat) (w : Swath) : Field := { codeField with ctx := ctx, scrKib := 0, bars := [], sws := [(0, w)] }
def tenants (cls : Nat) (w : Swath := exiting) : State :=
  { run w with
    ctxs := [(0, Context.root0), (1, tenant0)]
    launches := [(0, small 1 1 1 [0]), (1, small 1 cls 0 [])]
    fields := [(0, small0 1 w)] }

theorem witness_Decisions : (∃ p, mget (runPager Swath.zero).pagers (192 - 192) = some p ∧ p.running = true ∧ p.sw.ctl.wait = .none) ∧
    (∃ w, (run { codeSwath with ctl := { Ctl.zero with passed := 32 } }).swathAt 0 0 = some w ∧ 32 ≤ w.ctl.passed ∧ w.ctl.aged = none) ∧
    (∃ w, (run codeSwath).swathAt 0 0 = some w ∧ w.ctl.passed < 32) :=
  ⟨⟨_, rfl, rfl, rfl⟩, ⟨_, rfl, by decide, rfl⟩, ⟨_, rfl, by decide⟩⟩

/-- Launch 1 of context 1 alone, whose context holds quadrants and banks or nothing. -/
def alone (gs : List Grant) : State :=
  { run codeSwath with ctxs := [(0, Context.root0), (1, kid .live gs)], launches := [(1, small 1 1 0 [])], fields := [] }

theorem witness_Placement : (State.placing { run codeSwath with heath := { Heath.reset with halted := true } } = false) ∧
    ((run codeSwath).placing = true ∧ waitOrder (run codeSwath) = []) ∧
    ((alone []).placing = true ∧ (waitOrder (alone [])).find? (hopeless (alone [])) = some (.fresh 1)) ∧
    (∃ n l, mget (alone []).launches n = some l ∧ l.lrec.mw = 0 ∧ l.slots = []) :=
  ⟨rfl, by decide +kernel, by decide +kernel, ⟨1, _, rfl, rfl, rfl⟩⟩

theorem witness_Placement_seats : (waitOrder (alone tenant0.grants)).find? (hopeless (alone tenant0.grants)) = none ∧
    (waitOrder (alone tenant0.grants)).find? (fun c => (dieCores (0 / 48)).any (fitsOn (alone tenant0.grants) c [])) = some (.fresh 1) ∧
    seatsOf (alone tenant0.grants) (.fresh 1) 0 (standingBut (alone tenant0.grants) []) =
      some [{ core := 0, quads := [(0, 0)], mquad := 0, banks := [] }] := by decide +kernel

theorem witness_SwapOuts : (∃ f t, (run codeSwath).field? 0 = some f ∧ f.stop = none ∧ t = ({ brk := true, cmd := false, code := 0, mask := 1, halted := false } : Stop) ∧
      ({ f with stop := some t }).stop = some t ∧ t.halted = false) ∧
    (sliceOver ({ tenants 1 with fields := [(0, { small0 1 exiting with slicing := true })] } : State) 0 = true) ∧
    (sliceOver (tenants 1) 0 = false ∧ (tenants 1).placing = true ∧ (roomFor (tenants 1) 0).isSome = true) ∧
    roomFor (run codeSwath) 0 = none ∧ claimFor (run codeSwath) 0 = none :=
  ⟨⟨_, _, rfl, rfl, rfl, rfl, rfl⟩, by decide +kernel, by decide +kernel, by decide +kernel, by decide +kernel⟩

/-- A field that is to stop: its group is in its slot, or is still written there. -/
def stopping (saving : Bool) : State :=
  { run codeSwath with fields := [(0, { codeField with
      status := .swapped, saving := saving, stop := some { brk := false, cmd := true, code := 0, mask := 1, halted := false } })] }
theorem witness_SwapOuts_stop : ∀ b, (∃ f t, (stopping b).field? 0 = some f ∧ f.stop = some t ∧ t.halted = false) ∧
    ((stopping b).swapGroup 0).groupOf 0 ≠ [] ∧ ∀ g ∈ ((stopping b).swapGroup 0).groupOf 0, g.2.saving = b := by
  intro b
  refine ⟨⟨_, _, rfl, rfl, rfl⟩, ?_⟩
  cases b <;> decide +kernel

theorem witness_SwapOuts_claims : (tenants 0).placing = true ∧ claimFor (tenants 0) 0 = some [0] := by decide +kernel

/-- A field of context 0 with little state, resident or swapped. -/
def leaver (f : Field) : State := { run codeSwath with launches := [(0, small 0 1 1 [0])], fields := [(0, f)] }
def left0 : Field := { (small0 0 exiting).leave .swapped with ready := ((small0 0 exiting).leave .swapped).resumable, readyAt := 0 }
def slotOk (p : State → Bool) : Except (XErr × Nat) State → Bool
  | .ok s => p s
  | .error _ => false
theorem slotOk_ok {p : State → Bool} {r : Except (XErr × Nat) State} (h : slotOk p r = true) : ∃ s, r = .ok s ∧ p s = true := by
  cases r <;> simp_all [slotOk]

theorem witness_SwapOuts_store : ∃ s1, (leaver (small0 0 exiting)).field? 0 = some (small0 0 exiting) ∧ (small0 0 exiting).status = .resident ∧
    mget (leaver (small0 0 exiting)).launches 0 = some (small 0 1 1 [0]) ∧ (small 0 1 1 [0]).lrec.mw = 0 ∧
    State.storeSlot { (leaver (small0 0 exiting)).setField 0 left0 with nextReady := 1 } 0 0
      (slotVa (small 0 1 1 [0]).lrec left0) (small 0 1 1 [0]).lrec left0 = .ok s1 ∧ s1.field? 0 = some left0 := by
  obtain ⟨s1, h, hp⟩ := slotOk_ok (p := fun s => decide (s.field? 0 = some left0)) (r := State.storeSlot { (leaver (small0 0 exiting)).setField 0 left0 with nextReady := 1 } 0 0
      (slotVa (small 0 1 1 [0]).lrec left0) (small 0 1 1 [0]).lrec left0) (by decide +kernel)
  exact ⟨s1, rfl, rfl, rfl, rfl, h, by simpa using hp⟩

theorem witness_SwapOuts_scan : ∃ w s1, mget left0.sws 0 = some w ∧ left0.status = .swapped ∧ left0.arena = false ∧
    (leaver left0).storeSlot 0 0 (slotVa (small 0 1 1 [0]).lrec left0) (small 0 1 1 [0]).lrec left0 = .ok s1 := by
  obtain ⟨s1, h, -⟩ := slotOk_ok (p := fun _ => true) (r := (leaver left0).storeSlot 0 0 (slotVa (small 0 1 1 [0]).lrec left0) (small 0 1 1 [0]).lrec left0) (by decide +kernel)
  exact ⟨_, s1, rfl, rfl, rfl, h⟩

/-- The host holds a half of the slot's first line. -/
def hostHolds (s : State) : State :=
  { s with dir := [(slotVa (small 0 1 1 [0]).lrec left0 / 128, { shr := 0, o := false, owner := 0, hlo := 2, hhi := 0 })] }
theorem witness_SwapOuts_holds :
    slotHold { (leaver (small0 0 exiting)).setField 0 left0 with nextReady := 1 } 0 0 (slotVa (small 0 1 1 [0]).lrec left0)
      (small 0 1 1 [0]).lrec left0 = none ∧
    slotHold (leaver left0) 0 0 (slotVa (small 0 1 1 [0]).lrec left0) (small 0 1 1 [0]).lrec left0 = none ∧
    (slotHold (hostHolds (leaver left0)) 0 0 (slotVa (small 0 1 1 [0]).lrec left0) (small 0 1 1 [0]).lrec left0).any
      (fun t => t.field? 0 == some left0) = true := by decide +kernel
theorem witness_SwapOuts_lines : ∃ (f : Field) (w : Swath), (run codeSwath).field? 0 = some f ∧ mget f.sws 0 = some w ∧ f.status = .resident ∧
    f.saving = false ∧ quadLines (run codeSwath) f.core w.quad ≤ 2048 := ⟨_, _, rfl, rfl, rfl, rfl, by decide⟩
/-- Two contexts share quadrant 0 of core 0: context 1's field is there, context 2's waits. -/
def sharing : State :=
  { tenants 1 with
    ctxs := [(0, Context.root0), (1, tenant0), (2, tenant0)]
    launches := [(0, small 1 1 1 [0]), (1, small 2 1 0 [])] }
theorem witness_SwapOuts_slice : (∃ a l, (waitOrder sharing).find? (fun a => (a.launch sharing).any (fun l =>
      l.ctx != 1 && (ownedQuads sharing l.ctx 0).contains 0 && cannotPlace sharing a)) = some a ∧ a.launch sharing = some l ∧ l.cls = 1) ∧
    (∃ e h, e ∈ quadGroups sharing 0 ∧ sharing.field? e = some h ∧ h.ctx = 1 ∧
      1 ≤ ((mget sharing.launches h.launch).map (·.cls)).getD 0 ∧ e ∈ (sharing.groupOf e).map (·.1)) ∧
    (waitOrder (run codeSwath)).find? (fun a => (a.launch (run codeSwath)).any (fun l =>
      l.ctx != 1 && (ownedQuads (run codeSwath) l.ctx 0).contains 0 && cannotPlace (run codeSwath) a)) = none :=
  ⟨⟨.fresh 1, small 2 1 0 [], by decide +kernel, by decide +kernel, rfl⟩, ⟨0, _, by decide +kernel, rfl, rfl, by decide +kernel, by decide +kernel⟩, by decide +kernel⟩

theorem witness_BudgetPeriods : (∃ x, (run codeSwath).ctx? 0 = some x) ∧ (∃ k e, mget (run codeSwath).frames k = some e) ∧
    ((run codeSwath).time.toNat / 20 * 20 + 20) / 1000 = (run codeSwath).time.toNat / 1000 := ⟨⟨_, rfl⟩, ⟨2, _, rfl⟩, by decide⟩

theorem witness_CopiesAndWalks_size : (35 : Nat) < 36 ∧ 0 < tlbSize (run codeSwath) 0 := by decide +kernel
theorem witness_CopiesAndWalks : (∃ e, compose (run codeSwath) 0 0 0x20000 = .ok e) ∧ (∃ e, compose (run codeSwath) 0 5 0x20000 = .error e) ∧
    linesHold (run codeSwath) (dirtyLines (run codeSwath) (fun _ => false) (isCopy 0 0 0)) = none ∧ isCopy 0 0 1 (line1 0) = false :=
  ⟨⟨_, rfl⟩, ⟨_, rfl⟩, rfl, by decide⟩
/-! The fabric: node 9 has slot 3 and node 10 slot 4; the unit at 0x30000 is HBM. -/

def agentNode (missed : Nat := 0) (lost : Bool := false) : Node := { route := 1, lost := lost, needGrant := false, missed := missed }
def entry (o : Bool) (owner : Nat) (shr : BitVec 48) (h : Nat := 0) : DirEnt := { hhi := h, hlo := 0, owner := owner, shr := shr, o := o }
def homed (d : NMap DirEnt := []) (u : List Upgrade := []) (out : List Out := []) (m : Nat := 0) (lost : Bool := false) : State :=
  { State.reset with sharers := [(3, 9), (4, 10)], nodes := [(9, agentNode m lost)], dir := d, upgrades := u, outbox := out }
def upgrading (n : Nat) : Upgrade := { unit := 3, owner := 3, owed := [(4, n)], fenced := false, queued := [] }

theorem servable_home {d : NMap DirEnt} {u : List Upgrade} {out : List Out} {m : Nat} {b : Bool} : servable (homed d u out m b) 0x30000 :=
  ⟨rfl, rfl, rfl⟩

theorem witness_HomeRequests : (∃ s, servable s 0x30000 ∧ heard s 9 = true ∧ s.portTo 9 = some 0 ∧ s.carries 0 = true ∧ slotOf s 9 false = some 3 ∧
      mget s.sharers 3 = some 9 ∧ rebuilt s 0x600 = false ∧ (∀ u ∈ s.upgrades, u.unit ≠ 3) ∧ (s.dirEnt 0x600).o = false ∧
      s.poisoned.contains 0x600 = false ∧ (∀ r ∈ s.deferred, r.line ≠ 0x600) ∧ s.mem.wf = true ∧ hostHalf s 0x600 0 = 0 ∧
      s.heath.hostPcie = false ∧ s.heath.hostDown = false) ∧
    (∃ s, servable s 0x30000 ∧ heard s 9 = true ∧ slotOf s 9 false = some 3 ∧ rebuilt s 0x600 = false ∧ (∀ u ∈ s.upgrades, u.unit ≠ 3) ∧
      (s.dirEnt 0x600).o = true ∧ (s.dirEnt 0x600).owner ≠ 3 ∧ ∃ q, s.slotPort (s.dirEnt 0x600).owner = some q ∧ s.carries q = true) ∧
    (∃ s, servable s 0x30000 ∧ heard s 9 = true ∧ slotOf s 9 false = some 3 ∧ ∃ u ∈ s.upgrades, u.unit = 3) ∧
    slotOf (homed) 11 false = none ∧ dregion 0x4000000000000 = .pool ∧
    heard { homed with heath := { Heath.reset with fenced := 1 } } 9 = false :=
  ⟨⟨homed, servable_home, by decide, by decide, by decide, rfl, rfl, rfl, by decide, rfl, rfl, by decide, rfl, rfl, rfl, rfl⟩,
   ⟨{ homed [(0x600, entry true 4 0)] with nodes := [(9, agentNode), (10, agentNode)] }, ⟨rfl, rfl, rfl⟩, by decide, rfl, rfl, by decide, rfl, by decide, 0,
     by decide, by decide⟩,
   ⟨homed [] [upgrading 256], servable_home, by decide, rfl, _, List.mem_singleton.mpr rfl, rfl⟩, rfl, rfl, by decide⟩

theorem witness_HomeRequests_owner : unitOwner (homed) 3 = none ∧
    unitOwner ({ homed [(0x600, entry true 4 0)] with nodes := [(9, agentNode), (10, agentNode)] } : State) 3 = some 4 ∧
    State.slotPort { homed [(0x600, entry true 4 0)] with nodes := [(9, agentNode), (10, agentNode)] } 4 = some 0 := by decide +kernel
/-- The owner of the unit in slot 3 has been asked, and answers. -/
theorem witness_HomeRequests_downgrade : ∃ s : State, rebuilt s 0x600 = false ∧ s.upgrades = [] ∧ s.heldFills = [] ∧ unitOwner s 3 = some 3 ∧
    heardSlot s 3 = true ∧ s.snooping snpData 3 (3 * 65536) = true ∧ (s.dirEnt 0x600).o = true :=
  ⟨homed [(0x600, entry true 3 0)] [] [Out.snoop 0 snpData 3 0x30000], rfl, rfl, rfl, by decide +kernel, by decide, by decide, rfl⟩

theorem witness_HomeUpgrades_nodes : heard (homed) 9 = true ∧ slotOf (homed) 9 false = some 3 ∧ heard (homed) 11 = true ∧ slotOf (homed) 11 false = none ∧
    heard ({ homed with heath := { Heath.reset with fenced := 1 } } : State) 9 = false := by decide
theorem witness_HomeUpgrades : heardSlot (homed) 3 = true ∧ ((∀ u ∈ (homed).upgrades, u.unit ≠ 3 ∧ u.owed ≠ []) ∧ (unitSharers (homed) 3).contains 3 = false) ∧
    ((unitSharers (homed [(0x600, entry false 0 0x18)]) 3).contains 3 = true ∧ (unitSharers (homed [(0x600, entry false 0 0x18)]) 3).filter (· != 3) ≠ []) ∧
    heardSlot (homed [] [upgrading 2]) 4 = true ∧ rebuilt (homed [] [upgrading 2]) 0x600 = false ∧
    (∃ u, (homed [] [upgrading 2]).upgrades = [u] ∧ u.unit = 3 ∧ u.owed = [(4, 2)] ∧ u.queued = []) ∧
    (∃ u, (homed [] [upgrading 1]).upgrades = [u] ∧ u.unit = 3 ∧ u.owed = [(4, 1)] ∧ u.queued = [] ∧ u.owner ≠ 0 ∧
      (∀ h ∈ (homed [] [upgrading 1]).heldFills, h.2 / 65536 ≠ 3) ∧ (homed [] [upgrading 1]).portTo (slotNode (homed [] [upgrading 1]) u.owner) = some 0 ∧
      (homed [] [upgrading 1]).carries 0 = true) := by
  refine ⟨by decide, ⟨by decide, by decide⟩, ⟨by decide, by decide⟩, by decide, rfl, ⟨_, rfl, rfl, rfl, rfl⟩,
    ⟨_, rfl, rfl, rfl, rfl, by decide, by decide, by decide, by decide⟩⟩

theorem witness_HoldersGiveUp : (∀ st ∈ [FrState.filling, .clean, .dirty, .upgrading], ∃ f, frameBacked (pooled [(5, leased .live)] [(100, cached st)]) (some 9) 0 = some f ∧
      ((pooled [(5, leased .live)] [(100, cached st)]).frame f).st = st ∧ heard (pooled [(5, leased .live)] [(100, cached st)]) 9 = true ∧
      backWaits (pooled [(5, leased .live)] [(100, cached st)]) 9 0 = false ∧ leaseGone (pooled [(5, leased .live)] [(100, cached st)]) f = false ∧
      frameBacked (pooled [(5, leased .live)] [(100, cached st)]) none 0 = some f) ∧
    frameBacked (homed) (some 9) 0 = none ∧ frameBacked (homed) none 0 = none ∧ heard (homed) 9 = true ∧
    (∃ p, mget (waiting .live (.pgupg 3 (poolBase / 65536))).pagers 0 = some p ∧ p.sw.ctl.wait = .pgupg 3 (poolBase / 65536)) := by
  refine ⟨fun st hst => ?_, rfl, rfl, by decide, _, rfl, rfl⟩
  simp only [List.mem_cons, List.not_mem_nil, or_false] at hst
  rcases hst with rfl | rfl | rfl | rfl
  all_goals exact ⟨100, by decide +kernel, rfl, by decide +kernel, by decide +kernel, by decide +kernel, by decide +kernel⟩

theorem witness_HoldersGiveUp_heard : ∃ s : State, frameBacked s none 0 = some 100 ∧ (s.frame 100).st = .upgrading ∧
    homeHeard s (s.frame 100).unit = true ∧ leaseGone s 100 = false :=
  ⟨pooled [(5, leased .live)] [(100, cached .upgrading)], by decide +kernel, rfl, by decide +kernel, by decide +kernel⟩
theorem witness_HoldersGiveUp_unheard : ∃ s : State, ∀ g, frameBacked s none 0 = some g → (s.frame g).st = .upgrading →
    homeHeard s (s.frame g).unit = false := by
  refine ⟨{ pooled [(5, leased .live)] [(100, cached .upgrading)] with heath := { Heath.reset with fenced := 1 } }, fun g hg _ => ?_⟩
  have h : frameBacked ({ pooled [(5, leased .live)] [(100, cached .upgrading)] with heath := { Heath.reset with fenced := 1 } } : State) none 0 = some 100 := by
    decide +kernel
  rw [h] at hg
  cases hg
  decide +kernel

theorem witness_HostHalves : (homed [] [] [Out.snoop hostPort snpInv 0 0x30040]).snooping snpInv 0 (0x600 * 128 + 64 * 1) = true ∧
    (homed [] [] [Out.snoop hostPort snpInv 0 0x30040]).snooping snpRebuild 0 0x30040 = false ∧
    (homed).heldFills = [] ∧ (homed).eccWaits = [] ∧
    (homed).snooping snpInv 0 0x30040 = false ∧ (homed).mem.wf = true ∧ dregion (0x600 * 128) = .hbm ∧
    (∃ e ∈ (homed [(0x600, entry false 0 0 2)]).dir, e.2.hhi = 2) :=
  ⟨by decide, by decide, rfl, rfl, by decide, rfl, rfl, _, List.mem_singleton.mpr rfl, rfl⟩

theorem witness_DeadAgents : (3 ≤ ((homed [] [] [] 3).node 9).missed ∧ ((homed).node 9).missed < 3) ∧
    ((homed [(0x600, entry true 3 0)]).upgrades = [] ∧ (homed [(0x600, entry true 3 0)]).fields = [] ∧ (homed [(0x600, entry true 3 0)]).eccWaits = [] ∧
      (homed [(0x600, entry true 3 0)]).heldFills = [] ∧ slotOf (homed [(0x600, entry true 3 0)]) 9 false = some 3 ∧
      ∃ e ∈ (homed [(0x600, entry true 3 0)]).dir, e.2.o = true ∧ e.2.owner = 3) ∧
    (∃ s : State, mget s.sharers 3 = some 9 ∧ (s.node 9).dead = true) ∧ (mget (homed).sharers 3 = some 9 ∧ ((homed).node 9).dead = false) ∧
    ((homed).nodes = [(9, (homed).node 9)] ∧ ((homed).node 9).route ≠ 0 ∧ heard (homed) 9 = true ∧ ((homed).node 11).route = 0) :=
  ⟨⟨by decide, by decide⟩, ⟨rfl, rfl, rfl, rfl, rfl, _, List.mem_singleton.mpr rfl, rfl, rfl⟩,
   ⟨{ homed with nodes := [(9, { agentNode with dead := true })] }, rfl, rfl⟩, ⟨rfl, rfl⟩, ⟨rfl, by decide, by decide, rfl⟩⟩

/-- Whether agents may write a range is a free value, so one of the two clauses holds of each line. -/
theorem witness_DirectoryErrors : (Config.readOnlyClass 0x600 = true ∨ Config.readOnlyClass 0x600 = false) ∧ (homed).mem.wf = true ∧
    rebuilt (homed) 0x600 = false ∧ (homed).heath.hostPcie = false ∧ (homed).heath.hostDown = false ∧
    dregion (0x600 * 128) = .hbm ∧ heardSlot (homed) 3 = true ∧
    (∀ d : List (Nat × Nat × BitVec 512), ∃ s : State, ∃ w, s.eccWaits = [w] ∧ w.line = 0x600 ∧ w.owed = [3] ∧ w.fills = [] ∧ w.dirty = d ∧
      s.heath.hostPcie = false ∧ s.heath.hostDown = false ∧ heardSlot s 3 = true) :=
  ⟨by cases Config.readOnlyClass 0x600 <;> simp, rfl, rfl, rfl, rfl, rfl, by decide,
   fun d => ⟨{ homed with eccWaits := [{ line := 0x600, owed := [3], dirty := d, fills := [] }] }, _, rfl, rfl, rfl, rfl, rfl, rfl, rfl,
     show heardSlot (homed) 3 = true by decide⟩⟩

theorem witness_DirectoryErrors_silent : ∀ k ∈ [3, 0, hostExcl], ∃ (s : State) (w : _), w ∈ s.eccWaits ∧ w.line = 0x600 ∧ k ∈ w.owed ∧
    (k = 3 → k ≠ 0 ∧ k ≠ hostExcl) ∧ s.upgrades = [] ∧ s.heath.hostPcie = false ∧ s.heath.hostDown = false :=
  fun k _ => ⟨{ homed with eccWaits := [{ line := 0x600, owed := [k], dirty := [], fills := [] }] }, _, List.mem_singleton.mpr rfl, rfl,
    List.mem_singleton.mpr rfl, fun h => h ▸ by decide, rfl, rfl, rfl⟩

theorem witness_SilentSharers : (∃ u ∈ (homed [] [upgrading 2]).upgrades, u.unit = 0x30000 / 65536 ∧ ∃ o ∈ u.owed, o.1 = 4) ∧
    (∀ u ∈ (homed [] [upgrading 2]).upgrades, u.unit = 0x30000 / 65536 → ∀ o ∈ u.owed, o.1 ≠ 3) ∧ (homed [] [upgrading 2]).eccWaits = [] :=
  ⟨⟨_, List.mem_singleton.mpr rfl, rfl, _, List.mem_singleton.mpr rfl, rfl⟩, by decide, rfl⟩

/-! Submission: queue 5 is bound to context 0 under tag 7, and agent 2 has a claim. -/

def claim (q : Nat) (l : List W64) : Claim := { queue := q, words := l, accNo := 4, ctx := 0, cls := 1, vf := none, waiting := false }
def booted (q : Queue := { Queue.zero with binding := some { ctx := 0, pasid := 7, cls := 1 } }) (c : NMap Claim := []) : State :=
  { run codeSwath with heath := { Heath.reset with bootStep := 6 }, queues := [(5, q)], claims := c }
def blank (l : List W64) : List W64 := l ++ List.replicate (16 - l.length) 0
def full (n : Nat) : Queue :=
  { Queue.zero with binding := some { ctx := 0, pasid := 7, cls := 1 }, recs := List.replicate n (claim 5 (blank [1])) }

theorem witness_QueuePort : (6 ≤ (booted).heath.bootStep ∧ (blank [1]).length = 16 ∧ enqueueAs (booted) none 5 (some 7) = some (0, 1) ∧
      ((booted).queue 5).recs.length < 64) ∧ 64 ≤ ((booted (full 64)).queue 5).recs.length ∧
    enqueueAs (booted) none 5 (some 8) = none ∧ enqueueAs (booted) (some 1) 1024 none = none :=
  ⟨⟨by decide, rfl, rfl, by decide⟩, by decide, rfl, rfl⟩

theorem witness_QueuePort_elsewhere : (64 : Nat) ≠ 0 ∧ (blank [1]).length ≠ 15 ∧ (State.reset).heath.bootStep < 6 := by decide
theorem witness_AgentClaims_mismatch : (191 : Nat) < 192 ∧ 6 ≤ (booted).heath.bootStep ∧ State.reset.heath.bootStep < 6 := by decide
theorem witness_AgentClaims : ∃ r rest, 6 ≤ (booted (full 2)).heath.bootStep ∧ mget (booted (full 2)).claims 2 = none ∧
    ((booted (full 2)).queue 5).recs = r :: rest ∧ ((booted (full 2)).queue 1024).recs = [] ∧ chooseQueue (booted (full 2)) = some 5 :=
  ⟨_, _, by decide, rfl, rfl, rfl, by decide⟩

/-- A launch record at 0x40000 and the enqueue record that names it. -/
def launchWords : List W64 := [0x20000, 0x20000, 64, 0, 0, 1, 0, 0, 0, 0, 0, 0x100000, 1, 0, 0, 0]
def launching (rec : List W64) : State :=
  { booted (c := [(2, claim 5 (blank [1, 9, 0x40000]))]) with
    mem := rec.zipIdx.foldl (fun (m : Mem) (x : W64 × Nat) => m.wrN (0x40000 + 8 * x.2) 8 x.1.toNat) (run codeSwath).mem }
def fetched (l : List W64) : Except XErr (List W64) → Bool
  | .ok v => v == l
  | .error _ => false
theorem fetched_ok {l : List W64} {r : Except XErr (List W64)} (h : fetched l r = true) : r = .ok l := by
  cases r <;> simp_all [fetched]

theorem witness_LaunchChecks : ∃ c, mget (launching launchWords).claims 2 = some c ∧ c.queue ≠ 1024 ∧ c.waiting = false ∧ c.lrec = none ∧
    enqueueOk (launching launchWords) c = true ∧ judge1 (launching launchWords) 0 false 0x40000 128 = .can ∧
    fetchLaunch (launching launchWords) 0 0x40000 = .ok launchWords ∧ launchFields launchWords = true ∧ launchShape (readLaunch launchWords) = true ∧
    judgeAll (launching launchWords) 0 (launchRanges (readLaunch launchWords)) = .can :=
  ⟨_, rfl, by decide, rfl, rfl, by decide, by decide +kernel, fetched_ok (by decide +kernel), by decide +kernel, by decide +kernel, by decide +kernel⟩

theorem witness_LaunchChecks_refused : enqueueOk (booted) (claim 5 (blank [1, 9, 0x40001])) = false ∧ launchFields (1 :: blank [0, 2 ^ 32]) = false ∧
    judge1 (run codeSwath) 5 false 0x40000 128 = .cannot := by decide +kernel

/-- A CTXKILL record with its pair at 0x50000. -/
def manageWords (id : W64) : List W64 := blank [2, 0, 0, 0, 6, id, 0, 0x50000]
def managing (id : W64) : State :=
  { booted (c := [(2, claim 1024 (manageWords id))]) with ctxs := [(0, Context.root0), (1, kid .live)] }

theorem witness_ManagementRecords : ∃ c x, mget (managing 1).claims 2 = some c ∧ c.queue = 1024 ∧ manageOk c.words = true ∧
    forContext (managing 1) 0 0 0x50000 true = .ok x ∧ resultHold (managing 1) c.words = none :=
  ⟨_, _, rfl, rfl, by decide, rfl, Option.isNone_iff_eq_none.mp (by decide +kernel)⟩

theorem witness_ManagementRecords_forms : (∃ s1 s2, manageForm (manageWords 2) (managing 2) = .done s1 3 0 ∧
      dpaCaller.wrs 0x50000 [BitVec.ofNat 64 3, 0] s1 = .ok () s2) ∧
    (∃ r s2, manageForm (manageWords 5000) (managing 5000) = .trap r ∧
      dpaCaller.wrs 0x50000 [BitVec.ofNat 64 (2 ^ 63 + r.cause.code.toNat), 0] (managing 5000) = .ok () s2) ∧
    manageOk (blank [2, 0, 0, 0, 9]) = false := by
  obtain ⟨s2, h⟩ := mres_ok (r := dpaCaller.wrs 0x50000 [BitVec.ofNat 64 3, 0] (managing 2)) (by decide +kernel)
  obtain ⟨s3, h3⟩ := mres_ok (r := dpaCaller.wrs 0x50000 [BitVec.ofNat 64 (2 ^ 63 + Cause.engineArg.code.toNat), 0] (managing 5000)) (by decide +kernel)
  exact ⟨⟨_, s2, rfl, h⟩, ⟨_, s3, rfl, h3⟩, by decide⟩

/-- Launch 7 is over, with a completion word or none. -/
def over7 (compl : W64) : Launch := { codeLaunch with finished := 1, lrec := { codeLaunch.lrec with compl := compl } }
def overState (compl : W64) (ctx : Nat := 0) : State := { run codeSwath with launches := [(7, { over7 compl with ctx := ctx })] }

theorem witness_LaunchCompletion_vector : (∃ (s : State) (l : Launch) (x : Context) (v : Nat), mget s.launches 7 = some l ∧ l.done = false ∧
      l.lrec.compl = 0 ∧ l.irq = true ∧ s.ctx? l.ctx = some x ∧ x.vf = some v ∧ s.masked.contains v = false) ∧
    (∃ (s : State) (l : Launch), mget s.launches 7 = some l ∧ l.done = false ∧ l.lrec.compl = 0 ∧ l.irq = false) ∧
    (∃ e, forContext (overState 0x50000 5) 0 5 0x50000 true = .error e ∧ e.cause.parks = false ∧ e.gate = none) :=
  ⟨⟨{ run codeSwath with ctxs := [(0, { Context.root0 with vf := some 3 })], launches := [(7, { over7 0 with irq := true })] },
     _, _, 3, rfl, rfl, rfl, rfl, rfl, rfl, rfl⟩, ⟨{ run codeSwath with launches := [(7, { over7 0 with irq := false })] }, _, rfl, rfl, rfl, rfl⟩,
   ⟨_, rfl, rfl, rfl⟩⟩
theorem witness_LaunchCompletion : (∃ l, mget (overState 0).launches 7 = some l ∧ l.done = false ∧ l.complWait = false ∧
      l.finished = l.lrec.count * l.lrec.group ∧ l.lrec.compl = 0) ∧
    (∃ l x, mget (overState 0x50000).launches 7 = some l ∧ l.lrec.compl ≠ 0 ∧ forContext (overState 0x50000) 0 l.ctx 0x50000 true = .ok x ∧
      dregion x.dpa = .hbm ∧ (overState 0x50000).mem.wf = true ∧ x.dpa % 8 = 0 ∧ writeHold (overState 0x50000) (x.dpa / 128) (byteMask (x.dpa % 128) 8) = none) ∧
    (∃ l e, mget (overState 0x50000 5).launches 7 = some l ∧ forContext (overState 0x50000 5) 0 l.ctx 0x50000 true = .error e ∧ e.cause.parks = false) :=
  ⟨⟨_, rfl, rfl, rfl, rfl, rfl⟩, ⟨_, _, rfl, by decide, rfl, rfl, by decide +kernel, rfl, by rfl⟩, ⟨_, _, rfl, rfl, rfl⟩⟩

def stopped (st : FStatus) (t : Option Stop) : State :=
  { run codeSwath with fields := [(0, { codeField with status := st, stop := t })], heath := { Heath.reset with bootStep := 6 } }
def halt : Stop := { brk := false, cmd := true, code := 0, mask := 1, halted := true }

theorem witness_DebuggerCommands : (namedFields (stopped .resident none) 0 0 0 = [0] ∧ ∃ f, (stopped .resident none).field? 0 = some f ∧ f.status = .resident ∧ f.stop = none) ∧
    (∃ f, (stopped .swapped none).field? 0 = some f ∧ f.status = .swapped ∧ f.stop = none ∧ (stopped .swapped none).bankOf f.ctx = none) ∧
    (∃ f g l x, (stopped .swapped (some halt)).field? 0 = some f ∧ f.stop = some g ∧ g.halted = true ∧ f.status = .swapped ∧
      f.ready = false ∧ ({ f with stop := none } : Field).resumable = true ∧ f.saving = false ∧
      mget (stopped .swapped (some halt)).launches f.launch = some l ∧
      forContext (stopped .swapped (some halt)) (f.core / 48) f.ctx (slotVa l.lrec f) true = .ok x ∧
      dregion x.dpa = .hbm ∧ (stopped .swapped (some halt)).mem.wf = true) := by
  have hv : slotVa codeLaunch.lrec { codeField with status := .swapped, stop := some halt } = 0x100000 := by decide +kernel
  have hx : ∃ x, forContext (stopped .swapped (some halt)) 0 0 0x100000 true = .ok x ∧ dregion x.dpa = .hbm := ⟨_, rfl, rfl⟩
  obtain ⟨x, hx, hd⟩ := hx
  exact ⟨⟨by decide, _, rfl, rfl, rfl⟩, ⟨_, rfl, rfl, rfl, rfl⟩,
    ⟨_, _, codeLaunch, x, rfl, rfl, rfl, rfl, rfl, rfl, rfl, rfl, by rw [hv]; exact hx, hd, by decide +kernel⟩⟩

theorem witness_DebuggerCommands_quiet : (∀ st t, Heard (stopped st t) .i3c ∧ namedFields (stopped st t) 0 0 0 = [0]) ∧
    (∀ t ∈ [none, some halt], ∃ f x, (stopped .swapped t).field? 0 = some f ∧ f.saving = false ∧ f.stop = t ∧
      forContext (stopped .swapped t) (f.core / 48) f.ctx (slotVa codeLaunch.lrec f) true = .ok x ∧
      (stopped .swapped t).slotWaits = [] ∧ (stopped .swapped t).homeWrites = [] ∧
      writeHold (stopped .swapped t) (x.dpa / 128) (byteMask (x.dpa % 128) 8) = none) := by
  refine ⟨fun _ _ => ⟨⟨rfl, show (6 : Nat) ≠ 0 by decide, .inl rfl⟩, rfl⟩, ?_⟩
  intro t ht
  simp only [List.mem_cons, List.not_mem_nil, or_false] at ht
  rcases ht with rfl | rfl
  · have hv : slotVa codeLaunch.lrec { codeField with status := .swapped, stop := none } = 0x100000 := by decide +kernel
    have hx : ∃ x, forContext (stopped .swapped (none)) 0 0 0x100000 true = .ok x ∧
        writeHold (stopped .swapped (none)) (x.dpa / 128) (byteMask (x.dpa % 128) 8) = none := ⟨_, rfl, rfl⟩
    obtain ⟨x, hx, hh⟩ := hx
    exact ⟨_, x, rfl, rfl, rfl, by rw [hv]; exact hx, rfl, rfl, hh⟩
  · have hv : slotVa codeLaunch.lrec { codeField with status := .swapped, stop := some halt } = 0x100000 := by decide +kernel
    have hx : ∃ x, forContext (stopped .swapped (some halt)) 0 0 0x100000 true = .ok x ∧
        writeHold (stopped .swapped (some halt)) (x.dpa / 128) (byteMask (x.dpa % 128) 8) = none := ⟨_, rfl, rfl⟩
    obtain ⟨x, hx, hh⟩ := hx
    exact ⟨_, x, rfl, rfl, rfl, by rw [hv]; exact hx, rfl, rfl, hh⟩

/-- A bank whose log has a record already. -/
def logging : State := { run codeSwath with banks := [(bankNoOf none, { Bank.zero with logProd := 1 })] }
theorem witness_BankWrites_bounds : (4 : Nat) % 8 ≠ 0 ∧ (8 : Nat) % 8 = 0 ∧ (8 : Nat) < 0x100 ∧ (0x110 : Nat) % 16 = 0 ∧
    (mgetD logging.banks (bankNoOf none) .zero).nr = false ∧ (mgetD logging.banks (bankNoOf none) .zero).logProd ≠ 0 ∧
    (15 : Nat) < 16 := by decide
theorem witness_BankReads_off : (mgetD (run codeSwath).banks (bankNoOf none) .zero).en = false ∧ freeCounter cLLC = true ∧ (1 ≤ cLLC ∧ cLLC ≤ 12) ∧
    (15 < 16 ∧ 7 < 8) := by decide
theorem witness_BankWrites : (mgetD (run codeSwath).banks (bankNoOf none) .zero).nr = false ∧ (mgetD (run codeSwath).banks (bankNoOf none) .zero).logProd = 0 ∧
    (∃ b : Bank, b.nr = false ∧ b.logProd ≠ 0) ∧ (∃ b : Bank, ∃ x, mget b.bins 3 = some x) :=
  ⟨rfl, rfl, ⟨{ Bank.zero with logProd := 1 }, rfl, by decide⟩,
   ⟨{ Bank.zero with bins := [(3, { lo := 0, hi := 0, active := 0, masked := 0, predOff := 0, absent := 0, idle := 0, passes := 0 })] }, _, rfl⟩⟩

theorem witness_BankReads : (1 ≤ 7 ∧ 7 ≤ 12 ∧ freeCounter 7 = false) ∧
    (mgetD (run codeSwath).banks (bankNoOf none) .zero).nr = false := ⟨by decide, rfl⟩

/-- CLR zeroes a counter, and a bin's range is read as it was written (R420). -/
theorem test_bank_reads : bankRead ((run codeSwath).updBank none (fun b => (({ b with counters := [(7, 9)] }).clear).write 0 0x110 0x0000000900000004)) none 0x38 = 0 ∧
    bankRead ((run codeSwath).updBank none (fun b => b.write 0 0x110 0x0000000900000004)) none 0x110 = 0x0000000900000004 := by decide

/-! Heath. -/

def heathy (h : Heath) : State := { run codeSwath with heath := h }
def staged : ImageSlots := { active := 1, other := 2, staged := true, fresh := false }

theorem witness_ResetEvents : (∃ x, mget (heathy { Heath.reset with images := [(1, staged)] }).heath.images 1 = some x ∧ x.staged = true) ∧
    ((run codeSwath).mem.wf = true ∧ (heathy { Heath.reset with scrubMark := true }).heath.scrubMark = true) ∧
    (∃ f, f < 4 * framesPerDie ∧ ((pooled [] (set8 (cached .free))).frame f).role = .cache) :=
  ⟨⟨_, rfl, rfl⟩, ⟨by decide +kernel, rfl⟩, 100, by decide, by decide +kernel⟩

theorem witness_BootSteps : (State.reset.heath.held = false ∧ State.reset.heath.bootStep = 0 ∧ (State.reset.heath.image 0).fresh = false) ∧
    ((heathy { Heath.reset with images := [(0, { staged with fresh := true })] }).heath.image 0).fresh = true ∧
    (∃ p, mget (heathy { Heath.reset with bootStep := 4 }).pagers 2 = some p) ∧ 6 ≤ (booted).heath.bootStep := by
  refine ⟨⟨rfl, rfl, rfl⟩, rfl, ⟨_, rfl⟩, by decide⟩

theorem witness_BootSteps_fails : (∃ s : State, s.heath.held = false ∧ s.heath.bootStep = 1) ∧
    (∃ s : State, s.heath.held = true) ∧ (∃ s : State, s.heath.held = false ∧ s.heath.bootStep = 2) :=
  ⟨⟨heardAt 1, rfl, rfl⟩, ⟨heathy { Heath.reset with held := true }, rfl⟩, ⟨heardAt 2, rfl, rfl⟩⟩

theorem witness_HeathAnswers_heard : (∃ e, Heard { heardAt 1 with heath := { (heardAt 1).heath with
        log := [{ event := 1, uclass := 2, uindex := 3, ctx := 0, time := 0, detail := 0 }] } } .i3c ∧
      ({ heardAt 1 with heath := { (heardAt 1).heath with
        log := [{ event := 1, uclass := 2, uindex := 3, ctx := 0, time := 0, detail := 0 }] } } : State).heath.log[0]? = some e) ∧
    (Heard (heardAt 6) (.pcie none) ∧ (heardAt 6).heath.held = false) := ⟨⟨_, ⟨rfl, by decide, .inl rfl⟩, rfl⟩, ⟨rfl, by decide, .inr rfl⟩, rfl⟩

theorem witness_HeathAnswers : 1 ≤ (booted).heath.bootStep ∧ State.reset.heath.bootStep = 0 ∧
    (∃ e, (heathy { Heath.reset with log := [{ event := 1, uclass := 2, uindex := 3, ctx := 0, time := 0, detail := 0 }] }).heath.log[0]? = some e) :=
  ⟨by decide, rfl, _, rfl⟩

def keyed : Context := { kid .live with key := some 2, policy := { Context.root0.policy with prot := true } }

theorem witness_GuardedCommands : (∃ x, (family (kid .live) []).ctx? 1 = some x ∧ x.state = .live ∧ x.vf = none ∧ ∀ y ∈ (family (kid .live) []).ctxs, y.2.vf ≠ some 3) ∧
    (family (kid .live) []).ctx? 2 = none ∧
    (∃ x, ({ family keyed [] with heath := { Heath.reset with session := true } } : State).ctx? 1 = some x ∧ x.key = some 2 ∧ x.policy.prot = true ∧ x.poolUsed = false) ∧
    ((heathy { Heath.reset with session := true }).heath.image 1).active ≤ (7 : W32) ∧ State.reset.heath.session = false ∧ (∃ y, (run codeSwath).ctx? 0 = some y) :=
  ⟨⟨_, rfl, rfl, rfl, by decide⟩, rfl, ⟨_, rfl, rfl, rfl, rfl⟩, by decide, rfl, _, rfl⟩

/-- A family whose Heath runs, inside a session or not. -/
def managed (x : Context) (session : Bool) : State := { family x [] with heath := { Heath.reset with bootStep := 6, session := session } }
theorem witness_GuardedCommands_heard : (∀ b, Heard (managed (kid .live) b) .i3c ∧ Heard (managed keyed b) (.pcie none)) ∧
    (∃ x, (managed (kid .live) false).ctx? 1 = some x ∧ x.state = .live ∧ x.vf = none ∧ x.key = none ∧ ∀ y ∈ (managed (kid .live) false).ctxs, y.2.vf ≠ some 3) ∧
    (∃ x, (managed (kid .dying) false).ctx? 1 = some x ∧ x.state ≠ .live) ∧ (managed (kid .live) false).ctx? 2 = none ∧
    (∃ x, (managed keyed true).ctx? 1 = some x ∧ x.key = some 2 ∧ x.policy.prot = true ∧ x.poolUsed = false) ∧
    (((managed keyed true).heath.image 1).active ≤ (7 : W32) ∧ (managed keyed true).heath.session = true) ∧
    (∃ v : Via, v = .pcie (some 3)) ∧ (State.reset.heath.bootStep = 0 ∧ (managed keyed true).heath.bootStep ≠ 0) :=
  ⟨fun _ => ⟨⟨rfl, by decide +revert, .inl rfl⟩, rfl, by decide +revert, .inr rfl⟩, ⟨_, rfl, rfl, rfl, rfl, by decide⟩, ⟨_, rfl, by decide⟩, rfl,
   ⟨_, rfl, rfl, rfl, rfl⟩, ⟨by decide, rfl⟩, ⟨_, rfl⟩, rfl, by decide⟩

/-- Core 5 has the banks 5 and 3 carved, in that order, and Heath runs. -/
def carved (n : Nat) : State := { heardAt n with heath := { (heardAt n).heath with carved := [(5, [5, 3])] } }
theorem witness_Carving_heard : (∀ n ∈ [1, 3, 4, 6], Heard (carved n) .i3c) ∧ (carved 3).heath.bootStep < 4 ∧ 4 ≤ (carved 4).heath.bootStep ∧
    (carved 6).mem.wf = true ∧ (5 < 192 ∧ 3 < 4 ∧ 128 ≤ 128 ∧ 128 % 16 = 0) ∧
    (∀ b < 64, (3 : W64).getLsbD b = true → b ∉ (carved 6).carvedBanks 5 ∧ unitBarred (carved 6) 2 (64 * 5 + b) = false ∧
      ∀ y ∈ (carved 6).children 0, (bankMask y.2.grants 5).getLsbD b = false) ∧
    (∀ b ∈ ((carved 6).carvedBanks 5).drop (2 - (bankList 8).length), (8 : W64).getLsbD b = true) ∧
    (∃ b ∈ ((carved 6).carvedBanks 5).drop (2 - (bankList 32).length), (32 : W64).getLsbD b = false) ∧ ((carved 6).carvedBanks 5).length = 2 ∧
    (carved 6).ctxs.all (fun x => x.2.ranges.isEmpty) = true := by
  refine ⟨?_, by decide, by decide, by decide +kernel, by decide, by decide +kernel, by decide +kernel, by decide +kernel, rfl, by decide +kernel⟩
  intro n hn
  exact ⟨rfl, by decide +revert, .inl rfl⟩
/-- A range of a context over the last carved bank of core 5. -/
theorem witness_Carving_covered : ∃ (s : State), Heard s .i3c ∧ ∃ x ∈ s.ctxs, ∃ r ∈ x.2.ranges,
    r.dbase < sramBase + 5 * 0x100000 + 16384 * 2 ∧ sramBase + 5 * 0x100000 + 16384 * (2 - (bankList 8).length) < r.dbase + r.len * 65536 :=
  ⟨{ carved 6 with ctxs := [(0, Context.root0), (1, kid .live [] [{ wide with dbase := sramBase + 5 * 0x100000, len := 1 }])] },
   ⟨rfl, by decide, .inl rfl⟩, _, List.mem_cons_of_mem _ (List.mem_singleton.mpr rfl), _, List.mem_singleton.mpr rfl, by decide, by decide⟩
theorem witness_Carving : State.reset.mem.wf = true ∧
    (∀ b < 64, (3 : W64).getLsbD b = true → b ∉ State.reset.carvedBanks 5 ∧ unitBarred State.reset 2 (64 * 5 + b) = false ∧
      ∀ y ∈ State.reset.children 0, (bankMask y.2.grants 5).getLsbD b = false) ∧
    (let old := (heathy { Heath.reset with carved := [(5, [5, 3])] }).carvedBanks 5
     (∀ b ∈ old.drop (old.length - (bankList 8).length), (8 : W64).getLsbD b = true) ∧
     (∃ b ∈ old.drop (old.length - (bankList 32).length), (32 : W64).getLsbD b = false) ∧ (bankList 8).length ≤ old.length ∧ 0 < (bankList 8).length ∧
     ∃ b < 64, (32 : W64).getLsbD b = true ∧ b ∈ old) ∧ (run codeSwath).ctxs.all (fun x => x.2.ranges.isEmpty) = true := by
  refine ⟨rfl, ?_, ⟨by decide +kernel, by decide +kernel, by decide +kernel, by decide +kernel, 5, by decide, by decide, by decide +kernel⟩, by decide +kernel⟩
  intro b hb _
  exact ⟨by simp [State.carvedBanks, State.reset, Heath.reset, mgetD], by simp [unitBarred, State.scrubbing, State.unitOut, State.reset, Heath.reset, Context.root0],
    by intro y hy; simp [State.children, State.reset] at hy⟩

theorem witness_PowerAndTemperature : (heathy { Heath.reset with power := List.replicate 10 5 }).heath.power.length = 10 ∧
    (∀ x ∈ [50, 104], x < 105) ∧ (∃ x ∈ [50, 105], 105 ≤ x) := ⟨rfl, by decide, by decide⟩

theorem witness_ErrorsAndTests : (State.reset.heath.retired.contains (2, 8) = false ∧ underTest State.reset 2 8 = none ∧ fieldsOn State.reset 2 8 = []) ∧
    underTest (heathy { Heath.reset with testing := [(2, 8, 0)] }) 2 8 = some 0 ∧ underTest (heathy { Heath.reset with testing := [(2, 8, 1)] }) 2 8 = some 1 :=
  ⟨⟨rfl, rfl, rfl⟩, rfl, rfl⟩

/-- A field of context 0 is on quadrant 0 of core 0 when the quadrant fails, and its slot can take it. -/
theorem witness_ErrorsAndTests_leaves : ∃ s1, fieldsOn (leaver (small0 0 exiting)) 1 0 = [0] ∧ unitExists 1 0 = true ∧
    (leaver (small0 0 exiting)).heath.retired.contains (1, 0) = false ∧ underTest (leaver (small0 0 exiting)) 1 0 = none ∧
    (leaver (small0 0 exiting)).field? 0 = some (small0 0 exiting) ∧ onUnit 1 0 (small0 0 exiting) = true ∧
    mget (leaver (small0 0 exiting)).launches 0 = some (small 0 1 1 [0]) ∧ (small 0 1 1 [0]).lrec.mw = 0 ∧
    slotHold { (leaver (small0 0 exiting)).setField 0 left0 with nextReady := 1 } 0 0 (slotVa (small 0 1 1 [0]).lrec left0)
      (small 0 1 1 [0]).lrec left0 = none ∧
    State.storeSlot { (leaver (small0 0 exiting)).setField 0 left0 with nextReady := 1 } 0 0
      (slotVa (small 0 1 1 [0]).lrec left0) (small 0 1 1 [0]).lrec left0 = .ok s1 ∧ s1.field? 0 = some left0 := by
  obtain ⟨s1, -, -, h1, h2, h3, h4⟩ := witness_SwapOuts_store
  exact ⟨s1, by decide, by decide, rfl, rfl, rfl, by decide, h1, h2, witness_SwapOuts_holds.1, h3, h4⟩
theorem witness_ErrorsAndTests_bounds : unitExists 2 8 = true ∧ unitExists 0 3 = true ∧
    unitExists 4 1023 = true ∧ unitExists 6 (tlbUnits - 1) = true ∧ (1 : Nat) ≤ 6 ∧
    (∃ n, underTest (heathy { Heath.reset with testing := [(4, 8, 1)] }) 4 8 = some n ∧ 1 ≤ n) ∧
    (∃ s : State, s.heath.shutSlices.contains 8 = false ∧ s.heath.retired.contains (4, 8) = false) ∧
    sliceFits (heathy { Heath.reset with testing := [(4, 8, 1)] }) 8 = true ∧
    (∃ s : State, underTest s 4 0 = some 1 ∧ sliceFits s 0 = false) :=
  ⟨by decide, by decide, by decide, by decide, by decide, ⟨1, rfl, by decide⟩, ⟨State.reset, rfl, rfl⟩, by decide +kernel,
   ⟨heathy { Heath.reset with testing := [(4, 0, 1)], retired := (List.range 255).map (fun i => (4, i + 1)) }, rfl, by decide +kernel⟩⟩
theorem witness_TagParity : (∃ c, c ∈ ({ run codeSwath with l2 := [line1 0] } : State).l2) ∧
    (∀ c ∈ ({ run codeSwath with l2 := [{ line1 0 with dirty := 0 }] } : State).l2, c.unit / 8 = 0 / 8 → c.dirty = 0) :=
  ⟨⟨_, List.mem_singleton.mpr rfl⟩, by intro c hc _; simp at hc; subst hc; rfl⟩
/-! Decoding and the step. -/

theorem witness_DecodeUndoesEncode : (Instr.addi 5 6 0x7FD 2).err = none ∧ encode (.addi 5 6 0x7FD 2) = some (.scalar 0x2028DFF6) := ⟨by decide, by decide⟩
theorem witness_EncodeUndoesDecode : decode (.scalar 0x2028DFF6) = .ok (.addi 5 6 0x7FD 2) := test_word_addi

/-- The word that a scalar or a lane fetch gives. -/
def wordIs {n : Nat} (v : BitVec n) (r : Fetched (BitVec n)) : Bool :=
  match r with
  | .word x _ => x == v
  | _ => false
theorem wordIs_ok {n : Nat} {v : BitVec n} {r : Fetched (BitVec n)} (h : wordIs v r = true) : ∃ s, r = .word v s := by
  cases r <;> simp_all [wordIs]

def fetching (w : Nat) : State := State.reset.withFetchWord 32 w
def fetchingLane (w : Nat) : State := State.reset.withFetchWord 96 w
def brdWord : LaneWord := 0x50400000#32 ++ 0x00040000#32 ++ 0x00050004#32

theorem witness_StepRunsTheDecodedInstruction : (fetching 0x20080014).agenda = [] ∧ (fetching 0x20080014).scalarFocus = some (foc codeSwath, codeSwath) ∧
    (∃ s1, fetchScalar (fetching 0x20080014) (foc codeSwath) codeSwath 0 = .word 0x20080014 s1) ∧ decode (.scalar 0x20080014) = .ok (.addi 1 0 5 0) ∧
    (∃ s1, fetchScalar (fetching 0) (foc codeSwath) codeSwath 0 = .word 0 s1) ∧ (∃ e, decode (.scalar 0x7FFFFFFF) = .error e) ∧
    (∃ xl, translate (fetching 0) 0 0 0x20000 ((foc codeSwath).agent.access false false true) = .ok xl ∧ xl.zero = false) :=
  ⟨rfl, rfl, wordIs_ok (by decide +kernel), by rfl, wordIs_ok (by decide +kernel), ⟨_, rfl⟩, ⟨_, rfl, rfl⟩⟩

theorem witness_StepRunsTheDecodedInstruction_lane : ∃ g, (fetchingLane 0).agenda = [] ∧ (fetchingLane 0).laneFocus = some (lfoc codeSwath, codeSwath, g, false) ∧
    atHandlerEnd codeSwath g false = false ∧ (∃ s1, fetchLane (fetchingLane 0) (lfoc codeSwath) g.pc = .word 0 s1) ∧
    (∃ l, mget (fetchingLane 0).launches 0 = some l ∧ l.lrec.llen ≤ (65536 : W32).toNat) :=
  ⟨_, rfl, rfl, rfl, wordIs_ok (by decide +kernel), _, rfl, by decide⟩

theorem witness_StepRunsTheDecodedInstruction_pager : (runPager { Swath.zero with regs := Regs.zero }).scalarFocus = some (pfoc, Swath.zero) ∨
    (∃ p, mget (runPager Swath.zero).pagers 0 = some p ∧ Swath.zero.regs.pc.toNat + 4 ≤ p.imgLen) := .inr ⟨_, rfl, by decide⟩

theorem witness_StepKeepsMemoryCanonical : (fetching 0x20080014).memWf ∧ ∃ t, step (fetching 0x20080014) = .next t := by
  refine ⟨⟨by decide +kernel, by decide +kernel⟩, ?_⟩
  have h : (match step (fetching 0x20080014) with | .next _ => true | _ => false) = true := by decide +kernel
  cases hs : step (fetching 0x20080014) with
  | next t => exact ⟨t, rfl⟩
  | fault f => simp [hs] at h
  | refused r => simp [hs] at h

/-! ### Worked values of the chapters, one step each -/

/-- What a step leaves of a swath. -/
def after (s : State) (f : Swath → Bool) : Bool :=
  match step s with
  | .next t => (t.swathAt 0 0).any f
  | _ => false

/-- `ADDI x1, x0, 5`: the word of R16, its sum of R44, and the PC past one word. -/
theorem test_step_addi : after (fetching 0x20080014) (fun w => w.xr 1 == 5 && w.regs.pc == 0x20004) = true := by decide +kernel

/-- Chapter 10, the generator seeded with 1, and the FADD of 1.0 and 1.5 × 2^-24 under RNE, RTZ and SRN with its
first draw. -/
theorem test_first_draw : drawGen (seedGen 1 0) = 0x00042021 ∧ seedGen 1 1 = 0x9E3779B8 := by decide
theorem test_fadd_roundings : binary32.add 0 0 0x3F800000 0x33C00000 = (0x3F800001, flNX) ∧
    binary32.add 1 0 0x3F800000 0x33C00000 = (0x3F800000, flNX) ∧
    binary32.add 4 0x00042021 0x3F800000 0x33C00000 = (0x3F800001, flNX) := by decide +kernel
/-- Chapter 10, the drain of 2^24 to E4M3 and to BF16. -/
theorem test_drain_formats : e4m3.encode 0 0 (binary32.decode 0x4B800000) = (0x7E, flOF ||| flNX) ∧
    bf16.encode 0 0 (binary32.decode 0x4B800000) = (0x4B80, 0) := by decide +kernel
/-- Chapter 10, the blocks of the worked example under RNE and RUP. -/
theorem test_block_adds : (binary32.add 0 0 0x4B800000 0x3F800000).1 = 0x4B800000 ∧ (binary32.add 3 0 0x4B800000 0x3F800000).1 = 0x4B800001 ∧
    (binary32.add 3 0 0x4B800001 0x3F800000).1 = 0x4B800002 := by decide +kernel
/-- Chapter 23: a name whose HASH is 0x1FF modulo 512 is looked for in buckets 511, 0, 1, …, 6. -/
theorem test_probe_sequence : ((probeKeys 1 (nameOf 0x1FF 0 1)).map (· / 4)).eraseDups = [511, 0, 1, 2, 3, 4, 5, 6] := by decide +kernel
/-! Chapter 24: a grant that spans two entries of its granter gives two entries, both R. -/

def entryE1 : RangeEnt := { cbase := 0x100000000, dbase := 0x4000010000000, len := 0x100, r := true, w := true, x := false, lineage := [] }
def entryE2 : RangeEnt := { cbase := 0x101000000, dbase := 0x4000050000000, len := 0x100, r := true, w := false, x := false, lineage := [] }
def contextA : State := { run codeSwath with ctxs := [(0, Context.root0), (1, { kid .live with ranges := [entryE1, entryE2] })] }
def pieces (n : Nat) (perms : W64) : Nat × List (List Nat) :=
  match rangePieces contextA 1 { kid .live with ranges := List.replicate n { wide with cbase := 0x40000000 } }
      [3 + perms, 0x100C00000, 0x20000000, 0x80] with
  | .ok l => (stDone, l.map (fun e => [e.cbase, e.len, e.dbase, b2n e.w]))
  | .error k => (k, [])
theorem test_grant_of_two_pieces :
    pieces 46 0x20 = (stDone, [[0x20000000, 0x40, 0x4000010C00000, 0], [0x20400000, 0x40, 0x4000050000000, 0]]) ∧
    pieces 47 0x20 = (stFragmented, []) ∧ pieces 46 0x60 = (stNotOwned, []) := by decide +kernel

end Sys2Proof.Tests
end

/-! # Every step keeps memory canonical (O59)

The model writes global memory and the pool through the operations of `Mem` alone, and Laws/Memory says
that each of these keeps a canonical memory canonical. Below, every function of the model that answers a
state has one lemma, `State.memWf.<function>`, that says the same of it; the lemmas stand in the order of
the model's files and chain as the calls do: `h.noteOld.homeWrite : ((s.noteOld l).homeWrite ..).memWf`.

## What it is for an answer to hold only canonical memory -/

namespace Sys2Proof.Machine
open Sys2Proof

/-- An optional value, if it is there, is as `P` says. -/
def onSome {α : Type} (P : α → Prop) : Option α → Prop
  | some a => P a
  | none => True

/-- What an `Except` answers when it answers. -/
def onOk {ε α : Type} (P : α → Prop) : Except ε α → Prop
  | .ok a => P a
  | .error _ => True

/-- What an `Except` stops with when it stops. -/
def onError {ε α : Type} (P : ε → Prop) : Except ε α → Prop
  | .ok _ => True
  | .error e => P e

/-- The state of an answer whose first part it is has canonical memory. -/
def fstWf {β : Type} (x : State × β) : Prop := x.1.memWf

/-- The state of an answer whose second part it is has canonical memory. -/
def sndWf {α : Type} (x : α × State) : Prop := x.2.memWf

/-- The state that an outcome of a step goes on with, if any, has canonical memory. -/
def Result.memWf : Result → Prop
  | .next s => s.memWf
  | _ => True

/-! The other answers: each state that one carries, to go on with or to wait in, has canonical memory; a
trap, a fault or a refusal carries none. -/

def MRes.memWf {α : Type} : MRes α → Prop
  | .ok _ s | .hold s => s.memWf
  | .fault _ => True

def ERes.memWf {α : Type} : ERes α → Prop
  | .ok _ s | .fault _ _ s | .hold s => s.memWf

def LRes.memWf {α : Type} : LRes α → Prop
  | .ok _ s | .hold s => s.memWf
  | .trap _ => True

def SOut.memWf : SOut → Prop
  | .done s _ _ | .wait s _ | .hold s => s.memWf
  | .trap _ => True

def LOut.memWf : LOut → Prop
  | .done s | .goto s _ | .split s _ | .wait s _ | .hold s => s.memWf
  | .trap _ => True

def CtxOut.memWf : CtxOut → Prop
  | .done s _ _ | .hold s => s.memWf
  | .trap _ => True

def ExportOut.memWf : ExportOut → Prop
  | .reply s _ | .hold s => s.memWf
  | .service _ _ => True

def RingRes.memWf : RingRes → Prop
  | .done s _ | .hold s => s.memWf
  | _ => True

def SaveRes.memWf : SaveRes → Prop
  | .done s | .waits s => s.memWf
  | .bad => True

def Fetched.memWf {α : Type} : Fetched α → Prop
  | .word _ s | .hold s => s.memWf
  | .trap _ => True

def Issue.memWf : Issue → Prop
  | .run _ s | .stop s => s.memWf

/-- The lanes performed so far have left memory canonical. -/
def LaneRun.memWf {α : Type} (x : LaneRun α) : Prop := x.s.memWf

/-- A caller reads and writes memory through operations that keep it canonical. -/
def Caller.memWf (c : Caller) : Prop :=
  (∀ va s, s.memWf → (c.rd va s).memWf) ∧ (∀ va v s, s.memWf → (c.wr va v s).memWf)

/-! ## What every proof below uses -/

theorem Result.memWf_iff {r : Result} : Result.memWf r ↔ ∀ t, r = .next t → t.memWf := by
  cases r with
  | next s => exact ⟨fun h _ e => Host.Outcome.next.inj e ▸ h, fun h => h s rfl⟩
  | fault f => exact ⟨fun _ _ e => (nomatch e), fun _ => trivial⟩
  | refused r => exact ⟨fun _ _ e => (nomatch e), fun _ => trivial⟩

theorem State.memWf.withMem {s : State} {m : Mem} (h : s.memWf) (hm : m.wf = true) :
    ({ s with mem := m } : State).memWf := ⟨hm, h.2⟩

theorem State.memWf.withPool {s : State} {p : Mem} (h : s.memWf) (hp : p.wf = true) :
    ({ s with pool := p } : State).memWf := ⟨h.1, hp⟩

theorem State.memWf.foldl {α : Type} {f : State → α → State} {l : List α} {s : State} (h : s.memWf)
    (hf : ∀ s x, s.memWf → (f s x).memWf) : (l.foldl f s).memWf :=
  List.foldlRecOn l f h fun _ hs x _ => hf _ x hs

theorem onSome_ite {α : Type} {P : α → Prop} {c : Prop} [Decidable c] {a b : Option α}
    (ha : onSome P a) (hb : onSome P b) : onSome P (if c then a else b) := by
  split
  · exact ha
  · exact hb

theorem State.memWf.getD {o : Option State} {s : State} (h : s.memWf) (ho : onSome State.memWf o) :
    (o.getD s).memWf := by
  cases o with
  | none => exact h
  | some t => exact ho

theorem onSome_map {α β : Type} {P : β → Prop} {o : Option α} {f : α → β} (hf : ∀ a, P (f a)) :
    onSome P (o.map f) := by
  cases o with
  | none => trivial
  | some a => exact hf a

theorem Mem.wf_foldl {α : Type} {f : Mem → α → Mem} {l : List α} {m : Mem} (h : m.wf = true)
    (hf : ∀ m x, m.wf = true → (f m x).wf = true) : (l.foldl f m).wf = true := by
  induction l generalizing m with
  | nil => exact h
  | cons x l ih => exact ih (hf m x h)

/-! ## One lemma for each function of the model -/

variable {s : State}

/-! ### Translation and its caches (Machine/Translate) -/

theorem State.memWf.setFrame {f v} (h : s.memWf) : (s.setFrame f v).memWf := h

theorem State.memWf.updCtx {c f} (h : s.memWf) : (s.updCtx c f).memWf := h

theorem State.memWf.setBank {n b} (h : s.memWf) : (s.setBank n b).memWf := h

theorem State.memWf.countFor {c i n} (h : s.memWf) : (s.countFor c i n).memWf := by
  unfold State.countFor
  split
  · split
    · exact h.setBank
    · exact h
  · exact h

theorem State.memWf.usePool {c n} (h : s.memWf) : (s.usePool c n).memWf := h.countFor

theorem State.memWf.useGateway {c} (h : s.memWf) : (s.useGateway c).memWf := h

theorem State.memWf.countEvict {by_ owner n} (h : s.memWf) : (s.countEvict by_ owner n).memWf := by
  unfold State.countEvict
  split
  · exact h
  · exact h.countFor.countFor

theorem State.memWf.setLease {n l} (h : s.memWf) : (s.setLease n l).memWf := h

theorem State.memWf.setNode {n v} (h : s.memWf) : (s.setNode n v).memWf := h

theorem State.memWf.tlbDrop {holder} (h : s.memWf) : (s.tlbDrop holder).memWf := by
  unfold State.tlbDrop
  extract_lets _ _ _ s₁
  have h₁ : s₁.memWf := h
  split <;> exact h₁

theorem State.memWf.tlbRoom {holder n} (h : s.memWf) : (s.tlbRoom holder n).memWf :=
  h.foldl fun _ _ h₁ => h₁.tlbDrop

theorem State.memWf.addTlb {holder e} (h : s.memWf) : (s.addTlb holder e).memWf := by
  unfold State.addTlb
  split
  · exact h
  · exact h.tlbRoom

theorem State.memWf.addNode {holder e} (h : s.memWf) : (s.addNode holder e).memWf := by
  unfold State.addNode
  split
  · exact h
  · exact h.tlbRoom

theorem State.memWf.addWalks {l} (h : s.memWf) : (s.addWalks l).memWf := by
  unfold State.addWalks
  refine h.foldl fun _ _ h₁ => ?_
  split <;> exact h₁

theorem State.memWf.walked {gw c va e} (h : s.memWf) : (s.walked gw c va e).memWf := by
  unfold State.walked
  extract_lets s₁
  have h₁ : s₁.memWf := by
    unfold s₁
    split
    · split
      · exact h
      · exact h.addWalks
    · exact h
  exact h₁.addTlb.addTlb

theorem State.memWf.learn {gw c va} (h : s.memWf) : (s.learn gw c va).memWf := by
  unfold State.learn
  split
  · extract_lets s₁ _ s₂ s₃
    have h₁ : s₁.memWf := by
      unfold s₁
      split
      · exact h.updCtx
      · exact h
    have h₂ : s₂.memWf := by
      unfold s₂
      split
      · exact h₁.countFor.countFor.walked
      · exact h₁
    have h₃ : s₃.memWf := h₂.foldl fun _ _ h₄ => h₄.addNode.addNode
    exact State.memWf.useGateway h₃
  · exact h

/-! ### Caches and homes (Machine/Cache) -/

theorem MRes.memWf.bind {α : Type} {β : Type} {r : MRes α} {f : α → State → MRes β} (h : r.memWf)
    (hf : ∀ x s, s.memWf → (f x s).memWf) :
    (r.bind f).memWf := by
  unfold MRes.bind
  split
  · exact hf _ _ h
  · trivial
  · exact h

theorem State.memWf.emit {port o} (h : s.memWf) : (s.emit port o).memWf := by
  unfold State.emit
  (repeat' split) <;> exact h

theorem State.memWf.vendor {node fields} (h : s.memWf) : (s.vendor node fields).memWf := h.emit

theorem State.memWf.askFill {unit ctx group rq ro} (h : s.memWf) :
    (s.askFill unit ctx group rq ro).memWf := by
  unfold State.askFill
  split <;> exact h

theorem State.memWf.beginUpgrade {f} (h : s.memWf) : (s.beginUpgrade f).memWf := by
  unfold State.beginUpgrade
  extract_lets
  split
  · exact h.setFrame.vendor
  · exact h.setFrame

theorem State.memWf.endSnoop {kind slot addr} (h : s.memWf) : (s.endSnoop kind slot addr).memWf := h

theorem State.memWf.sendSnoop {kind slot addr} (h : s.memWf) :
    (s.sendSnoop kind slot addr).memWf := by
  unfold State.sendSnoop
  split
  · exact h
  · exact h.emit

theorem State.memWf.writeHold {line mask} (h : s.memWf) :
    onSome State.memWf (writeHold s line mask) := by
  unfold Machine.writeHold
  extract_lets
  split
  · exact h
  · split
    · trivial
    · exact h.foldl fun _ _ h₁ => h₁.sendSnoop

theorem State.memWf.readHold {line mask} (h : s.memWf) :
    onSome State.memWf (readHold s line mask) := by
  unfold Machine.readHold
  extract_lets
  split
  · trivial
  · exact h.foldl fun _ _ h₁ => h₁.sendSnoop

theorem State.memWf.poolWrite {pa k i mask data} (h : s.memWf) :
    (s.poolWrite pa k i mask data).memWf := by
  unfold State.poolWrite
  split <;> exact h.withPool (Mem.wf_wrMask _ _ _ _ _ _ h.2)

theorem State.memWf.poolWriteDpa {dpa mask data} (h : s.memWf) :
    (s.poolWriteDpa dpa mask data).memWf := by
  unfold State.poolWriteDpa
  split
  · exact h
  · extract_lets
    split
    · exact h.poolWrite.poolWrite
    · exact h.poolWrite

theorem State.memWf.noteOld {line} (h : s.memWf) : (s.noteOld line).memWf := by
  unfold State.noteOld
  extract_lets
  (repeat' split) <;> exact h

theorem State.memWf.homeWrite {dpa mask data} (h : s.memWf) :
    (s.homeWrite dpa mask data).memWf := by
  unfold State.homeWrite
  extract_lets s₁ s₂
  have h₁ : s₂.memWf := by
    unfold s₂
    split <;> exact h.noteOld
  split
  · exact h₁
  · split
    · extract_lets s₃
      have h₂ : s₃.memWf := h₁.withMem (Mem.wf_wrMask _ _ _ _ _ _ h₁.1)
      split
      · exact h₂.setFrame
      · exact h₂
    · exact h₁.poolWriteDpa
  · exact h₁.withMem (Mem.wf_wrMask _ _ _ _ _ _ h₁.1)

theorem State.memWf.countAccess {dpa ace} (h : s.memWf) : (s.countAccess dpa ace).memWf := by
  unfold State.countAccess
  split
  · exact h
  · split
    · exact h.setFrame
    · exact h

theorem State.memWf.landWrite {w} (h : s.memWf) : (s.landWrite w).memWf := by
  unfold State.landWrite
  extract_lets
  split <;> exact h.homeWrite

theorem State.memWf.deviceWrite {w} (h : s.memWf) : (s.deviceWrite w).memWf := by
  unfold State.deviceWrite
  split
  · exact h
  · split
    next heq => exact (congrArg (onSome State.memWf) heq).mp h.writeHold
    · exact h.landWrite

theorem State.memWf.retryWrites (h : s.memWf) : s.retryWrites.memWf :=
  State.memWf.foldl h (fun _ _ h₁ => h₁.deviceWrite)

theorem State.memWf.poolUse {c line n} (h : s.memWf) : (s.poolUse c line n).memWf := by
  unfold State.poolUse
  split
  · exact h.usePool
  · exact h

theorem State.memWf.wbL2 {c by_} (h : s.memWf) : (s.wbL2 c by_).memWf := by
  unfold State.wbL2
  split
  · exact h
  · exact h.poolUse.homeWrite

theorem State.memWf.dropL2 {c} (h : s.memWf) : (s.dropL2 c).memWf := h

theorem State.memWf.l2Room {cl ctx va} (h : s.memWf) : (s.l2Room cl ctx va).memWf := by
  unfold State.l2Room
  split
  · exact h.countEvict.wbL2.dropL2
  · exact h

theorem State.memWf.wbL1 {c} (h : s.memWf) : (s.wbL1 c).memWf := by
  unfold State.wbL1
  split
  · exact h
  · exact h.l2Room

theorem State.memWf.wbL1s {p} (h : s.memWf) : (s.wbL1s p).memWf := h.foldl fun _ _ h₁ => h₁.wbL1

theorem State.memWf.wbL2s {p by_} (h : s.memWf) : (s.wbL2s p by_).memWf :=
  h.foldl fun _ _ h₁ => h₁.wbL2

theorem State.memWf.linesHold {l} (h : s.memWf) : onSome State.memWf (linesHold s l) := by
  induction l generalizing s with
  | nil => trivial
  | cons x l ih =>
    unfold Machine.linesHold
    split
    next t heq =>
      have ht : t.memWf := (congrArg (onSome State.memWf) heq).mp h.writeHold
      exact ht.getD (ih ht)
    · exact ih h

theorem State.memWf.flush {p1 p2 by_} (h : s.memWf) : (s.flush p1 p2 by_).memWf := h.wbL1s.wbL2s

theorem State.memWf.countGone {by_ l} (h : s.memWf) : (s.countGone by_ l).memWf :=
  h.foldl fun _ _ h₁ => h₁.countEvict

theorem State.memWf.remap {cl ctx va xl} (h : s.memWf) : (s.remap cl ctx va xl).memWf :=
  h.countGone.flush

theorem State.memWf.clearOwn {a va xl wr sys touch} (h : s.memWf) :
    (s.clearOwn a va xl wr sys touch).memWf := by
  unfold State.clearOwn
  extract_lets
  split
  next heq => exact (congrArg (onSome State.memWf) heq).mp h.linesHold
  · split
    next heq => exact (congrArg (onSome State.memWf) heq).mp (onSome_ite h.readHold trivial)
    · exact h.flush.countAccess

theorem State.memWf.atHome {a va acc sys touch} (h : s.memWf) :
    (atHome s a va acc sys touch).memWf := by
  unfold Machine.atHome
  split
  · split
    · exact h
    · trivial
  · extract_lets
    split
    · exact h.learn
    · exact h.learn.clearOwn.bind fun _ _ h₁ => h₁.poolUse

theorem State.memWf.missLine {a va acc touch} (h : s.memWf) :
    (missLine s a va acc touch).memWf := by
  unfold Machine.missLine
  split
  · split
    · exact h
    · trivial
  · extract_lets
    split
    · exact h.learn
    · split
      · exact h.learn.clearOwn.bind fun _ _ h₁ => h₁.poolUse
      · split
        next heq => exact (congrArg (onSome State.memWf) heq).mp h.learn.linesHold
        · exact h.learn.remap

theorem State.memWf.fullL2 {a va acc need} (h : s.memWf) : (fullL2 s a va acc need).memWf := by
  unfold Machine.fullL2
  extract_lets
  split
  · exact h
  · refine h.missLine.bind fun _ _ h₁ => ?_
    split
    extract_lets
    split
    · extract_lets
      split
      · exact h₁.countFor
      · exact State.memWf.poolUse (State.memWf.countAccess h₁.countFor)
    · exact h₁.countFor

theorem State.memWf.fullL1 {a va acc need} (h : s.memWf) : (fullL1 s a va acc need).memWf := by
  unfold Machine.fullL1
  extract_lets
  split
  · exact h
  · refine h.fullL2.bind fun _ _ h₁ => ?_
    extract_lets
    split <;> exact h₁.countFor

theorem State.memWf.clearL1 {a va} (h : s.memWf) : (s.clearL1 a va).memWf := h.wbL1s

theorem State.memWf.loadAt {lvl sys a va n} (h : s.memWf) : (loadAt lvl sys s a va n).memWf := by
  unfold Machine.loadAt
  extract_lets _ _ read
  have h₁ : ∀ w s, s.memWf → (read w s).memWf := by
    intro _ _ h₂
    unfold read
    split <;> exact h₂
  split
  · exact h.fullL1.bind h₁
  · exact h.clearL1.fullL2.bind h₁
  · refine h.atHome.bind fun _ _ h₃ => ?_
    split <;> exact h₃

theorem State.memWf.homePut {dpa v n} (h : s.memWf) : (homePut s dpa v n).memWf := h.homeWrite

theorem State.memWf.homePutHold {dpa v n} (h : s.memWf) : (homePutHold s dpa v n).memWf := by
  unfold Machine.homePutHold
  split
  next heq => exact (congrArg (onSome State.memWf) heq).mp h.writeHold
  · exact h.homePut

theorem State.memWf.writeL1 {a acc va v n} (h : s.memWf) : (writeL1 s a acc va v n).memWf := by
  unfold Machine.writeL1
  extract_lets _ _ put
  have h₁ : ∀ s tags, s.memWf → (put s tags).memWf := by
    intro _ _ h₂
    unfold put
    exact h₂
  split
  · exact h₁ _ _ h
  · refine h.missLine.bind fun _ _ h₃ => ?_
    split
    split
    · exact h₁ _ _ h₃
    · exact h₃.homePutHold
    · exact h₃

theorem State.memWf.storeL1 {a va v n} (h : s.memWf) : (storeL1 s a va v n).memWf := h.writeL1

theorem State.memWf.writeL2 {a acc va v n} (h : s.memWf) : (writeL2 s a acc va v n).memWf := by
  unfold Machine.writeL2
  extract_lets _ _ put
  have h₁ : ∀ s tags, s.memWf → (put s tags).memWf := by
    intro _ _ h₂
    unfold put
    exact h₂
  split
  · exact h₁ _ _ h
  · refine h.missLine.bind fun _ _ h₃ => ?_
    split
    split
    · exact h₁ _ _ h₃
    · exact h₃.homePutHold
    · exact h₃

theorem State.memWf.storeAt {lvl sys a acc va v n} (h : s.memWf) :
    (storeAt lvl sys s a acc va v n).memWf := by
  unfold Machine.storeAt
  split
  · exact h.writeL1
  · exact h.clearL1.writeL2
  · exact h.atHome.bind fun _ _ h₁ => h₁.homePut

theorem State.memWf.atomicAt {lvl sys a va n f} (h : s.memWf) :
    (atomicAt lvl sys s a va n f).memWf := by
  unfold Machine.atomicAt
  extract_lets acc o atCopy uncached
  have hcopy : ∀ c put s, (∀ c, (put c).memWf) → s.memWf → (atCopy c put s).memWf := by
    intro c put s hput hs
    unfold atCopy
    extract_lets old
    split
    · exact hput _
    · exact hs
  have huncached : ∀ xl s, s.memWf → (uncached xl s).memWf := by
    intro xl s hs
    unfold uncached
    extract_lets old
    split
    · exact hs.homePutHold.bind fun _ _ h' => h'
    · exact hs
  split
  · refine h.fullL1.bind fun w t ht => ?_
    split
    next c => exact hcopy c (fun c => { t with l1 := putCopy t.l1 c }) t (fun _ => ht) ht
    · exact ht
    · exact huncached _ _ ht
  · refine h.clearL1.fullL2.bind fun w t ht => ?_
    split
    next c => exact hcopy c (fun c => { t with l2 := putCopy t.l2 c }) t (fun _ => ht) ht
    · exact ht
    · exact huncached _ _ ht
  · refine h.atHome.bind fun xl t ht => ?_
    extract_lets old
    split
    · exact ht.homePut
    · exact ht

theorem State.memWf.releaseTo {lvl core ctx} (h : s.memWf) : (releaseTo lvl s core ctx).memWf := by
  unfold Machine.releaseTo
  split
  · exact h
  · exact h.wbL1s
  · split
    next heq => exact (congrArg (onSome State.memWf) heq).mp h.linesHold
    · exact h.wbL1s.wbL2s

theorem State.memWf.acquireFrom {lvl core ctx} (h : s.memWf) :
    (acquireFrom lvl s core ctx).memWf := by
  unfold Machine.acquireFrom
  split <;> exact h

theorem State.memWf.pullRecords {line} (h : s.memWf) : (pullRecords s line).memWf := by
  unfold Machine.pullRecords
  extract_lets
  split
  next heq => exact (congrArg (onSome State.memWf) heq).mp h.linesHold
  · exact h.wbL1s.wbL2s

theorem State.memWf.coveringLoad {sys a va n} (h : s.memWf) :
    (coveringLoad sys s a va n).memWf := by
  unfold Machine.coveringLoad
  split
  · split
    · exact h
    · trivial
  · split
    · exact h.loadAt
    · exact h.pullRecords.bind fun _ _ h₁ => h₁.loadAt

theorem State.memWf.stir {line} (h : s.memWf) : (s.stir line).memWf := by
  unfold State.stir
  extract_lets _ _ s₁ s₂ s₃ s₄
  have h₁ : s₁.memWf := h
  have h₂ : s₂.memWf := by
    unfold s₂
    split
    · exact h₁.wbL1s
    · exact h₁
  have h₃ : s₃.memWf := by
    unfold s₃
    split
    · exact h₂.wbL2s
    · exact h₂
  have h₄ : s₄.memWf := by
    unfold s₄
    split <;> exact h₃
  split <;> exact h₄

theorem State.memWf.stirAt {a va} (h : s.memWf) : (s.stirAt a va).memWf := by
  unfold State.stirAt
  split
  · exact h.stir
  · exact h

theorem State.memWf.fetchWord {a launch va} (h : s.memWf) : (fetchWord s a launch va).memWf := by
  unfold Machine.fetchWord
  split
  · split
    · exact h
    · trivial
  · split
    · exact h.learn
    · extract_lets
      split <;> exact h.learn

/-! ### Field images (Machine/Image) -/

theorem State.memWf.soil {dpa} (h : s.memWf) : (s.soil dpa).memWf := by
  unfold State.soil
  split
  · extract_lets
    split
    · exact h.setFrame
    · exact h
  · exact h

theorem State.memWf.poolClear {pa n k i} (h : s.memWf) : (s.poolClear pa n k i).memWf := by
  unfold State.poolClear
  split
  · exact h.withPool (Mem.wf_zero _ _ _ h.2)
  · exact h.foldl fun _ _ h' => h'.poolWrite

theorem State.memWf.clearAt {dpa n} (h : s.memWf) : (s.clearAt dpa n).memWf := by
  unfold State.clearAt
  split
  · exact (h.withMem (Mem.wf_zero _ _ _ h.1)).soil
  · extract_lets k s₁
    have h₁ : s₁.memWf := h.poolClear
    split
    · exact h₁.poolClear
    · exact h₁
  · exact h

theorem State.memWf.mend {dpa n} (h : s.memWf) : (s.mend dpa n).memWf := h

theorem State.memWf.putAt {dpa n v} (h : s.memWf) : (s.putAt dpa n v).memWf := by
  unfold State.putAt
  split
  · exact (h.withMem (Mem.wf_wrN _ _ _ _ h.1)).soil
  · exact h.poolWriteDpa
  · exact h

theorem State.memWf.storeSlot {die ctx va r f} (h : s.memWf) :
    onOk State.memWf (s.storeSlot die ctx va r f) := by
  unfold State.storeSlot
  split
  · trivial
  · exact (h.foldl fun _ _ h₁ => h₁.foldl fun _ _ h₂ => h₂.clearAt.mend).foldl
      fun _ _ h₃ => h₃.putAt

theorem State.memWf.slotHold {die ctx va r f} (h : s.memWf) :
    onSome State.memWf (slotHold s die ctx va r f) := by
  unfold Machine.slotHold
  split
  · trivial
  · exact h.linesHold

/-! ### Observation (Machine/Observe) -/

theorem State.memWf.logEvent {die c kind coords p0 p1} (h : s.memWf) :
    (s.logEvent die c kind coords p0 p1).memWf := by
  unfold State.logEvent
  split
  · exact h
  · refine iteInduction (motive := State.memWf) (fun _ => h) fun _ => ?_
    extract_lets
    split
    · exact h.setBank
    · split
      · exact h.setBank
      · exact h.setBank.deviceWrite

/-! ### Shared operations (Machine/Ops) -/

theorem State.memWf.setField {f v} (h : s.memWf) : (s.setField f v).memWf := h

theorem State.memWf.updField {f g} (h : s.memWf) : (s.updField f g).memWf := h

theorem State.memWf.updSwathAt {fid sw g} (h : s.memWf) : (s.updSwathAt fid sw g).memWf :=
  h.updField

theorem State.memWf.updSwath {p g} (h : s.memWf) : (s.updSwath p g).memWf := by
  unfold State.updSwath
  split
  · exact h.updSwathAt
  · exact h.updSwathAt
  · exact h

theorem State.memWf.updLaunch {l g} (h : s.memWf) : (s.updLaunch l g).memWf := h

theorem State.memWf.send {o} (h : s.memWf) : (s.send o).memWf := h

theorem State.memWf.heathLog {event uclass uindex ctx detail} (h : s.memWf) :
    (s.heathLog event uclass uindex ctx detail).memWf := h

theorem State.memWf.tick (h : s.memWf) : s.tick.memWf := h

theorem State.memWf.reply {kind data} (h : s.memWf) : (s.reply kind data).memWf := by
  unfold State.reply
  split
  · exact h
  · exact h.send

theorem State.memWf.refuse {ctx detail} (h : s.memWf) : (s.refuse ctx detail).memWf := h.heathLog

theorem State.memWf.managed {via} {act : Result} (h : s.memWf) (hact : Result.memWf act) :
    Result.memWf (s.managed via act) := by
  unfold State.managed
  split
  · exact h
  · split
    · exact h.refuse
    · exact hact

theorem State.memWf.dwordPut {dpa v} (h : s.memWf) : (dwordPut s dpa v).memWf := h.homePut

theorem State.memWf.dwordsPut {dpa l} (h : s.memWf) : (dwordsPut s dpa l).memWf := by
  induction l generalizing s dpa with
  | nil => exact h
  | cons v l ih => exact ih h.dwordPut

theorem State.memWf.msix {vf vec} (h : s.memWf) : (s.msix vf vec).memWf := by
  unfold State.msix
  split
  · exact h.send
  · split
    · exact State.memWf.send (State.memWf.foldl (State.memWf.tick h) (fun _ _ h₁ => h₁.send))
    · exact State.memWf.tick h

theorem State.memWf.ringTry {die c retry words} (h : s.memWf) :
    (ringTry s die c retry words).memWf := by
  unfold Machine.ringTry
  split
  · trivial
  · extract_lets
    split
    · trivial
    · split
      · trivial
      · split
        · trivial
        · trivial
        · split
          next heq => exact (congrArg (onSome State.memWf) heq).mp h.linesHold
          · extract_lets _ _ s₁ s₂
            have h₂ : s₁.memWf := h.dwordsPut.homePut.updCtx
            have h₃ : s₂.memWf := by
              unfold s₂
              split
              · exact h₂.msix
              · exact h₂
            exact h₃.countFor

theorem State.memWf.noteOwner {w seq} (h : s.memWf) : (s.noteOwner w seq).memWf := by
  unfold State.noteOwner
  split <;> exact h

theorem State.memWf.takeIn {die} (h : s.memWf) : (s.takeIn die).memWf := by
  unfold State.takeIn
  split
  · exact h
  · extract_lets
    split <;> exact h

theorem State.memWf.service {die q} (h : s.memWf) : (s.service die q).memWf := by
  unfold State.service
  split
  · exact h
  · split
    · exact h
    · exact State.memWf.takeIn h

theorem State.memWf.dropTerminal {c} (h : s.memWf) : (s.dropTerminal c).memWf := h.updCtx

theorem State.memWf.ringService {c retry e} (h : s.memWf) : (ringService s c retry e).memWf := by
  unfold Machine.ringService
  split
  exact h.service

theorem State.memWf.ringPush {die retry req n c words} (h : s.memWf) :
    (State.ringPush die retry req n s c words).memWf := by
  induction n using Nat.strongRecOn generalizing c words with | _ n ih =>
  unfold State.ringPush
  split
  · exact h
  · extract_lets
    split
    · split
      · exact h.dropTerminal
      · split
        · exact h.dropTerminal
        · exact ih _ (Nat.lt_succ_self _)
    · split
      · exact h
      · split
        · split
          · exact h
          · exact h.dropTerminal
        · split
          next t seq heq =>
            have ht : t.memWf := (congrArg RingRes.memWf heq).mp h.ringTry
            exact ht.noteOwner
          · split
            · exact h
            · exact h.dropTerminal
          next t heq => exact (congrArg RingRes.memWf heq).mp h.ringTry
          · split
            · exact h.ringService
            · split
              · exact h
              · exact h.dropTerminal.heathLog

theorem State.memWf.retryRing {c retry n} (h : s.memWf) : (State.retryRing c retry n s).memWf := by
  induction n generalizing s with
  | zero => exact h
  | succ n ih =>
    unfold State.retryRing
    split
    · exact h
    · split
      · exact h
      · extract_lets out
        have hout : out.memWf := h
        split
        next s' seq heq =>
          have hs' : s'.memWf := (congrArg RingRes.memWf heq).mp h.ringTry
          have hd : ({ s' with ringWaits := dropRingWait c retry s'.ringWaits } : State).memWf :=
            hs'
          exact ih hd.noteOwner
        · exact h
        next t heq => exact (congrArg RingRes.memWf heq).mp h.ringTry
        · split
          · exact h.ringService
          · split
            · exact h
            · exact ih hout.dropTerminal.heathLog

theorem State.memWf.resumeRing {c retry} (h : s.memWf) : (s.resumeRing c retry).memWf :=
  State.memWf.retryRing h

theorem State.memWf.endRing {c retry cause} (h : s.memWf) : (s.endRing c retry cause).memWf := by
  unfold State.endRing
  split
  · exact h
  · split
    · exact State.memWf.resumeRing (State.memWf.heathLog (State.memWf.dropTerminal h))
    · exact h

theorem State.memWf.terminalRecord {die c r} (h : s.memWf) : (s.terminalRecord die c r).memWf :=
  h.ringPush

theorem State.memWf.retryRecord {die owner req r} (h : s.memWf) :
    (s.retryRecord die owner req r).memWf := h.ringPush

theorem State.memWf.noteRo {r} (h : s.memWf) : (s.noteRo r).memWf := by
  unfold State.noteRo
  split <;> exact h

theorem State.memWf.toServicer {die ctx coords rq req r base} (h : s.memWf) :
    (s.toServicer die ctx coords rq req r base).memWf := by
  unfold State.toServicer
  split
  · exact h.retryRecord
  · split
    exact h.noteRo.service

theorem State.memWf.serveArena {fid f e va} (h : s.memWf) : (s.serveArena fid f e va).memWf :=
  h.updField.toServicer

theorem State.memWf.saveSlot {fid} (h : s.memWf) : (s.saveSlot fid).memWf := by
  unfold State.saveSlot
  split
  · trivial
  · split
    · trivial
    · split
      next t₁ heq =>
        have h₁ : t₁.memWf := (congrArg (onSome State.memWf) heq).mp h.slotHold
        exact h₁.updField
      · split
        next heq => exact (congrArg (onOk State.memWf) heq).mp h.storeSlot
        · extract_lets
          split
          · exact h.updField
          · split
            · exact h.updField.serveArena
            · trivial

theorem State.memWf.putSlotWord {x} (h : s.memWf) : (s.putSlotWord x).memWf := by
  unfold State.putSlotWord
  split
  · exact h.deviceWrite
  · split
    · exact h
    · split
      · exact State.memWf.toServicer h
      · exact h

theorem State.memWf.slotPut {f off v} (h : s.memWf) : (s.slotPut f off v).memWf := by
  unfold State.slotPut
  split
  · exact h
  · extract_lets
    split
    · exact h
    · exact State.memWf.putSlotWord h

theorem State.memWf.dropSlotWait {uid} (h : s.memWf) : (s.dropSlotWait uid).memWf := h

theorem State.memWf.retrySlot {uid} (h : s.memWf) : (s.retrySlot uid).memWf := by
  unfold State.retrySlot
  split
  · exact h.dropSlotWait.putSlotWord
  · exact h

theorem State.memWf.retryOwn (h : s.memWf) : s.retryOwn.memWf :=
  h.retryWrites.foldl fun _ _ h₁ => h₁.retrySlot

theorem State.memWf.wakeOwn (h : s.memWf) : s.wakeOwn.memWf := by
  unfold State.wakeOwn
  split
  · exact h
  · exact h.retryOwn

theorem State.memWf.putStatus {fid} (h : s.memWf) : (s.putStatus fid).memWf := by
  unfold State.putStatus
  split
  · split
    · exact h
    · exact h.slotPut
  · exact h

theorem State.memWf.putCounters {fid sw} (h : s.memWf) : (s.putCounters fid sw).memWf := by
  unfold State.putCounters
  split
  · split
    · split
      · exact h.slotPut
      · exact h
    · exact h
  · exact h

theorem State.memWf.makeReady {fid} (h : s.memWf) : (s.makeReady fid).memWf := by
  unfold State.makeReady
  split
  · split
    · exact h
    · exact State.memWf.putStatus h
  · exact h

theorem State.memWf.faultField {fid} (h : s.memWf) : (s.faultField fid).memWf := by
  unfold State.faultField
  split
  · exact h
  · extract_lets
    split
    next heq => exact (congrArg SaveRes.memWf heq).mp h.setField.updLaunch.saveSlot
    next heq => exact (congrArg SaveRes.memWf heq).mp h.setField.updLaunch.saveSlot
    · exact h.setField.updLaunch

theorem State.memWf.logFault {f sw cause va lane} (h : s.memWf) :
    (s.logFault f sw cause va lane).memWf := h.logEvent

theorem State.memWf.terminal {fid sw r at_} (h : s.memWf) : (s.terminal fid sw r at_).memWf := by
  unfold State.terminal
  split
  · exact h
  · split
    · exact h
    · exact h.logFault.faultField.terminalRecord

theorem State.memWf.logReexec {f sw w} (h : s.memWf) : (s.logReexec f sw w).memWf := by
  unfold State.logReexec
  split
  exact h.logEvent

theorem State.memWf.park {fid sw src lpc r} (h : s.memWf) : (s.park fid sw src lpc r).memWf := by
  unfold State.park
  split
  · exact h
  · extract_lets
    split
    · exact h
    · extract_lets _ _ _ s₁
      have h₁ : s₁.memWf := h.logFault.logReexec.updSwathAt
      split
      · exact h
      · exact h.updField
      · exact h₁.toServicer

theorem State.memWf.wake {q} (h : s.memWf) : (s.wake q).memWf := by
  unfold State.wake
  split
  · exact h.updSwathAt.makeReady
  · exact h.updField
  · exact h.updSwathAt
  · exact h.retrySlot
  · exact h.resumeRing
  · exact h
  · exact h.updSwathAt
  · exact h.updSwathAt
  · exact h
  · exact h
  · exact h

theorem State.memWf.scalarFault {F r} (h : s.memWf) : (s.scalarFault F r).memWf := by
  unfold State.scalarFault
  split
  · exact h
  · split
    · extract_lets
      split
      · exact h.updSwath
      · split
        · exact h.logFault.updSwath
        · split
          · exact h.terminal
          · split
            · exact h.park
            · exact h.terminal
    · exact h

theorem State.memWf.laneFault {F g second r} (h : s.memWf) : (s.laneFault F g second r).memWf := by
  unfold State.laneFault
  split
  · extract_lets
    split
    · exact h.updSwath
    · split
      · split
        · exact h.terminal
        · exact h.logFault.updSwath
      · split
        · exact h.park
        · exact h.terminal
  · exact h

/-! ### Operands, and the issue of an instruction (Machine/Operands) -/

theorem State.memWf.scalarIssue {f} {body : Focus → Swath → State → SOut} (h : s.memWf)
    (hbody : ∀ x y s, s.memWf → (body x y s).memWf) :
    Result.memWf (scalarIssue f body s) := by
  refine Result.memWf_iff.mpr fun t e => ?_
  obtain ⟨F, w, -, rfl | ⟨r, rfl⟩ | ⟨t', eb, rfl⟩ | ⟨t', k, eb, rfl⟩ | ⟨t', wr, pc, eb, rfl⟩⟩ :=
    scalarIssue_cases e
  · exact h
  · exact h.scalarFault
  · exact (congrArg SOut.memWf eb).mp (hbody F w s h)
  · have ht : t'.memWf := (congrArg SOut.memWf eb).mp (hbody F w s h)
    exact ht.updSwath
  · have ht : t'.memWf := (congrArg SOut.memWf eb).mp (hbody F w s h)
    exact ht.updSwath

theorem State.memWf.scalarAlu {st lat d a b op} (h : s.memWf) :
    Result.memWf (scalarAlu st lat d a b op s) := h.scalarIssue fun _ _ _ h₁ => h₁

theorem State.memWf.endWait {F wr ends act} (h : s.memWf) : (s.endWait F wr ends act).memWf := by
  unfold State.endWait
  split
  · exact h
  · split
    · exact h.updSwath.scalarFault
    · exact h.updSwath

theorem State.memWf.failWait {F r} (h : s.memWf) : (s.failWait F r).memWf := h.updSwath.scalarFault

theorem State.memWf.laneIssue {f} {body : Focus → Swath → Frag → LaneMask → State → LOut}
    (h : s.memWf) (hbody : ∀ x y z u s, s.memWf → (body x y z u s).memWf) :
    Result.memWf (laneIssue f body s) := by
  refine Result.memWf_iff.mpr fun t e => ?_
  obtain ⟨F, w, g, b, -, rfl | ⟨r, rfl⟩ | ⟨w₁, g₁, m, s₁, hs₀, hout⟩⟩ := laneIssue_cases e
  · exact h
  · exact h.laneFault
  · have h₁ : s₁.memWf := by
      obtain rfl | rfl := hs₀
      · exact h
      · exact h.updSwath
    have hb : (body F w₁ g₁ m s₁).memWf := hbody F w₁ g₁ m s₁ h₁
    obtain ⟨r, rfl⟩ | ⟨t', eb, rfl⟩ | ⟨t', eb, rfl⟩ | ⟨t', pc, eb, rfl⟩ | ⟨t', k, eb, rfl⟩ |
      ⟨t', k, eb, rfl⟩ := hout
    · exact h₁.laneFault
    all_goals
      have ht : t'.memWf := (congrArg LOut.memWf eb).mp hb
      exact ht.updSwath

theorem State.memWf.laneElem {hd lat reads vd n draws f} (h : s.memWf) :
    Result.memWf (laneElem hd lat reads vd n draws f s) :=
  h.laneIssue fun _ _ _ _ _ h₁ => h₁.updSwath

/-! ### Scalar integer instructions (Machine/ScalarInt) -/

theorem State.memWf.scalarDivide {st d a b op} (h : s.memWf) :
    Result.memWf (scalarDivide st d a b op s) := by
  unfold Machine.scalarDivide
  refine h.scalarIssue fun _ _ _ h₁ => ?_
  change State.memWf _
  split
  · exact h₁.updSwath
  · exact h₁

theorem State.memWf.scalarUnary {st d a op} (h : s.memWf) :
    Result.memWf (scalarUnary st d a op s) := h.scalarIssue fun _ _ _ h₁ => h₁

theorem State.memWf.scalarImm {st lat d a imm len op} (h : s.memWf) :
    Result.memWf (scalarImm st lat d a imm len op s) := h.scalarIssue fun _ _ _ h₁ => h₁

theorem State.memWf.execAdd {d a b st} (h : s.memWf) : Result.memWf (execAdd d a b st s) :=
  h.scalarAlu

theorem State.memWf.execSub {d a b st} (h : s.memWf) : Result.memWf (execSub d a b st s) :=
  h.scalarAlu

theorem State.memWf.execMul {d a b st} (h : s.memWf) : Result.memWf (execMul d a b st s) :=
  h.scalarAlu

theorem State.memWf.execMulh {d a b st} (h : s.memWf) : Result.memWf (execMulh d a b st s) :=
  h.scalarAlu

theorem State.memWf.execMulhu {d a b st} (h : s.memWf) : Result.memWf (execMulhu d a b st s) :=
  h.scalarAlu

theorem State.memWf.execAnd {d a b st} (h : s.memWf) : Result.memWf (execAnd d a b st s) :=
  h.scalarAlu

theorem State.memWf.execOr {d a b st} (h : s.memWf) : Result.memWf (execOr d a b st s) :=
  h.scalarAlu

theorem State.memWf.execXor {d a b st} (h : s.memWf) : Result.memWf (execXor d a b st s) :=
  h.scalarAlu

theorem State.memWf.execShl {d a b st} (h : s.memWf) : Result.memWf (execShl d a b st s) :=
  h.scalarAlu

theorem State.memWf.execShr {d a b st} (h : s.memWf) : Result.memWf (execShr d a b st s) :=
  h.scalarAlu

theorem State.memWf.execSar {d a b st} (h : s.memWf) : Result.memWf (execSar d a b st s) :=
  h.scalarAlu

theorem State.memWf.execMin {d a b st} (h : s.memWf) : Result.memWf (execMin d a b st s) :=
  h.scalarAlu

theorem State.memWf.execMinu {d a b st} (h : s.memWf) : Result.memWf (execMinu d a b st s) :=
  h.scalarAlu

theorem State.memWf.execMax {d a b st} (h : s.memWf) : Result.memWf (execMax d a b st s) :=
  h.scalarAlu

theorem State.memWf.execMaxu {d a b st} (h : s.memWf) : Result.memWf (execMaxu d a b st s) :=
  h.scalarAlu

theorem State.memWf.execDiv {d a b st} (h : s.memWf) : Result.memWf (execDiv d a b st s) :=
  h.scalarDivide

theorem State.memWf.execDivu {d a b st} (h : s.memWf) : Result.memWf (execDivu d a b st s) :=
  h.scalarDivide

theorem State.memWf.execRem {d a b st} (h : s.memWf) : Result.memWf (execRem d a b st s) :=
  h.scalarDivide

theorem State.memWf.execRemu {d a b st} (h : s.memWf) : Result.memWf (execRemu d a b st s) :=
  h.scalarDivide

theorem State.memWf.execCmp {d a b c st} (h : s.memWf) : Result.memWf (execCmp d a b c st s) :=
  h.scalarAlu

theorem State.memWf.execSel {d a b c st} (h : s.memWf) : Result.memWf (execSel d a b c st s) :=
  h.scalarIssue fun _ _ _ h₁ => h₁

theorem State.memWf.execClz {d a st} (h : s.memWf) : Result.memWf (execClz d a st s) :=
  h.scalarUnary

theorem State.memWf.execCtz {d a st} (h : s.memWf) : Result.memWf (execCtz d a st s) :=
  h.scalarUnary

theorem State.memWf.execPopc {d a st} (h : s.memWf) : Result.memWf (execPopc d a st s) :=
  h.scalarUnary

theorem State.memWf.addiWith {st d a imm len} (h : s.memWf) :
    Result.memWf (addiWith st d a imm len s) := h.scalarImm

theorem State.memWf.execAddi {d a i st} (h : s.memWf) : Result.memWf (execAddi d a i st s) :=
  h.addiWith

theorem State.memWf.andiWith {st d a imm len} (h : s.memWf) :
    Result.memWf (andiWith st d a imm len s) := h.scalarImm

theorem State.memWf.execAndi {d a i st} (h : s.memWf) : Result.memWf (execAndi d a i st s) :=
  h.andiWith

theorem State.memWf.oriWith {st d a imm len} (h : s.memWf) :
    Result.memWf (oriWith st d a imm len s) := h.scalarImm

theorem State.memWf.execOri {d a i st} (h : s.memWf) : Result.memWf (execOri d a i st s) :=
  h.oriWith

theorem State.memWf.xoriWith {st d a imm len} (h : s.memWf) :
    Result.memWf (xoriWith st d a imm len s) := h.scalarImm

theorem State.memWf.execXori {d a i st} (h : s.memWf) : Result.memWf (execXori d a i st s) :=
  h.xoriWith

theorem State.memWf.sltiWith {st d a imm len} (h : s.memWf) :
    Result.memWf (sltiWith st d a imm len s) := h.scalarImm

theorem State.memWf.execSlti {d a i st} (h : s.memWf) : Result.memWf (execSlti d a i st s) :=
  h.sltiWith

theorem State.memWf.sltiuWith {st d a imm len} (h : s.memWf) :
    Result.memWf (sltiuWith st d a imm len s) := h.scalarImm

theorem State.memWf.execSltiu {d a i st} (h : s.memWf) : Result.memWf (execSltiu d a i st s) :=
  h.sltiuWith

theorem State.memWf.muliWith {st d a imm len} (h : s.memWf) :
    Result.memWf (muliWith st d a imm len s) := h.scalarImm

theorem State.memWf.execMuli {d a i st} (h : s.memWf) : Result.memWf (execMuli d a i st s) :=
  h.muliWith

theorem State.memWf.execShli {d a hd st} (h : s.memWf) : Result.memWf (execShli d a hd st s) :=
  h.scalarImm

theorem State.memWf.execShri {d a hd st} (h : s.memWf) : Result.memWf (execShri d a hd st s) :=
  h.scalarImm

theorem State.memWf.execSari {d a hd st} (h : s.memWf) : Result.memWf (execSari d a hd st s) :=
  h.scalarImm

theorem State.memWf.execMovpc {d i st} (h : s.memWf) : Result.memWf (execMovpc d i st s) :=
  h.scalarIssue fun _ _ _ h₁ => h₁

/-! ### The directory (Machine/Directory) -/

theorem State.memWf.setRegion {id g} (h : s.memWf) : (s.setRegion id g).memWf := h

theorem State.memWf.gainRef {id n} (h : s.memWf) : (s.gainRef id n).memWf := by
  unfold State.gainRef
  split
  · exact h
  · split
    · exact h
    · split
      · exact h
      · exact h.setRegion

theorem State.memWf.dropRef {id n} (h : s.memWf) : (s.dropRef id n).memWf := by
  unfold State.dropRef
  split
  · exact h
  · split
    · exact h
    · split
      · exact h
      · split
        · exact h
        · extract_lets
          split
          · exact h
          · exact h.setRegion

theorem State.memWf.dropCopyRef {fid sw uid} (h : s.memWf) : (s.dropCopyRef fid sw uid).memWf := by
  unfold State.dropCopyRef
  split
  · split
    · exact h.dropRef
    · exact h
  · exact h

theorem State.memWf.storeHold {fill dpa} (h : s.memWf) :
    onSome State.memWf (storeHold s fill dpa) := by
  unfold Machine.storeHold
  extract_lets
  split
  next heq => exact (congrArg (onSome State.memWf) heq).mp h.writeHold
  · split
    · trivial
    · split
      · split
        · split
          · trivial
          · split
            · exact h
            · exact h.askFill
        · trivial
      · split
        · exact h.beginUpgrade
        · exact h
        · exact h
        · exact h
        · trivial
        · trivial
        · trivial

theorem State.memWf.storesHold {fill l} (h : s.memWf) :
    onSome State.memWf (storesHold s fill l) := by
  induction l generalizing s with
  | nil => trivial
  | cons x l ih =>
    unfold Machine.storesHold
    split
    next t heq =>
      have ht : t.memWf := (congrArg (onSome State.memWf) heq).mp h.storeHold
      exact ht.getD (ih ht)
    · exact ih h

theorem State.memWf.storeWrite {dpa line} (h : s.memWf) : (s.storeWrite dpa line).memWf :=
  h.homeWrite

theorem State.memWf.writeImage {id key} (h : s.memWf) : (s.writeImage id key).memWf := by
  unfold State.writeImage
  split
  · exact h
  · exact h.foldl fun _ _ h₁ => h₁.storeWrite

theorem State.memWf.reclaimHold {id} (h : s.memWf) : onSome State.memWf (reclaimHold s id) := by
  unfold Machine.reclaimHold
  split
  · trivial
  · split
    · trivial
    · split
      · exact h.storesHold
      · trivial

theorem State.memWf.reclaimOne {id} (h : s.memWf) : (s.reclaimOne id).memWf := by
  unfold State.reclaimOne
  split
  · exact h
  · split
    · exact h
    · split
      · exact h.setRegion
      · split
        · exact h.setRegion
        · exact h.setRegion.writeImage.foldl fun _ _ h₁ => h₁.dropRef

theorem State.memWf.reclaimMany {n} (h : s.memWf) : (reclaimMany n s).memWf := by
  induction n generalizing s with
  | zero => exact h
  | succ n ih =>
    unfold Machine.reclaimMany
    split
    · exact h
    · split
      · exact h
      · split
        next t heq => exact (congrArg (onSome State.memWf) heq).mp h.reclaimHold
        · exact ih h.reclaimOne

theorem State.memWf.insertWith {id g kind line a} (h : s.memWf) :
    (insertWith s id g kind line a).memWf := by
  unfold Machine.insertWith
  split
  · exact h.gainRef
  · split
    next heq => exact (congrArg (onSome State.memWf) heq).mp h.storesHold
    · exact h.storeWrite.setRegion.writeImage.tick
  · exact h
  · exact h

theorem State.memWf.insertLine {id kind line} (h : s.memWf) :
    (insertLine s id kind line).memWf := by
  unfold Machine.insertLine
  split
  · exact h
  · split
    · trivial
    · split
      · refine h.reclaimMany.bind fun _ _ h₁ => ?_
        split
        · exact h₁.insertWith
        · exact h₁
      · exact h.insertWith

/-! ### Fields and launches (Machine/Fields) -/

theorem State.memWf.logField {f kind} (h : s.memWf) : (s.logField f kind).memWf := h.logEvent

theorem State.memWf.imageInvalid {fid f sw} (h : s.memWf) : (s.imageInvalid fid f sw).memWf :=
  h.terminal

theorem State.memWf.swapOut {fid} (h : s.memWf) : (s.swapOut fid).memWf := by
  unfold State.swapOut
  split
  · exact h
  · split
    · exact h
    · extract_lets _ _ _ s₁
      have h₁ : s₁.memWf := h
      split
      next s₂ heq =>
        have h₂ : s₂.memWf := (congrArg SaveRes.memWf heq).mp h₁.saveSlot
        exact h₂.countFor.logField
      next s₂ heq =>
        have h₃ : s₂.memWf := (congrArg SaveRes.memWf heq).mp h₁.saveSlot
        exact h₃.countFor.logField
      · exact h₁.imageInvalid

theorem State.memWf.swapGroup {fid} (h : s.memWf) : (s.swapGroup fid).memWf :=
  h.foldl fun _ _ h₁ => h₁.swapOut

theorem State.memWf.haltAll (h : s.memWf) : s.haltAll.memWf := h.foldl fun _ _ h₁ => h₁.swapOut

theorem State.memWf.moveFlush {ctx w core} (h : s.memWf) : (s.moveFlush ctx w core).memWf := by
  unfold State.moveFlush
  split
  · split
    · exact h.acquireFrom
    · exact h
  · exact h.releaseTo.bind fun _ _ h₁ => h₁.acquireFrom

theorem State.memWf.moveFlushes {ctx core l} (h : s.memWf) :
    (State.moveFlushes ctx core l s).memWf := by
  induction l generalizing s with
  | nil => exact h
  | cons x l ih => exact h.moveFlush.bind fun _ _ h' => ih h'

theorem State.memWf.loadField {fid seat} (h : s.memWf) :
    onError State.memWf (s.loadField fid seat) := by
  unfold State.loadField
  split
  · exact h
  · split
    · exact h
    · extract_lets
      split
      · change State.memWf _
        split
        · exact h
        · split
          · exact h.serveArena
          · exact h.imageInvalid
      · split
        · exact h
        · split
          · exact h.imageInvalid
          · trivial

theorem State.memWf.loadFields {l} (h : s.memWf) : onError State.memWf (s.loadFields l) := by
  induction l with
  | nil => trivial
  | cons x l ih =>
    unfold State.loadFields
    split
    next heq => exact (congrArg (onError State.memWf) heq).mp h.loadField
    next heq _ => exact (congrArg (onError State.memWf) heq).mp ih
    · trivial

theorem State.memWf.groupFlushes {l} (h : s.memWf) : (State.groupFlushes l s).memWf := by
  induction l generalizing s with
  | nil => exact h
  | cons x l ih => exact h.moveFlushes.bind fun _ _ h' => ih h'

theorem State.memWf.standAt {fid g seat} (h : s.memWf) : (s.standAt fid g seat).memWf := by
  unfold State.standAt
  extract_lets
  refine h.setField.logField.foldl fun _ _ h₁ => ?_
  split
  split
  · exact h₁.updSwathAt
  · exact h₁

theorem State.memWf.resumeGroup {seats} (h : s.memWf) : (s.resumeGroup seats).memWf := by
  unfold State.resumeGroup
  split
  next heq => exact (congrArg (onError State.memWf) heq).mp h.loadFields
  · split
    · exact h
    next heq => exact (congrArg MRes.memWf heq).mp h.groupFlushes
    next s₁ heq =>
      have h₃ : s₁.memWf := (congrArg MRes.memWf heq).mp h.groupFlushes
      exact h₃.foldl fun _ _ h₄ => h₄.standAt

theorem State.memWf.endField {fid} (h : s.memWf) : (s.endField fid).memWf := by
  unfold State.endField
  split
  · exact h
  · extract_lets s₁ s₂
    have h₁ : s₁.memWf := by
      unfold s₁
      split
      · exact h.logField.slotPut
      · exact h
    have h₂ : s₂.memWf := h₁
    exact h₂.updLaunch

/-! ### The pagers (Machine/Pager) -/

theorem State.memWf.flushUnit {unit} (h : s.memWf) : (s.flushUnit unit).memWf := h.flush

theorem State.memWf.dropUnit {unit} (h : s.memWf) : (s.dropUnit unit).memWf := h

theorem State.memWf.putPoolUnit {pa k m} (h : s.memWf) : (s.putPoolUnit pa k m).memWf := by
  unfold State.putPoolUnit
  split
  · exact h.withPool (Mem.wf_overlay _ _ (Mem.wf_zero _ _ _ h.2))
  · exact h.withPool (Mem.wf_foldl h.2 fun _ _ hp => Mem.wf_wrMask _ _ _ _ _ _ hp)

theorem State.memWf.writeBackFrame {f} (h : s.memWf) : (s.writeBackFrame f).memWf :=
  h.foldl fun _ _ h₁ => h₁.putPoolUnit

theorem State.memWf.freeFrame {f} (h : s.memWf) : (s.freeFrame f).memWf := h.setFrame

theorem State.memWf.evictFrame {f} (h : s.memWf) : (s.evictFrame f).memWf := by
  unfold State.evictFrame
  extract_lets _ s₁
  have h₁ : s₁.memWf := by
    unfold s₁
    split
    · exact h.flushUnit.writeBackFrame
    · exact h.flushUnit
  exact h₁.freeFrame

theorem State.memWf.takeFrame {unit ctx hold} (h : s.memWf) :
    onSome sndWf (s.takeFrame unit ctx hold) := by
  unfold State.takeFrame
  split
  · trivial
  · split
    · trivial
    · extract_lets _ s₁
      have h₁ : s₁.memWf := by
        unfold s₁
        split
        · exact h
        · exact h.countEvict.evictFrame
      exact h₁.countFor.usePool.setFrame

theorem State.memWf.fillFrame {f} (h : s.memWf) : (s.fillFrame f).memWf := by
  unfold State.fillFrame
  extract_lets e ro
  split
  · exact h.freeFrame
  · extract_lets m s₁
    have h₁ : s₁.memWf :=
      @State.memWf.withMem { s with roUnits := _ } _ h (Mem.wf_overlay _ _ (Mem.wf_zero _ _ _ h.1))
    exact h₁.setFrame

theorem State.memWf.dropHints (h : s.memWf) : s.dropHints.memWf := by
  unfold State.dropHints
  extract_lets t₁
  have h₁ : t₁.memWf := h
  refine h₁.foldl fun _ _ h₂ => h₂.foldl fun _ _ h₃ => ?_
  split
  split
  · exact h₃
  · exact h₃.putCounters

theorem State.memWf.startFill {q hold} (h : s.memWf) : (s.startFill q hold).memWf := by
  unfold State.startFill
  extract_lets upd
  have h₁ : ∀ s g, s.memWf → (upd s g).memWf := by
    intro _ _ h₂
    unfold upd
    exact h₂
  split
  · exact h₁ _ _ h
  · split
    · exact h₁ _ _ h
    · split
      · extract_lets
        split
        exact (h₁ _ _ h).service
      · split
        · exact h₁ _ _ h
        · split
          · exact h
          · split
            · exact h
            next s₁ heq =>
              have h₃ : s₁.memWf := (congrArg (onSome sndWf) heq).mp h.takeFrame
              exact h₁ _ _ h₃

theorem State.memWf.releaseHolds {group} (h : s.memWf) : (s.releaseHolds group).memWf := h

theorem State.memWf.startFills {unit} (h : s.memWf) : (s.startFills unit).memWf := by
  unfold State.startFills
  split
  · exact h
  · extract_lets _ s₁ s₂
    have h₁ : s₁.memWf := h.foldl fun _ _ h₂ => h₂.startFill
    have h₃ : s₂.memWf := by
      unfold s₂
      split
      · exact h₁
      · exact h₁.releaseHolds
    exact h₃.dropHints

theorem State.memWf.endPgfill {unit status} (h : s.memWf) : (s.endPgfill unit status).memWf := h

theorem State.memWf.wakeUnit {unit} (h : s.memWf) : (s.wakeUnit unit).memWf :=
  h.foldl fun _ _ h₁ => State.memWf.foldl h₁ (fun _ _ h₂ => h₂.wake)

theorem State.memWf.endFills {unit status} (h : s.memWf) : (s.endFills unit status).memWf := by
  unfold State.endFills
  extract_lets s₁ _ s₂
  have h₁ : s₁.memWf := h
  have h₂ : s₂.memWf := by
    unfold s₂
    split
    · split
      · exact h₁.endPgfill.wakeUnit
      · exact h₁.endPgfill
    · exact h₁
  exact h₂.dropHints

theorem State.memWf.shedFrame {f} (h : s.memWf) : (s.shedFrame f).memWf := State.memWf.freeFrame h

theorem State.memWf.finishFill {unit} (h : s.memWf) : (s.finishFill unit).memWf := by
  unfold State.finishFill
  split
  · exact h
  · split
    · exact h
    · split
      · exact h.endFills
      · split
        · exact h
        · extract_lets
          split
          · exact h.fillFrame.shedFrame.endFills
          · split
            · exact h.fillFrame.dropUnit.freeFrame.endFills
            · exact h.fillFrame.endFills

theorem State.memWf.bindUnit {ctx unit} (h : s.memWf) : sndWf (s.bindUnit ctx unit) := by
  unfold State.bindUnit
  split
  · exact h
  · split
    · exact h
    · extract_lets die fs
      cases fs with
      | nil => exact h
      | cons f0 rest =>
        have hz : ∀ f,
            ({ s.dropUnit unit with mem := s.mem.zero (frameDpa f) 65536 } : State).memWf :=
          fun f => h.dropUnit.withMem (Mem.wf_zero _ _ _ h.1)
        exact (hz _).setFrame.tick

theorem State.memWf.bindAt {gw ctx va} (h : s.memWf) : onOk sndWf (bindAt s gw ctx va) := by
  unfold Machine.bindAt
  split
  · trivial
  · extract_lets
    split
    · trivial
    · split
      · trivial
      · split
        · exact h.learn
        · exact h.learn.bindUnit

theorem State.memWf.scrubLocal {f} (h : s.memWf) : (s.scrubLocal f).memWf := by
  unfold State.scrubLocal
  extract_lets s₁ unit s₂
  have h₁ : s₁.memWf := h.dropUnit
  have h₂ : s₂.memWf :=
    @State.memWf.withMem { s₁ with poisoned := _ } _ h₁ (Mem.wf_zero _ _ _ h₁.1)
  exact h₂.freeFrame.setFrame

theorem State.memWf.shedLease {n lost} (h : s.memWf) : (s.shedLease n lost).memWf := by
  unfold State.shedLease
  refine h.foldl fun _ _ h₁ => ?_
  split
  · exact h₁.shedFrame
  · exact h₁.shedFrame
  · split
    · exact h₁.freeFrame.endFills
    · exact h₁
  · split
    · exact h₁.setFrame
    · exact h₁
  · exact h₁

theorem State.memWf.leaseRecord {n kind event} (h : s.memWf) : (s.leaseRecord n kind event).memWf :=
  h.service

theorem State.memWf.emptyLease {n} (h : s.memWf) : (s.emptyLease n).memWf := State.memWf.setLease h

theorem State.memWf.endPagerWaits {p v ends} (h : s.memWf) : (s.endPagerWaits p v ends).memWf := h

theorem State.memWf.closeMove {unit status} (h : s.memWf) : (s.closeMove unit status).memWf :=
  State.memWf.endPagerWaits h

theorem State.memWf.endCheckpoint {failed} (h : s.memWf) : (s.endCheckpoint failed).memWf := h

theorem State.memWf.leftLive {n} (h : s.memWf) : (s.leftLive n).memWf := by
  unfold State.leftLive
  extract_lets _ s₁
  have h₁ : s₁.memWf := h.foldl fun _ _ h₂ => h₂.closeMove
  split
  · exact h₁.endCheckpoint
  · exact h₁

theorem State.memWf.setLeaseSt {n l} (h : s.memWf) : (s.setLeaseSt n l).memWf := by
  unfold State.setLeaseSt
  extract_lets
  split
  · exact h.setLease.leftLive
  · exact h.setLease

theorem State.memWf.drainLease {n} (h : s.memWf) : (s.drainLease n).memWf := h.flush

theorem State.memWf.dropLease {n} (h : s.memWf) : (s.dropLease n).memWf :=
  State.memWf.foldl h (fun _ _ h₁ => h₁.dropUnit.freeFrame)

theorem State.memWf.evictLease {n} (h : s.memWf) : (s.evictLease n).memWf := by
  unfold State.evictLease
  refine (h.foldl fun _ _ h₁ => ?_).drainLease
  split
  · exact h₁.evictFrame
  · exact h₁.evictFrame
  · exact h₁.evictFrame
  · exact h₁

theorem State.memWf.writeDbase {n value} (h : s.memWf) : (s.writeDbase n value).memWf := by
  unfold State.writeDbase
  extract_lets _ _ _ _ _ s₁ _ s₂
  have h₁ : s₁.memWf := h.foldl fun _ _ h₂ => h₂.setLease
  have h₃ : s₂.memWf := h₁
  split
  · exact h
  · split
    · split <;> exact h
    · split
      · exact h
      · exact h₃.setLease

theorem State.memWf.leaseMsg {die kind n ext} (h : s.memWf) : (s.leaseMsg die kind n ext).memWf :=
  h.emit

theorem State.memWf.settleRevoke {n} (h : s.memWf) : (s.settleRevoke n).memWf := by
  unfold State.settleRevoke
  split
  · extract_lets
    split
    · exact h.drainLease
    · exact h.drainLease.leaseMsg.setLease
  · exact h

theorem State.memWf.loseNode {n down} (h : s.memWf) : (s.loseNode n down).memWf :=
  h.setNode.foldl fun _ _ h₁ => h₁.setLeaseSt.shedLease.leaseRecord

theorem State.memWf.relive (h : s.memWf) : s.relive.memWf := h

theorem State.memWf.writeRoute {n mask} (h : s.memWf) : (s.writeRoute n mask).memWf := by
  unfold State.writeRoute
  extract_lets _ _ _ s₁
  have h₁ : s₁.memWf := by
    unfold s₁
    split
    · exact h.setNode.loseNode
    · exact h.setNode
  exact h₁.relive

theorem State.memWf.fencePorts {ports} (h : s.memWf) : (s.fencePorts ports).memWf :=
  State.memWf.foldl h (fun _ _ h₁ => h₁.loseNode)

theorem State.memWf.endEngine {fid sw off r} (h : s.memWf) : (s.endEngine fid sw off r).memWf := by
  unfold State.endEngine
  split
  · exact h.terminal
  · exact h

theorem State.memWf.launchVector {l} (h : s.memWf) : (s.launchVector l).memWf := by
  unfold State.launchVector
  split
  · exact h.msix
  · exact h

theorem State.memWf.agentFault {l cause} (h : s.memWf) : (s.agentFault l cause).memWf := by
  unfold State.agentFault
  split
  · exact h
  · exact h.updLaunch.terminalRecord.launchVector

theorem State.memWf.refuseLaunch {die ctx ltag cause} (h : s.memWf) :
    (s.refuseLaunch die ctx ltag cause).memWf := h.terminalRecord

theorem State.memWf.refuseExport {uid} (h : s.memWf) : (s.refuseExport uid).memWf := h

theorem State.memWf.endRequester {cause q} (h : s.memWf) : (s.endRequester cause q).memWf := by
  unfold State.endRequester
  split
  · split
    · split
      · exact h
      · exact h.updSwathAt.terminal
    · exact h
  · split
    · split
      · exact h
      · exact h.dropCopyRef.updSwathAt.terminal
    · exact h
  · split
    · split
      · exact h
      · exact h.updSwathAt.terminal
    · exact h
  · split
    · exact h.updField.imageInvalid
    · exact h
  · split
    · exact h.updSwathAt.imageInvalid
    · exact h
  · exact h.dropSlotWait
  · exact h.endRing
  · exact h.refuseExport
  · split
    · split
      · exact h.refuseLaunch
      · exact h
    · exact h.agentFault
  · exact h
  · exact h

theorem State.memWf.freeRec {die idx} (h : s.memWf) : (s.freeRec die idx).memWf :=
  State.memWf.takeIn h

theorem State.memWf.completeRetry {die idx} (h : s.memWf) : (s.completeRetry die idx).memWf := by
  unfold State.completeRetry
  split
  · exact h
  · extract_lets
    split
    · exact h.freeRec.foldl fun _ _ h₁ => h₁.wake
    · exact h.freeRec

theorem State.memWf.completeTerminal {die idx} (h : s.memWf) :
    (s.completeTerminal die idx).memWf := by
  unfold State.completeTerminal
  split
  · exact h
  · extract_lets
    split
    · exact h.freeRec.foldl fun _ _ h₁ => h₁.endRequester
    · exact h.freeRec

theorem State.memWf.completeBind {die idx} (h : s.memWf) : (s.completeBind die idx).memWf := by
  unfold State.completeBind
  split
  · exact h
  · split
    · exact h.freeRec
    · split
      · exact h
      · split
        · exact h
        next s₁ heq =>
          have h₁ : s₁.memWf := (congrArg (onOk sndWf) heq).mp h.bindAt
          extract_lets s₂
          have h₂ : s₂.memWf := h₁
          split
          · exact h₂.completeRetry
          · exact h₂

theorem State.memWf.completeReserved {die idx} (h : s.memWf) :
    (s.completeReserved die idx).memWf := by
  unfold State.completeReserved
  split
  · exact h
  · split
    · exact h
    · exact h.freeRec

theorem State.memWf.writeRole {f value} (h : s.memWf) : (s.writeRole f value).memWf := by
  unfold State.writeRole
  extract_lets _ put
  have h₁ : ∀ r, (put r).memWf := by
    intro _
    unfold put
    split
    · exact h
    · exact h.setFrame
  split
  · exact h
  · split
    · exact h₁ _
    · exact h₁ _
    · exact h₁ _
    · exact h₁ _
    · exact h

/-! ### Scalar memory instructions (Machine/ScalarMem) -/

theorem State.memWf.gLoad {F lvl sys va n} (h : s.memWf) : (gLoad F lvl sys s va n).memWf := by
  unfold Machine.gLoad
  split
  · exact h.loadAt
  · split
    · trivial
    · split
      · exact h
      · split
        next heq => exact (congrArg (onSome State.memWf) heq).mp (onSome_ite h.readHold trivial)
        · exact h

theorem State.memWf.gStore {F lvl sys va v n} (h : s.memWf) :
    (gStore F lvl sys s va v n).memWf := by
  unfold Machine.gStore
  split
  · exact h.storeAt
  · split
    · trivial
    · exact h.homePutHold

theorem State.memWf.gAtomic {F lvl sys va n f} (h : s.memWf) :
    (gAtomic F lvl sys s va n f).memWf := by
  unfold Machine.gAtomic
  split
  · exact h.atomicAt
  · split
    · trivial
    · split
      · exact h
      · split
        next heq => exact (congrArg (onSome State.memWf) heq).mp (onSome_ite h.readHold trivial)
        · extract_lets
          split
          · exact h.homePutHold.bind fun _ _ h₂ => h₂
          · exact h

theorem MRes.memWf.out {α : Type} {r : MRes α} {va} {k : α → State → SOut} (h : r.memWf)
    (hk : ∀ x s, s.memWf → (k x s).memWf) :
    (r.out va k).memWf := by
  unfold MRes.out
  split
  · exact hk _ _ h
  · trivial
  · exact h

theorem State.memWf.scalarLoad {n signed st d a imm len} (h : s.memWf) :
    Result.memWf (scalarLoad n signed st d a imm len s) := by
  unfold Machine.scalarLoad
  refine h.scalarIssue fun F w s h => ?_
  extract_lets va _ off
  clear_value off
  split
  · trivial
  · split
    · split
      · trivial
      · split <;> exact h
    · exact h.gLoad.out fun _ _ h' => h'

theorem State.memWf.plainStore {F va v n} (h : s.memWf) : (plainStore F s va v n).memWf := by
  unfold Machine.plainStore
  split
  · exact h.storeL1
  · exact h.gStore

theorem State.memWf.scalarStore {n st d a imm len} (h : s.memWf) :
    Result.memWf (scalarStore n st d a imm len s) := by
  unfold Machine.scalarStore
  refine h.scalarIssue fun F w s h => ?_
  extract_lets va _ off
  clear_value off
  split
  · trivial
  · split
    · split
      · trivial
      · exact h
    · exact h.plainStore.out fun _ _ h' => h'

theorem State.memWf.scratchWr {fid off v n} (h : s.memWf) : (s.scratchWr fid off v n).memWf :=
  h.updField

theorem State.memWf.scratchLoadWith {st d a imm len} (h : s.memWf) :
    Result.memWf (scratchLoadWith st d a imm len s) := by
  unfold Machine.scratchLoadWith
  refine h.scalarIssue fun _ _ _ h₁ => ?_
  extract_lets
  split
  · trivial
  · split
    · trivial
    · exact h₁

theorem State.memWf.scratchStoreWith {st d a imm len} (h : s.memWf) :
    Result.memWf (scratchStoreWith st d a imm len s) := by
  unfold Machine.scratchStoreWith
  refine h.scalarIssue fun _ _ _ h₁ => ?_
  extract_lets
  split
  · trivial
  · split
    · trivial
    · exact h₁.scratchWr

theorem State.memWf.constLine {F line} (h : s.memWf) : onOk sndWf (constLine s F line) := by
  unfold Machine.constLine
  split
  · exact h
  · split
    · exact h
    · split
      · trivial
      · exact h.updLaunch

theorem State.memWf.constRd {F off n} (h : s.memWf) : onSome (onOk sndWf) (constRd s F off n) := by
  unfold Machine.constRd
  split
  · trivial
  · extract_lets
    split
    · trivial
    · split
      · trivial
      next heq => exact (congrArg (onOk sndWf) heq).mp h.constLine

theorem State.memWf.constLoadWith {st d a imm len} (h : s.memWf) :
    Result.memWf (constLoadWith st d a imm len s) := by
  unfold Machine.constLoadWith
  refine h.scalarIssue fun _ _ _ h₁ => ?_
  extract_lets
  split
  · trivial
  · split
    · trivial
    · trivial
    next heq => exact (congrArg (onSome (onOk sndWf)) heq).mp h₁.constRd

theorem State.memWf.execLdb {d a i st} (h : s.memWf) : Result.memWf (execLdb d a i st s) :=
  h.scalarLoad

theorem State.memWf.execLdbu {d a i st} (h : s.memWf) : Result.memWf (execLdbu d a i st s) :=
  h.scalarLoad

theorem State.memWf.execLdh {d a i st} (h : s.memWf) : Result.memWf (execLdh d a i st s) :=
  h.scalarLoad

theorem State.memWf.execLdhu {d a i st} (h : s.memWf) : Result.memWf (execLdhu d a i st s) :=
  h.scalarLoad

theorem State.memWf.execLdw {d a i st} (h : s.memWf) : Result.memWf (execLdw d a i st s) :=
  h.scalarLoad

theorem State.memWf.execLdwu {d a i st} (h : s.memWf) : Result.memWf (execLdwu d a i st s) :=
  h.scalarLoad

theorem State.memWf.execLdd {d a i st} (h : s.memWf) : Result.memWf (execLdd d a i st s) :=
  h.scalarLoad

theorem State.memWf.execStb {d a i st} (h : s.memWf) : Result.memWf (execStb d a i st s) :=
  h.scalarStore

theorem State.memWf.execSth {d a i st} (h : s.memWf) : Result.memWf (execSth d a i st s) :=
  h.scalarStore

theorem State.memWf.execStw {d a i st} (h : s.memWf) : Result.memWf (execStw d a i st s) :=
  h.scalarStore

theorem State.memWf.execStd {d a i st} (h : s.memWf) : Result.memWf (execStd d a i st s) :=
  h.scalarStore

theorem State.memWf.execLds {d a i st} (h : s.memWf) : Result.memWf (execLds d a i st s) :=
  h.scratchLoadWith

theorem State.memWf.execSts {d a i st} (h : s.memWf) : Result.memWf (execSts d a i st s) :=
  h.scratchStoreWith

theorem State.memWf.execLdc {d a i st} (h : s.memWf) : Result.memWf (execLdc d a i st s) :=
  h.constLoadWith

/-! ### Streams (Machine/Streams) -/

theorem State.memWf.setBar {fid b v} (h : s.memWf) : (s.setBar fid b v).memWf := h.updField

/-! ### Scalar control instructions (Machine/ScalarCtl) -/

theorem State.memWf.scalarBranch {cc a b o st} (h : s.memWf) :
    Result.memWf (scalarBranch cc a b o st s) := h.scalarIssue fun _ _ _ h₁ => h₁

theorem State.memWf.execBeq {a b o st} (h : s.memWf) : Result.memWf (execBeq a b o st s) :=
  h.scalarBranch

theorem State.memWf.execBne {a b o st} (h : s.memWf) : Result.memWf (execBne a b o st s) :=
  h.scalarBranch

theorem State.memWf.execBlt {a b o st} (h : s.memWf) : Result.memWf (execBlt a b o st s) :=
  h.scalarBranch

theorem State.memWf.execBge {a b o st} (h : s.memWf) : Result.memWf (execBge a b o st s) :=
  h.scalarBranch

theorem State.memWf.execBltu {a b o st} (h : s.memWf) : Result.memWf (execBltu a b o st s) :=
  h.scalarBranch

theorem State.memWf.execBgeu {a b o st} (h : s.memWf) : Result.memWf (execBgeu a b o st s) :=
  h.scalarBranch

theorem State.memWf.execJal {d i st} (h : s.memWf) : Result.memWf (execJal d i st s) :=
  h.scalarIssue fun _ _ _ h₁ => h₁

theorem State.memWf.jalrWith {st d a imm len} (h : s.memWf) :
    Result.memWf (jalrWith st d a imm len s) := by
  unfold Machine.jalrWith
  refine h.scalarIssue fun _ _ _ h₁ => ?_
  extract_lets
  split
  · trivial
  · exact h₁

theorem State.memWf.execJalr {d a i st} (h : s.memWf) : Result.memWf (execJalr d a i st s) :=
  h.jalrWith

theorem State.memWf.execMovxw {d a st} (h : s.memWf) : Result.memWf (execMovxw d a st s) :=
  h.scalarIssue fun _ _ _ h₁ => h₁.updSwath

theorem State.memWf.execMovwx {d a st} (h : s.memWf) : Result.memWf (execMovwx d a st s) :=
  h.scalarIssue fun _ _ _ h₁ => h₁

theorem State.memWf.execSetfmt {a m st} (h : s.memWf) : Result.memWf (execSetfmt a m st s) := by
  unfold Machine.execSetfmt
  refine h.scalarIssue fun _ _ _ h₁ => ?_
  extract_lets
  split
  · exact h₁
  · split
    · trivial
    · exact h₁.updSwath

theorem State.memWf.execLrun {a i st} (h : s.memWf) : Result.memWf (execLrun a i st s) := by
  unfold Machine.execLrun
  refine h.scalarIssue fun _ _ _ h₁ => ?_
  extract_lets
  split
  · trivial
  · split
    · trivial
    · exact h₁.updSwath

theorem State.memWf.execLgo {st} (h : s.memWf) : Result.memWf (execLgo st s) := by
  unfold Machine.execLgo
  refine h.scalarIssue fun _ _ _ h₁ => ?_
  split
  · trivial
  · split
    · trivial
    · exact h₁.updSwath
  · exact h₁.updSwath

theorem State.memWf.execLwait {d a i st} (h : s.memWf) : Result.memWf (execLwait d a i st s) := by
  unfold Machine.execLwait
  refine h.scalarIssue fun _ _ _ h₁ => ?_
  extract_lets
  split
  · trivial
  · split
    · exact h₁.updSwath
    · split
      · trivial
      · exact h₁

theorem State.memWf.execLwaitResume {fid sw} (h : s.memWf) :
    Result.memWf (execLwaitResume fid sw s) := by
  unfold Machine.execLwaitResume
  split
  · split
    · split
      · exact h.endWait
      · split
        · exact h.failWait
        · exact h
    · exact h
  · exact h

theorem State.memWf.scalarArrive {F b bar n} (h : s.memWf) :
    onSome fstWf (scalarArrive F s b bar n) := onSome_map fun _ => h.setBar.updSwath

theorem State.memWf.execBara {n a st} (h : s.memWf) : Result.memWf (execBara n a st s) := by
  unfold Machine.execBara
  refine h.scalarIssue fun _ _ _ h₁ => ?_
  split
  · trivial
  · split
    · trivial
    next heq => exact (congrArg (onSome fstWf) heq).mp h₁.scalarArrive

theorem State.memWf.execBarw {n st} (h : s.memWf) : Result.memWf (execBarw n st s) := by
  unfold Machine.execBarw
  refine h.scalarIssue fun _ _ _ h₁ => ?_
  split
  · trivial
  · split
    · exact h₁
    · exact h₁.updSwath

theorem State.memWf.execBars {n a st} (h : s.memWf) : Result.memWf (execBars n a st s) := by
  unfold Machine.execBars
  refine h.scalarIssue fun _ _ _ h₁ => ?_
  split
  · trivial
  · split
    · split
      · exact h₁
      · exact h₁.updSwath
    · split
      · trivial
      next s₁ heq =>
        have h₂ : s₁.memWf := (congrArg (onSome fstWf) heq).mp h₁.scalarArrive
        exact h₂.updSwath
      next s₁ heq =>
        have h₃ : s₁.memWf := (congrArg (onSome fstWf) heq).mp h₁.scalarArrive
        exact h₃.updSwath

theorem State.memWf.resumeScalarBar {F w} (h : s.memWf) : (resumeScalarBar F w s).memWf := by
  unfold Machine.resumeScalarBar
  split
  · split
    · exact h
    · exact h.updSwath.endWait
  · split
    · exact h
    · exact h.updSwath.endWait
  · exact h

theorem State.memWf.resumeLaneBar {fid sw second g b ends level} (h : s.memWf) :
    (resumeLaneBar s fid sw second g b ends level).memWf := by
  unfold Machine.resumeLaneBar
  split
  · exact h
  · exact h.updSwathAt

theorem State.memWf.execBarrierWaitResume {p} (h : s.memWf) :
    Result.memWf (execBarrierWaitResume p s) := by
  unfold Machine.execBarrierWaitResume
  split
  · split
    · exact h.resumeScalarBar
    · exact h
  · split
    · split
      · split
        · exact h.resumeLaneBar
        · exact h.resumeLaneBar
        · exact h
      · exact h
    · exact h
  · exact h

theorem State.memWf.acquireRead {F va n acq} (h : s.memWf) : (acquireRead F s va n acq).memWf := by
  unfold Machine.acquireRead
  split
  · split
    · trivial
    · exact h.pullRecords.bind fun _ _ h₁ => h₁
  · refine h.coveringLoad.bind fun _ _ h₂ => ?_
    change State.memWf _
    split
    · exact h₂.acquireFrom
    · exact h₂

theorem State.memWf.waitmLook {F cc wide va cmp acq} (h : s.memWf) :
    (waitmLook F s cc wide va cmp acq).memWf := by
  unfold Machine.waitmLook
  extract_lets
  refine h.gLoad.bind fun _ _ h₁ => ?_
  split
  · exact h₁.acquireRead.bind fun _ _ h₂ => h₂
  · exact h₁

theorem State.memWf.execWaitm {d a b w c st} (h : s.memWf) :
    Result.memWf (execWaitm d a b w c st s) := by
  unfold Machine.execWaitm
  refine h.scalarIssue fun _ _ _ h₁ => ?_
  extract_lets
  split
  · split
    · trivial
    · refine h₁.waitmLook.out fun _ _ h₂ => ?_
      split <;> exact h₂
  · split
    · trivial
    · refine h₁.waitmLook.out fun _ _ h₃ => ?_
      split <;> exact h₃

theorem State.memWf.rereadAt {F w swapped} (h : s.memWf) : (rereadAt F w swapped s).memWf := by
  unfold Machine.rereadAt
  split
  · split
    next heq => exact (congrArg MRes.memWf heq).mp h.waitmLook
    · split
      · exact h.makeReady
      · exact h.failWait
    next heq => exact (congrArg MRes.memWf heq).mp h.waitmLook
    next s₁ heq =>
      have h₃ : s₁.memWf := (congrArg MRes.memWf heq).mp h.waitmLook
      split
      · exact h₃.updSwath.makeReady
      · exact h₃.endWait
  · exact h

theorem State.memWf.wakeWaitms (h : s.memWf) : s.wakeWaitms.memWf := h

theorem State.memWf.execWaitmReread {p} (h : s.memWf) : Result.memWf (execWaitmReread p s) := by
  unfold Machine.execWaitmReread
  split
  · split
    · split
      · exact h.rereadAt
      · exact h.rereadAt
      · exact h
    · exact h
  · split
    · exact h.rereadAt
    · exact h
  · exact h

theorem State.memWf.execYield {st} (h : s.memWf) : Result.memWf (execYield st s) :=
  h.scalarIssue fun _ _ _ h₁ => h₁.updSwath

theorem State.memWf.exitSwath {F} (h : s.memWf) : (s.exitSwath F).memWf := by
  unfold State.exitSwath
  extract_lets
  split
  · split
    · exact h.updSwath.endField
    · exact h.updSwath
  · exact h.updSwath

theorem State.memWf.execExit {st} (h : s.memWf) : Result.memWf (execExit st s) := by
  unfold Machine.execExit
  refine h.scalarIssue fun _ _ _ h₁ => ?_
  split
  · trivial
  · split
    · exact h₁.exitSwath
    · exact h₁

theorem State.memWf.execExitResume {fid sw} (h : s.memWf) :
    Result.memWf (execExitResume fid sw s) := by
  unfold Machine.execExitResume
  split
  · split
    · split
      · exact h.failWait
      · split
        · exact h.exitSwath
        · exact h
    · exact h
  · exact h

theorem State.memWf.execMfsr {d r st} (h : s.memWf) : Result.memWf (execMfsr d r st s) :=
  h.scalarIssue fun _ _ _ h₁ => h₁

theorem State.memWf.execMtsr {a r st} (h : s.memWf) : Result.memWf (execMtsr a r st s) := by
  unfold Machine.execMtsr
  refine h.scalarIssue fun _ _ _ h₁ => ?_
  extract_lets _ put
  have h₂ : ∀ g, (put g).memWf := by
    intro _
    unfold put
    exact h₁.updSwath
  split
  · split
    · exact h₂ _
    · trivial
  · exact h₂ _
  · exact h₂ _
  · exact h₂ _
  · split
    · trivial
    · exact h₂ _
  · trivial

/-! ### The matrix engine (Machine/Matrix) -/

theorem State.memWf.queueOp {F o} (h : s.memWf) : (s.queueOp F o).memWf := h.updSwath

theorem SOut.memWf.unlessTrap {t} {k : SOut} (h : k.memWf) : (unlessTrap t k).memWf := by
  unfold Machine.unlessTrap
  split
  · trivial
  · exact h

theorem State.memWf.mloadWith {kind fmt a F w} (h : s.memWf) : (mloadWith kind fmt a F w s).memWf :=
  SOut.memWf.unlessTrap h.queueOp

theorem State.memWf.execMloadFp {a st} (h : s.memWf) : Result.memWf (execMloadFp a st s) := by
  unfold Machine.execMloadFp
  refine h.scalarIssue fun _ _ _ h₁ => ?_
  extract_lets
  split
  · trivial
  · exact h₁.mloadWith

theorem State.memWf.execMloadTern {a st} (h : s.memWf) : Result.memWf (execMloadTern a st s) :=
  h.scalarIssue fun _ _ _ h₁ => h₁.mloadWith

theorem State.memWf.execMflipFp {st} (h : s.memWf) : Result.memWf (execMflipFp st s) :=
  h.scalarIssue fun _ _ _ h₁ => h₁.queueOp

theorem State.memWf.execMflipTern {st} (h : s.memWf) : Result.memWf (execMflipTern st s) :=
  h.scalarIssue fun _ _ _ h₁ => h₁.queueOp

theorem State.memWf.multiplyWith {tern t a F w} (h : s.memWf) :
    (multiplyWith tern t a F w s).memWf := by
  unfold Machine.multiplyWith
  split
  extract_lets
  split
  · trivial
  · exact SOut.memWf.unlessTrap (SOut.memWf.unlessTrap h.queueOp)

theorem State.memWf.execMmul {t a st} (h : s.memWf) : Result.memWf (execMmul t a st s) :=
  h.scalarIssue fun _ _ _ h₁ => h₁.multiplyWith

theorem State.memWf.execMtern {t a st} (h : s.memWf) : Result.memWf (execMtern t a st s) :=
  h.scalarIssue fun _ _ _ h₁ => h₁.multiplyWith

theorem State.memWf.execMzero {t st} (h : s.memWf) : Result.memWf (execMzero t st s) := by
  unfold Machine.execMzero
  refine h.scalarIssue fun _ _ _ h₁ => ?_
  split
  · trivial
  · exact h₁.queueOp

theorem State.memWf.execMdrain {t a st} (h : s.memWf) : Result.memWf (execMdrain t a st s) := by
  unfold Machine.execMdrain
  refine h.scalarIssue fun _ _ _ h₁ => ?_
  split
  split
  · trivial
  · exact SOut.memWf.unlessTrap (SOut.memWf.unlessTrap h₁.queueOp)

theorem State.memWf.execMfence {d st} (h : s.memWf) : Result.memWf (execMfence d st s) :=
  h.scalarIssue fun _ _ _ h₁ => h₁.updSwath

theorem State.memWf.execMwait {a st} (h : s.memWf) : Result.memWf (execMwait a st s) := by
  unfold Machine.execMwait
  refine h.scalarIssue fun _ _ _ h₁ => ?_
  extract_lets
  split
  · trivial
  · split <;> exact h₁

theorem State.memWf.execMwaitResume {fid sw} (h : s.memWf) :
    Result.memWf (execMwaitResume fid sw s) := by
  unfold Machine.execMwaitResume
  split
  · split
    · split
      · exact h.endWait
      · exact h
    · exact h
  · exact h

theorem State.memWf.execMgrow {d a b st} (h : s.memWf) : Result.memWf (execMgrow d a b st s) := by
  unfold Machine.execMgrow
  refine h.scalarIssue fun _ _ _ h₁ => ?_
  split
  · exact h₁
  · extract_lets
    split
    exact h₁.setField

theorem State.memWf.execMatrixKstepComplete {fid sw} (h : s.memWf) :
    Result.memWf (execMatrixKstepComplete fid sw s) := by
  unfold Machine.execMatrixKstepComplete
  (repeat' split) <;> exact h

theorem State.memWf.execMatrixOpComplete {fid sw} (h : s.memWf) :
    Result.memWf (execMatrixOpComplete fid sw s) := by
  unfold Machine.execMatrixOpComplete
  split
  · split
    · split
      · exact h.setField
      · exact h
    · split
      exact h
  · exact h

theorem State.memWf.execMatrixOpPause {fid sw} (h : s.memWf) :
    Result.memWf (execMatrixOpPause fid sw s) := h.updSwathAt

/-! ### Chains (Machine/Chains) -/

theorem State.memWf.pbRelease {fid launch core ctx other} (h : s.memWf) :
    (pbRelease s fid launch core ctx other).memWf := h.releaseTo

theorem State.memWf.execPbinit {a b st} (h : s.memWf) : Result.memWf (execPbinit a b st s) := by
  unfold Machine.execPbinit
  refine h.scalarIssue fun _ _ _ h₁ => ?_
  extract_lets
  split
  · trivial
  · split
    · trivial
    · exact h₁.scratchWr

theorem State.memWf.execPbarv {d a b st} (h : s.memWf) : Result.memWf (execPbarv d a b st s) := by
  unfold Machine.execPbarv
  refine h.scalarIssue fun _ _ _ h₁ => ?_
  split
  · trivial
  · split
    · trivial
    · extract_lets
      split
      · trivial
      · exact h₁.pbRelease.out fun _ _ h₂ => h₂.scratchWr

theorem State.memWf.pbLook {F off phase} (h : s.memWf) :
    onOk (onSome sndWf) (pbLook s F off phase) := by
  unfold Machine.pbLook
  split
  · trivial
  · extract_lets
    split
    · trivial
    · split
      · trivial
      · exact h.acquireFrom

theorem State.memWf.execPbwait {d a b st} (h : s.memWf) : Result.memWf (execPbwait d a b st s) := by
  unfold Machine.execPbwait
  refine h.scalarIssue fun _ _ _ h₁ => ?_
  split
  · trivial
  · exact h₁
  next heq => exact (congrArg (onOk (onSome sndWf)) heq).mp h₁.pbLook

theorem State.memWf.execPbwaitResume {fid sw} (h : s.memWf) :
    Result.memWf (execPbwaitResume fid sw s) := by
  unfold Machine.execPbwaitResume
  split
  · split
    · split
      · exact h.failWait
      · exact h
      next s₁ heq =>
        have h₁ : s₁.memWf := (congrArg (onOk (onSome sndWf)) heq).mp h.pbLook
        exact h₁.endWait
    · exact h
  · exact h

theorem State.memWf.startChain {F c} (h : s.memWf) : (s.startChain F c).memWf := h.updSwath

theorem State.memWf.execCpgo {a st} (h : s.memWf) : Result.memWf (execCpgo a st s) :=
  h.scalarIssue fun _ _ _ h₁ => SOut.memWf.unlessTrap h₁.startChain

theorem State.memWf.execWaitc {c a st} (h : s.memWf) : Result.memWf (execWaitc c a st s) := by
  unfold Machine.execWaitc
  refine h.scalarIssue fun _ _ _ h₁ => ?_
  extract_lets
  split <;> exact h₁

theorem State.memWf.execWaitcResume {fid sw} (h : s.memWf) :
    Result.memWf (execWaitcResume fid sw s) := by
  unfold Machine.execWaitcResume
  split
  · split
    · split
      · exact h.endWait
      · exact h
    · exact h
  · exact h

theorem ERes.memWf.bind {α : Type} {β : Type} {r : ERes α} {f : α → State → ERes β} (h : r.memWf)
    (hf : ∀ x s, s.memWf → (f x s).memWf) :
    (r.bind f).memWf := by
  unfold ERes.bind
  split
  · exact hf _ _ h
  · exact h
  · exact h

theorem State.memWf.eng {α : Type} {r : MRes α} {va} (h : s.memWf) (hr : r.memWf) :
    (r.eng va s).memWf := by
  unfold MRes.eng
  split
  · exact hr
  · exact h
  · exact hr

theorem State.memWf.engGet {A fid pad a} (h : s.memWf) : (engGet s A fid pad a).memWf := by
  unfold Machine.engGet
  split
  · split <;> exact h
  · exact h.eng h.loadAt

theorem State.memWf.engPut {A fid pad a v} (h : s.memWf) : (engPut s A fid pad a v).memWf := by
  unfold Machine.engPut
  split
  · split
    · exact h
    · exact h.scratchWr
  · exact h.eng h.storeL1

theorem State.memWf.engCopy {A fid ssp dsp src dst i n} (h : s.memWf) :
    (engCopy A fid ssp dsp src dst i n s).memWf := by
  induction n generalizing i s with
  | zero => exact h
  | succ n ih => exact h.engGet.bind fun _ _ h₁ => h₁.engPut.bind fun _ _ h₂ => ih h₂

theorem State.memWf.setChain {fid sw c} (h : s.memWf) : (s.setChain fid sw c).memWf := h.updSwathAt

theorem State.memWf.chainFault {fid sw c r} (h : s.memWf) : (s.chainFault fid sw c r).memWf := by
  unfold State.chainFault
  split
  · split
    · exact h.setChain.logFault.toServicer
    · exact h.dropCopyRef.updSwathAt.endEngine
  · exact h

theorem ERes.memWf.chainEnd {fid sw c} {r : ERes Chain} (h : r.memWf) :
    (State.chainEnd fid sw c r).memWf := by
  unfold State.chainEnd
  split
  · exact State.memWf.setChain h
  · exact h
  · exact State.memWf.chainFault h

theorem State.memWf.chainStep {kind fid sw uid}
    {body : Field → Agent → Chain → List W64 → State → ERes Chain} (h : s.memWf)
    (hbody : ∀ x y z u s, s.memWf → (body x y z u s).memWf) :
    Result.memWf (chainStep kind fid sw uid body s) := by
  unfold Machine.chainStep
  split
  · exact h
  · split
    · exact h
    · split
      · exact h.chainFault
      · extract_lets
        split
        · exact h.setChain.chainFault
        · split
          · exact h.setChain
          · split
            · exact h.setChain.chainFault
            · exact (hbody _ _ _ _ _ h.setChain).chainEnd

theorem State.memWf.malformed (h : s.memWf) : (malformed s).memWf := h

theorem State.memWf.copyStep {fid x A c d} (h : s.memWf) : (copyStep fid x A c d s).memWf := by
  unfold Machine.copyStep
  extract_lets
  split
  · exact h.malformed
  · exact h.engCopy.bind fun _ _ h₁ => h₁

theorem State.memWf.askFills {es ctx rq} (h : s.memWf) : (s.askFills es ctx rq).memWf :=
  h.foldl fun _ _ h₁ => h₁.askFill

theorem State.memWf.gatherStep {fid f A c d} (h : s.memWf) : (gatherStep fid f A c d s).memWf := by
  unfold Machine.gatherStep
  extract_lets _ _ _ _ _ _ _ _ _ _ _ finish
  have h₁ : ∀ c s, s.memWf → (finish c s).memWf := by
    intro _ _ h₂
    unfold finish
    split
    · exact h₂
    · split
      · exact h₂
      · exact h₂.scratchWr
  split
  · exact h.malformed
  · split
    · exact h
    · split
      · exact h
      · exact h.engCopy.bind fun _ _ h₃ => h₁ _ _ h₃
      · exact h₁ _ _ h.askFills

theorem State.memWf.loopStep {fid f A c d} (h : s.memWf) : (loopStep fid f A c d s).memWf := by
  unfold Machine.loopStep
  extract_lets
  split
  · exact h.malformed
  · split
    · exact h.malformed
    · split <;> exact h

theorem State.memWf.skipifStep {fid f A c d} (h : s.memWf) : (skipifStep fid f A c d s).memWf := by
  unfold Machine.skipifStep
  extract_lets
  split
  · exact h.malformed
  · split
    · exact h
    · exact h.acquireFrom

theorem State.memWf.arriveStep {fid f A c d} (h : s.memWf) : (arriveStep fid f A c d s).memWf := by
  unfold Machine.arriveStep
  extract_lets
  split
  · exact h.malformed
  · split
    · exact h
    · split
      · exact h
      · exact (h.eng h.pbRelease).bind fun _ _ h₁ => h₁.scratchWr

theorem State.memWf.execChainCopy {fid sw chain} (h : s.memWf) :
    Result.memWf (execChainCopy fid sw chain s) := h.chainStep fun _ _ _ _ _ h₁ => h₁.copyStep

theorem State.memWf.execChainGather {fid sw chain} (h : s.memWf) :
    Result.memWf (execChainGather fid sw chain s) := h.chainStep fun _ _ _ _ _ h₁ => h₁.gatherStep

theorem State.memWf.execChainLoop {fid sw chain} (h : s.memWf) :
    Result.memWf (execChainLoop fid sw chain s) := h.chainStep fun _ _ _ _ _ h₁ => h₁.loopStep

theorem State.memWf.execChainSkipif {fid sw chain} (h : s.memWf) :
    Result.memWf (execChainSkipif fid sw chain s) := h.chainStep fun _ _ _ _ _ h₁ => h₁.skipifStep

theorem State.memWf.execChainArrive {fid sw chain} (h : s.memWf) :
    Result.memWf (execChainArrive fid sw chain s) := h.chainStep fun _ _ _ _ _ h₁ => h₁.arriveStep

theorem State.memWf.execChainEnd {fid sw chain} (h : s.memWf) :
    Result.memWf (execChainEnd fid sw chain s) := h.chainStep fun _ _ _ _ _ h₁ => h₁

theorem State.memWf.execChainComplete {fid sw} (h : s.memWf) :
    Result.memWf (execChainComplete fid sw s) := by
  unfold Machine.execChainComplete
  split
  · split
    · split
      · exact h.updSwathAt
      · exact h
    · exact h
  · exact h

/-! ### Pager instructions (Machine/PagerForms) -/

theorem State.memWf.execPgfill {d a st} (h : s.memWf) : Result.memWf (execPgfill d a st s) := by
  unfold Machine.execPgfill
  refine h.scalarIssue fun _ _ _ h₁ => ?_
  extract_lets status
  have h₂ : ∀ s k, s.memWf → (status s k).memWf := by
    intro _ _ h₃
    unfold status
    exact h₃
  split
  · trivial
  · extract_lets
    split
    · exact h₂ _ _ h₁
    · split
      · exact h₂ _ _ h₁.wakeUnit
      · split
        · exact h₂ _ _ h₁
        · split
          · split <;> exact h₁
          · split
            · exact h₂ _ _ h₁.wakeUnit
            · split
              · exact h₁
              next s₁ heq =>
                have h₄ : s₁.memWf := (congrArg (onSome sndWf) heq).mp h₁.takeFrame
                exact h₂ _ _ h₄.fillFrame.wakeUnit

theorem State.memWf.execPgevict {d a st} (h : s.memWf) : Result.memWf (execPgevict d a st s) := by
  unfold Machine.execPgevict
  refine h.scalarIssue fun _ _ _ h₁ => ?_
  extract_lets status
  have h₂ : ∀ s k, s.memWf → (status s k).memWf := by
    intro _ _ h₃
    unfold status
    exact h₃
  split
  · trivial
  · split
    · exact h₂ _ _ h₁
    · split
      · exact h₂ _ _ h₁
      · split
        · split
          · exact h₂ _ _ h₁
          · split
            · exact h₁
            · exact h₂ _ _ h₁.evictFrame
        · split
          · exact h₂ _ _ h₁
          · split
            · exact h₁
            · exact h₂ _ _ h₁.evictFrame
        · split
          · exact h₂ _ _ h₁
          · split
            · exact h₁
            · exact h₂ _ _ h₁.evictFrame
        · exact h₁

theorem State.memWf.execPgmove {d a b st} (h : s.memWf) : Result.memWf (execPgmove d a b st s) := by
  unfold Machine.execPgmove
  refine h.scalarIssue fun _ _ _ h₁ => ?_
  extract_lets status
  have h₂ : ∀ k, (status k).memWf := by
    intro _
    unfold status
    exact h₁
  split
  extract_lets
  split
  · trivial
  · extract_lets
    split
    · exact h₂ _
    · split
      · exact h₁
      · split
        · exact h₂ _
        · split
          · exact h₂ _
          · split
            · exact h₂ _
            · split
              · exact h₂ _
              · split
                · exact h₂ _
                · exact h₁

theorem State.memWf.execPgupg {d a st} (h : s.memWf) : Result.memWf (execPgupg d a st s) := by
  unfold Machine.execPgupg
  refine h.scalarIssue fun _ _ _ h₁ => ?_
  extract_lets status
  have h₂ : ∀ k, (status k).memWf := by
    intro _
    unfold status
    exact h₁
  split
  · trivial
  · split
    · exact h₂ _
    · split
      · split
        · exact h₂ _
        · exact h₁.beginUpgrade
      · exact h₂ _
      · exact h₂ _

theorem State.memWf.leaseForm {d a srcs st ends ok} {body : Focus → Swath → State → Nat → SOut}
    (h : s.memWf) (hbody : ∀ x y s z, s.memWf → (body x y s z).memWf) :
    Result.memWf (leaseForm d a srcs st ends ok body s) := by
  unfold Machine.leaseForm
  refine h.scalarIssue fun _ _ _ h₁ => ?_
  split
  · trivial
  · exact hbody _ _ _ _ h₁

theorem State.memWf.execLeaseopRenew {d a b st} (h : s.memWf) :
    Result.memWf (execLeaseopRenew d a b st s) := by
  unfold Machine.execLeaseopRenew
  refine h.leaseForm fun _ _ _ _ h₁ => ?_
  split
  · exact h₁
  · exact h₁.leaseMsg
  · exact h₁.leaseMsg
  · exact h₁

theorem State.memWf.execLeaseopQuery {d a b st} (h : s.memWf) :
    Result.memWf (execLeaseopQuery d a b st s) := h.leaseForm fun _ _ _ _ h₁ => h₁

theorem State.memWf.execLeaseopRelease {d a b st} (h : s.memWf) :
    Result.memWf (execLeaseopRelease d a b st s) := by
  unfold Machine.execLeaseopRelease
  refine h.leaseForm fun _ _ _ _ h₁ => ?_
  split
  · exact h₁
  · split
    · exact h₁
    · exact h₁.evictLease.setLeaseSt.leaseMsg
  · exact h₁.leaseMsg
  · exact h₁.dropLease.emptyLease

theorem State.memWf.execLeaseopAckwarn {d a b st} (h : s.memWf) :
    Result.memWf (execLeaseopAckwarn d a b st s) := by
  unfold Machine.execLeaseopAckwarn
  refine h.leaseForm fun _ _ _ _ h₁ => ?_
  split
  · exact h₁
  · exact h₁.setLease

theorem State.memWf.happens (h : s.memWf) : Result.memWf (happens s) := h

theorem State.memWf.execPageFillStart {unit} (h : s.memWf) :
    Result.memWf (execPageFillStart unit s) := h.startFills.happens

theorem State.memWf.execPageFillComplete {unit} (h : s.memWf) :
    Result.memWf (execPageFillComplete unit s) := h.finishFill.happens

theorem State.memWf.execServiceRecordAdmit {die} (h : s.memWf) :
    Result.memWf (execServiceRecordAdmit die s) := h.takeIn.happens

theorem State.memWf.execDeq {die} (h : s.memWf) : Result.memWf (execDeq die s) := by
  unfold Machine.execDeq
  split
  · exact h.happens
  · split
    · exact State.memWf.happens h
    · exact h.happens

theorem State.memWf.execDeqTimeout {die} (h : s.memWf) : Result.memWf (execDeqTimeout die s) := by
  unfold Machine.execDeqTimeout
  split
  · exact h.happens
  · split
    · exact State.memWf.happens h
    · exact h.happens

theorem State.memWf.execPagerCompleteRetry {die idx} (h : s.memWf) :
    Result.memWf (execPagerCompleteRetry die idx s) := h.completeRetry.happens

theorem State.memWf.execPagerCompleteBind {die idx} (h : s.memWf) :
    Result.memWf (execPagerCompleteBind die idx s) := h.completeBind.happens

theorem State.memWf.execPagerCompleteTerminal {die idx} (h : s.memWf) :
    Result.memWf (execPagerCompleteTerminal die idx s) := h.completeTerminal.happens

theorem State.memWf.execPagerCompleteReserved {die idx action} (h : s.memWf) :
    Result.memWf (execPagerCompleteReserved die idx action s) := by
  unfold Machine.execPagerCompleteReserved
  split
  · exact h.happens
  · exact h.completeReserved.happens

theorem State.memWf.startCheckpoint {lease halt} (h : s.memWf) :
    (s.startCheckpoint lease halt).memWf := by
  unfold State.startCheckpoint
  extract_lets
  split
  · exact h
  · exact h.haltAll

theorem State.memWf.execPagerWindowWrite {die off value} (h : s.memWf) :
    Result.memWf (execPagerWindowWrite die off value s) := by
  unfold Machine.execPagerWindowWrite
  split
  · split
    · exact h.happens
    · split
      · exact h.startCheckpoint.happens
      · exact State.memWf.happens h
  · split
    · exact State.memWf.happens h
    · exact h.happens

theorem State.memWf.execLeaseDbaseWrite {lease value} (h : s.memWf) :
    Result.memWf (execLeaseDbaseWrite lease value s) := h.writeDbase.happens

theorem State.memWf.execRouteWrite {node mask} (h : s.memWf) :
    Result.memWf (execRouteWrite node mask s) := h.writeRoute.happens

theorem State.memWf.execFrameRoleWrite {die frame value} (h : s.memWf) :
    Result.memWf (execFrameRoleWrite die frame value s) := by
  unfold Machine.execFrameRoleWrite
  split
  · exact h.happens
  · exact h.writeRole.happens

theorem State.memWf.execPagerRestart {die} (h : s.memWf) :
    Result.memWf (execPagerRestart die s) := by
  unfold Machine.execPagerRestart
  split
  · exact h.happens
  · split
    · exact h.happens
    · exact State.memWf.happens h

theorem State.memWf.execLocalFrameScrub {frame} (h : s.memWf) :
    Result.memWf (execLocalFrameScrub frame s) := by
  unfold Machine.execLocalFrameScrub
  extract_lets
  split
  · exact h.scrubLocal.happens
  · exact h.happens

theorem State.memWf.execLeaseWarn {lease} (h : s.memWf) : Result.memWf (execLeaseWarn lease s) := by
  unfold Machine.execLeaseWarn
  extract_lets
  split
  · exact h.setLease.leaseRecord.happens
  · exact h.happens

theorem State.memWf.execLeaseWarnRepeat {lease} (h : s.memWf) :
    Result.memWf (execLeaseWarnRepeat lease s) := by
  unfold Machine.execLeaseWarnRepeat
  extract_lets
  split
  · exact h.leaseRecord.happens
  · exact h.happens

theorem State.memWf.execLeaseExpire {lease} (h : s.memWf) :
    Result.memWf (execLeaseExpire lease s) := by
  unfold Machine.execLeaseExpire
  extract_lets
  split
  · exact h.setLeaseSt.happens
  · exact h.happens

theorem State.memWf.execGrant {lease node pool len safe remain} (h : s.memWf) :
    Result.memWf (execGrant lease node pool len safe remain s) := by
  unfold Machine.execGrant
  extract_lets _ _ _ _ s₁
  have h₁ : s₁.memWf := h.setNode.relive.setLease
  split
  · exact h.heathLog.happens
  · split
    · exact h.heathLog.happens
    · exact h₁.leaseRecord.happens

theorem State.memWf.execRenewAck {lease remain} (h : s.memWf) :
    Result.memWf (execRenewAck lease remain s) := by
  unfold Machine.execRenewAck
  extract_lets
  split
  · exact h.setLease.leaseRecord.endPagerWaits.happens
  · exact h.endPagerWaits.happens

theorem State.memWf.execRenewNak {lease} (h : s.memWf) : Result.memWf (execRenewNak lease s) :=
  h.endPagerWaits.happens

theorem State.memWf.execRevoke {lease} (h : s.memWf) : Result.memWf (execRevoke lease s) := by
  unfold Machine.execRevoke
  extract_lets
  split
  · exact h.setLeaseSt.shedLease.leaseRecord.settleRevoke.happens
  · exact h.heathLog.happens

theorem State.memWf.execRevokeAck {lease} (h : s.memWf) : Result.memWf (execRevokeAck lease s) :=
  h.settleRevoke.happens

theorem State.memWf.execReleaseAck {lease} (h : s.memWf) :
    Result.memWf (execReleaseAck lease s) := by
  unfold Machine.execReleaseAck
  split
  · exact h.emptyLease.endPagerWaits.happens
  · exact h.happens

theorem State.memWf.execNodeDown {node} (h : s.memWf) : Result.memWf (execNodeDown node s) :=
  h.loseNode.happens

theorem State.memWf.execLeaseMessageInvalid {kind} (h : s.memWf) :
    Result.memWf (execLeaseMessageInvalid kind s) := h.heathLog.happens

theorem State.memWf.execLeaseopTimeout {die} (h : s.memWf) :
    Result.memWf (execLeaseopTimeout die s) := by
  unfold Machine.execLeaseopTimeout
  split
  · exact h.happens
  · split
    · exact h.updSwath.happens
    · exact h.happens

theorem State.memWf.execPgmoveSwitch {die} (h : s.memWf) :
    Result.memWf (execPgmoveSwitch die s) := by
  unfold Machine.execPgmoveSwitch
  split
  · exact h.happens
  · split
    · extract_lets
      split
      · exact h.happens
      · split
        · exact State.memWf.happens h.putPoolUnit
        · exact h.closeMove.happens
    · exact State.memWf.happens (State.memWf.closeMove h)

theorem State.memWf.execCheckpointStart {lease halt} (h : s.memWf) :
    Result.memWf (execCheckpointStart lease halt s) := h.startCheckpoint.happens

theorem State.memWf.quiesced (h : s.memWf) : s.quiesced.memWf := by
  unfold State.quiesced
  extract_lets s₁
  have h₁ : s₁.memWf := h.flush
  clear_value s₁
  exact ⟨h₁.1, h₁.2⟩

theorem State.memWf.copyFrame {base f} (h : s.memWf) : (s.copyFrame base f).memWf := by
  unfold State.copyFrame
  extract_lets e key s₁
  have h₁ : s₁.memWf := h.putPoolUnit
  clear_value s₁
  exact ⟨h₁.1, h₁.2⟩

theorem State.memWf.copyMap {base} (h : s.memWf) : (s.copyMap base).memWf := by
  unfold State.copyMap
  extract_lets at_ timeAt rest map_
  have hmap : map_.wf = true :=
    Mem.wf_foldl (Mem.wf_filter _ _ h.2) fun _ _ hm => Mem.wf_wrN _ _ _ _ hm
  exact h.withPool (Mem.wf_wrN _ _ _ _ hmap)

theorem State.memWf.execCheckpointComplete (h : s.memWf) :
    Result.memWf (execCheckpointComplete s) := by
  unfold Machine.execCheckpointComplete
  extract_lets
  split
  · exact h.happens
  · split
    · exact State.memWf.happens (State.memWf.getD h.quiesced h.linesHold)
    · split
      · exact h.happens
      · split
        · exact h.copyFrame.happens
        · exact h.copyMap.endCheckpoint.happens

/-! ### Scalar synchronisation (Machine/Sync) -/

theorem State.memWf.clampFlag {F clamped} (h : s.memWf) : (s.clampFlag F clamped).memWf := by
  unfold State.clampFlag
  split
  · exact h.updSwath
  · exact h

theorem State.memWf.partyRelease {F scope} (h : s.memWf) : (partyRelease F s scope).memWf := by
  unfold Machine.partyRelease
  split
  · exact h
  · exact h.releaseTo

theorem State.memWf.partyAcquire {F scope} (h : s.memWf) : (partyAcquire F s scope).memWf := by
  unfold Machine.partyAcquire
  split
  · exact h
  · exact h.acquireFrom

theorem memWf_misaligned {va} : (misaligned va).memWf := trivial

theorem State.memWf.loggedAtomic {F lane lvl sys va n f} (h : s.memWf) :
    (loggedAtomic F lane lvl sys s va n f).memWf := by
  unfold Machine.loggedAtomic
  split
  · extract_lets _ stop
    have h₁ : ∀ s, s.memWf → (stop s).memWf := by
      intro _ h₂
      unfold stop
      exact h₂.updField
    split
    · exact h
    · exact h₁ _ h
    · refine h.gAtomic.bind fun _ _ h₃ => ?_
      extract_lets
      change State.memWf _
      split
      · exact h₁ _ h₃.logEvent
      · exact h₃.logEvent
  · exact h.gAtomic

theorem State.memWf.scalarAtomicWith {signed d a srcs wide scope st f} (h : s.memWf) :
    Result.memWf (scalarAtomicWith signed d a srcs wide scope st f s) := by
  unfold Machine.scalarAtomicWith
  refine h.scalarIssue fun _ _ _ h₁ => ?_
  extract_lets
  split
  · exact memWf_misaligned
  · split
    · trivial
    · exact h₁.loggedAtomic.out fun _ _ h₂ => h₂

theorem State.memWf.scalarAtomic {op d a b wide scope st} (h : s.memWf) :
    Result.memWf (scalarAtomic op d a b wide scope st s) := h.scalarAtomicWith

theorem State.memWf.execAtomAdd {d a b w p st} (h : s.memWf) :
    Result.memWf (execAtomAdd d a b w p st s) := h.scalarAtomic

theorem State.memWf.execAtomXchg {d a b w p st} (h : s.memWf) :
    Result.memWf (execAtomXchg d a b w p st s) := h.scalarAtomic

theorem State.memWf.execAtomMin {d a b w p st} (h : s.memWf) :
    Result.memWf (execAtomMin d a b w p st s) := h.scalarAtomic

theorem State.memWf.execAtomMax {d a b w p st} (h : s.memWf) :
    Result.memWf (execAtomMax d a b w p st s) := h.scalarAtomic

theorem State.memWf.execAtomUmin {d a b w p st} (h : s.memWf) :
    Result.memWf (execAtomUmin d a b w p st s) := h.scalarAtomic

theorem State.memWf.execAtomUmax {d a b w p st} (h : s.memWf) :
    Result.memWf (execAtomUmax d a b w p st s) := h.scalarAtomic

theorem State.memWf.execAtomAnd {d a b w p st} (h : s.memWf) :
    Result.memWf (execAtomAnd d a b w p st s) := h.scalarAtomic

theorem State.memWf.execAtomOr {d a b w p st} (h : s.memWf) :
    Result.memWf (execAtomOr d a b w p st s) := h.scalarAtomic

theorem State.memWf.execAtomXor {d a b w p st} (h : s.memWf) :
    Result.memWf (execAtomXor d a b w p st s) := h.scalarAtomic

theorem State.memWf.execAtomCas {d a b w p st} (h : s.memWf) :
    Result.memWf (execAtomCas d a b w p st s) := h.scalarAtomicWith

theorem State.memWf.scopedLoad {F scope va n} (h : s.memWf) :
    (scopedLoad F s scope va n).memWf := by
  unfold Machine.scopedLoad
  split
  · split
    · exact h.gLoad
    · refine h.acquireRead.bind fun _ _ h₁ => ?_
      split
      next heq => exact (congrArg (onSome State.memWf) heq).mp (onSome_ite h₁.readHold trivial)
      · exact h₁
  · split
    · exact h.loadAt
    · exact h.coveringLoad

theorem State.memWf.execLdacq {d a w p st} (h : s.memWf) :
    Result.memWf (execLdacq d a w p st s) := by
  unfold Machine.execLdacq
  refine h.scalarIssue fun _ _ _ h₁ => ?_
  extract_lets
  split
  · exact memWf_misaligned
  · split
    · trivial
    · exact h₁.scopedLoad.out fun _ _ h₂ => h₂.partyAcquire

theorem State.memWf.scopedStore {F scope va v n} (h : s.memWf) :
    (scopedStore F s scope va v n).memWf := h.partyRelease.bind fun _ _ h₁ => h₁.gStore

theorem State.memWf.execStrel {a b w p st} (h : s.memWf) :
    Result.memWf (execStrel a b w p st s) := by
  unfold Machine.execStrel
  refine h.scalarIssue fun _ _ _ h₁ => ?_
  extract_lets
  split
  · exact memWf_misaligned
  · split
    · trivial
    · exact h₁.scopedStore.out fun _ _ h₂ => h₂.clampFlag

theorem State.memWf.scalarFence {rel acq p st} (h : s.memWf) :
    Result.memWf (scalarFence rel acq p st s) := by
  unfold Machine.scalarFence
  refine h.scalarIssue fun _ _ _ h₁ => ?_
  split
  · trivial
  · refine MRes.memWf.out ?_ fun _ _ h₂ => State.memWf.clampFlag ?_
    · split
      · exact h₁.partyRelease
      · exact h₁
    · split
      · exact h₂.partyAcquire
      · exact h₂

theorem State.memWf.execFenceFull {p st} (h : s.memWf) : Result.memWf (execFenceFull p st s) :=
  h.scalarFence

theorem State.memWf.execFenceAcq {p st} (h : s.memWf) : Result.memWf (execFenceAcq p st s) :=
  h.scalarFence

theorem State.memWf.execFenceRel {p st} (h : s.memWf) : Result.memWf (execFenceRel p st s) :=
  h.scalarFence

theorem State.memWf.cacheClean {lvl F a n} (h : s.memWf) : (cacheClean lvl F a n s).memWf := by
  unfold Machine.cacheClean
  split
  · exact h
  · exact h.wbL1s
  · split
    next heq => exact (congrArg (onSome State.memWf) heq).mp h.linesHold
    · exact h.wbL1s.wbL2s

theorem State.memWf.cacheDrop {lvl F a n} (h : s.memWf) : (cacheDrop lvl F a n s).memWf := by
  unfold Machine.cacheDrop
  split <;> exact h

theorem State.memWf.cacheRange {wb inv p a b st} (h : s.memWf) :
    Result.memWf (cacheRange wb inv p a b st s) := by
  unfold Machine.cacheRange
  refine h.scalarIssue fun _ _ _ h₁ => ?_
  extract_lets
  split
  · trivial
  · split
    · exact h₁
    · refine MRes.memWf.out ?_ fun _ _ h₂ => ?_
      · split
        · exact h₁.cacheClean
        · exact h₁
      · change State.memWf _
        split
        · exact h₂.cacheDrop
        · exact h₂

theorem State.memWf.execCwb {p a b st} (h : s.memWf) : Result.memWf (execCwb p a b st s) :=
  h.cacheRange

theorem State.memWf.execCinv {p a b st} (h : s.memWf) : Result.memWf (execCinv p a b st s) :=
  h.cacheRange

theorem State.memWf.execCwbi {p a b st} (h : s.memWf) : Result.memWf (execCwbi p a b st s) :=
  h.cacheRange

theorem State.memWf.execPfh {d a b st} (h : s.memWf) : Result.memWf (execPfh d a b st s) := by
  unfold Machine.execPfh
  refine h.scalarIssue fun _ _ _ h₁ => ?_
  extract_lets _ _ _ _ s₁ s₂
  have h₂ : s₁.memWf := by
    unfold s₁
    refine h₁.foldl fun _ _ h₃ => ?_
    split
    extract_lets
    split
    · exact h₃.learn.askFill
    · exact h₃.learn
  have h₄ : s₂.memWf := h₂
  split
  · trivial
  · exact h₄.updSwath

theorem State.memWf.execPfhComplete {fid sw} (h : s.memWf) :
    Result.memWf (execPfhComplete fid sw s) := h.updSwathAt.putCounters

theorem State.memWf.signalStore {F scope va v} (h : s.memWf) :
    (signalStore F s scope va v).memWf := by
  unfold Machine.signalStore
  split
  · exact h.gStore
  · split
    · split
      · exact h
      · trivial
    · extract_lets
      split
      · exact h.gStore.bind fun _ _ h₁ => h₁
      · exact h.scopedStore

theorem State.memWf.execSigrel {p a b st} (h : s.memWf) : Result.memWf (execSigrel p a b st s) := by
  unfold Machine.execSigrel
  refine h.scalarIssue fun _ _ _ h₁ => ?_
  extract_lets
  split
  · exact memWf_misaligned
  · split
    · trivial
    · refine MRes.memWf.out ?_ fun _ _ h₂ => h₂.clampFlag
      split
      · exact h₁.scopedStore
      · exact h₁.signalStore

theorem State.memWf.execSigacq {d a p st} (h : s.memWf) : Result.memWf (execSigacq d a p st s) := by
  unfold Machine.execSigacq
  refine h.scalarIssue fun _ _ _ h₁ => ?_
  extract_lets
  split
  · exact memWf_misaligned
  · split
    · trivial
    · exact h₁.scopedLoad.out fun _ _ h₂ => h₂.partyAcquire

/-! ### The fabric (Machine/Fabric) -/

theorem State.memWf.refuseRequest {detail} (h : s.memWf) : (s.refuseRequest detail).memWf :=
  h.send.heathLog

theorem State.memWf.execUnsupportedFeatureRequest {port} (h : s.memWf) :
    Result.memWf (execUnsupportedFeatureRequest port s) := h.refuseRequest

theorem State.memWf.setDir {line e} (h : s.memWf) : (s.setDir line e).memWf := h

theorem State.memWf.setHalf {line half v} (h : s.memWf) : (s.setHalf line half v).memWf := h.setDir

theorem State.memWf.setUnitDir {unit f} (h : s.memWf) : (s.setUnitDir unit f).memWf :=
  h.foldl fun _ _ h₁ => h₁.setDir

theorem State.memWf.poison {line} (h : s.memWf) : (s.poison line).memWf := by
  unfold State.poison
  split <;> exact h

theorem State.memWf.answerLine {slot addr o n} (h : s.memWf) :
    (s.answerLine slot addr o n).memWf := by
  unfold State.answerLine
  extract_lets _ s₁
  have h₁ : s₁.memWf := by
    unfold s₁
    split
    · exact h.send
    · exact h
  exact h₁.emit

theorem State.memWf.servePeer {slot addr} (h : s.memWf) : (s.servePeer slot addr).memWf := by
  unfold State.servePeer
  extract_lets s₁
  have h₁ : s₁.memWf := by
    unfold s₁
    split
    · exact h
    · exact h.setUnitDir
  exact h₁.answerLine

theorem State.memWf.holdFill {slot addr} (h : s.memWf) : (s.holdFill slot addr).memWf := h

theorem State.memWf.serveHost {addr excl} (h : s.memWf) : (serveHost s addr excl).memWf := by
  unfold Machine.serveHost
  split
  next s₁ heq =>
    have h₁ : s₁.memWf := (congrArg MRes.memWf heq).mp h.pullRecords
    exact h₁.setHalf.answerLine
  next s₁ heq =>
    have h₂ : s₁.memWf := (congrArg MRes.memWf heq).mp h.pullRecords
    exact h₂.holdFill
  · exact h

theorem State.memWf.serveFill {slot addr} (h : s.memWf) : (s.serveFill slot addr).memWf := by
  unfold State.serveFill
  extract_lets
  split
  · exact h.holdFill
  · split
    · exact h
    · split
      · exact h.sendSnoop.holdFill
      · split
        · exact h.serveHost
        · exact h.servePeer

theorem State.memWf.halfWrite {addr data host} (h : s.memWf) :
    (s.halfWrite addr data host).memWf := by
  unfold State.halfWrite
  extract_lets
  split
  next heq =>
    exact (congrArg (onSome State.memWf) heq).mp (onSome_ite (onSome_ite h trivial) h.writeHold)
  · exact h.homeWrite.send

theorem State.memWf.execCxlMemRequest {node addr host write excl} (h : s.memWf) :
    Result.memWf (execCxlMemRequest node addr host write excl s) := by
  unfold Machine.execCxlMemRequest
  refine iteInduction (motive := Result.memWf) (fun _ => h) fun _ => ?_
  split
  · exact h.refuseRequest
  · split
    · exact h.refuseRequest
    · split
      · exact h.refuseRequest
      · split
        · extract_lets
          split
          · exact State.memWf.send h
          · change State.memWf _
            split
            · exact h.halfWrite.setHalf
            · exact h.halfWrite
        · exact h.serveFill

theorem State.memWf.releaseFills {unit} (h : s.memWf) : (s.releaseFills unit).memWf :=
  State.memWf.foldl h (fun _ _ h₁ => h₁.serveFill)

theorem State.memWf.downgrade {unit} (h : s.memWf) : (s.downgrade unit).memWf :=
  h.setUnitDir.releaseFills

theorem State.memWf.snoopUnit {slot unit} (h : s.memWf) : (s.snoopUnit slot unit).memWf :=
  h.foldl fun _ _ h₁ => h₁.emit

theorem State.memWf.startUpgrade {slot unit queued} (h : s.memWf) :
    (s.startUpgrade slot unit queued).memWf := h.foldl fun _ _ h₁ => h₁.snoopUnit

theorem State.memWf.upgradeAnswer {node unit status} (h : s.memWf) :
    (s.upgradeAnswer node unit status).memWf := h.vendor

theorem State.memWf.judgeUpgrades {unit l} (h : s.memWf) : (s.judgeUpgrades unit l).memWf := by
  induction l generalizing s with
  | nil => exact h
  | cons node l ih =>
    unfold State.judgeUpgrades
    split
    · exact h.startUpgrade
    · exact ih h.upgradeAnswer

theorem State.memWf.finishUpgrade {u} (h : s.memWf) : (s.finishUpgrade u).memWf := by
  unfold State.finishUpgrade
  extract_lets s₁ _ s₂
  have h₁ : s₁.memWf := h
  have h₂ : s₂.memWf := by
    unfold s₂
    split
    · exact h₁.setUnitDir
    · exact h₁.setUnitDir.upgradeAnswer
  exact h₂.judgeUpgrades.releaseFills

theorem State.memWf.finishUpgrades (h : s.memWf) : s.finishUpgrades.memWf :=
  h.foldl fun _ _ h₁ => h₁.finishUpgrade

theorem State.memWf.execUpg {node addr} (h : s.memWf) : Result.memWf (execUpg node addr s) := by
  unfold Machine.execUpg
  extract_lets
  split
  · exact h
  · split
    · exact h
    · exact h.judgeUpgrades.finishUpgrades

theorem State.memWf.rebuildDone {w} (h : s.memWf) : (s.rebuildDone w).memWf := by
  unfold State.rebuildDone
  extract_lets s₁ s₂
  have h₁ : s₁.memWf := h
  have h₂ : s₂.memWf := by
    unfold s₂
    split
    · exact h₁
    · exact h₁.foldl fun _ _ h₃ => h₃.homeWrite
    · exact h₁.poison
  exact h₂.setDir.foldl fun _ _ h₄ => h₄.serveFill

theorem State.memWf.rebuildAnswered {line slots} (h : s.memWf) :
    (s.rebuildAnswered line slots).memWf := by
  unfold State.rebuildAnswered
  split
  · exact h
  · extract_lets
    split
    · exact h.rebuildDone
    · exact h

theorem State.memWf.execBirspiblk {slot addr} (h : s.memWf) :
    Result.memWf (execBirspiblk slot addr s) := by
  unfold Machine.execBirspiblk
  extract_lets _ s₁
  have h₁ : s₁.memWf := h
  split
  · exact h
  · split
    · exact h.endSnoop.rebuildAnswered
    · split
      · exact h₁.finishUpgrades
      · split
        · exact h.endSnoop.downgrade
        · exact h

theorem State.memWf.execBisnpinvblk {node addr} (h : s.memWf) :
    Result.memWf (execBisnpinvblk node addr s) := by
  unfold Machine.execBisnpinvblk
  split
  · exact h
  · extract_lets s₁
    have h₁ : s₁.memWf := by
      unfold s₁
      split
      · exact h
      · extract_lets
        split
        · exact h
        · exact h.freeFrame.dropUnit
    exact h₁.emit

theorem State.memWf.execBisnpdata {node addr} (h : s.memWf) :
    Result.memWf (execBisnpdata node addr s) := by
  unfold Machine.execBisnpdata
  split
  · exact h
  · extract_lets s₁
    have h₁ : s₁.memWf := by
      unfold s₁
      split
      · exact h
      · split
        · exact h.setFrame
        · exact h.writeBackFrame.setFrame
        · exact h
    exact h₁.emit

theorem State.memWf.upgraded {f status} (h : s.memWf) : (s.upgraded f status).memWf := by
  unfold State.upgraded
  split
  · exact h.freeFrame.dropUnit
  · split
    · exact h.shedFrame
    · exact h.setFrame

theorem State.memWf.execUpgCmp {addr status} (h : s.memWf) :
    Result.memWf (execUpgCmp addr status s) := by
  unfold Machine.execUpgCmp
  split
  · exact h
  · extract_lets t₁
    have h₁ : t₁.memWf := by
      unfold t₁
      split
      · exact h.upgraded
      · exact h
    exact h₁.endPagerWaits

theorem State.memWf.hostRebuild {line hi dirty} (h : s.memWf) :
    (s.hostRebuild line hi dirty).memWf := State.memWf.rebuildAnswered h

theorem State.memWf.execHostSnoopResponse {line hi inv dirty} (h : s.memWf) :
    Result.memWf (execHostSnoopResponse line hi inv dirty s) := by
  unfold Machine.execHostSnoopResponse
  extract_lets _ _ _ s₁
  have h₁ : s₁.memWf := by
    unfold s₁
    split
    · exact h.endSnoop.homeWrite
    · exact h.endSnoop
  split
  · exact h.hostRebuild
  · split
    · exact h
    · exact h₁.setHalf.releaseFills

theorem State.memWf.dropHostHalves (h : s.memWf) : s.dropHostHalves.memWf :=
  h.foldl fun _ _ h₁ => h₁.poison

theorem State.memWf.rebuildsWithout {slots} (h : s.memWf) : (s.rebuildsWithout slots).memWf :=
  h.foldl fun _ _ h₁ => h₁.rebuildAnswered

theorem State.memWf.hostGone (h : s.memWf) : s.hostGone.memWf :=
  State.memWf.rebuildsWithout (State.memWf.dropHostHalves h)

theorem State.memWf.execHostLinkDown (h : s.memWf) : Result.memWf (execHostLinkDown s) := h.hostGone

theorem State.memWf.purgeSlot {slot} (h : s.memWf) : (s.purgeSlot slot).memWf :=
  h.foldl fun _ _ h₁ => h₁.poison

theorem State.memWf.loseTransfers {node} (h : s.memWf) : (s.loseTransfers node).memWf := by
  unfold State.loseTransfers
  extract_lets
  refine h.foldl fun _ _ h₁ => h₁.foldl fun _ _ h₂ => ?_
  split
  split
  · exact h₂.updSwathAt.endEngine
  · exact h₂

theorem State.memWf.slotDead {slot} (h : s.memWf) : (s.slotDead slot).memWf :=
  State.memWf.foldl (State.memWf.rebuildsWithout (State.memWf.finishUpgrades h.purgeSlot))
    fun _ _ h₁ => h₁.releaseFills

theorem State.memWf.agentDead {node} (h : s.memWf) : (s.agentDead node).memWf := by
  unfold State.agentDead
  extract_lets _ _ _ s₁ s₂
  have h₁ : s₁.memWf := h.fencePorts.heathLog.setNode
  have h₂ : s₂.memWf := by
    unfold s₂
    split
    · exact h₁
    · exact h₁.slotDead
  exact h₂.loseTransfers

theorem State.memWf.execAgentDead {node} (h : s.memWf) : Result.memWf (execAgentDead node s) := by
  unfold Machine.execAgentDead
  split
  · exact h.agentDead
  · exact h

theorem State.memWf.execSnoopTimeout {slot addr} (h : s.memWf) :
    Result.memWf (execSnoopTimeout slot addr s) := by
  unfold Machine.execSnoopTimeout
  split
  · exact h.agentDead
  · split
    · change State.memWf _
      split
      · exact h.hostGone.heathLog
      · exact h.agentDead
    · exact h

theorem State.memWf.execTeaselDirectoryWalk {slot} (h : s.memWf) :
    Result.memWf (execTeaselDirectoryWalk slot s) := by
  unfold Machine.execTeaselDirectoryWalk
  split
  · split
    · exact h.purgeSlot
    · exact h
  · exact h

theorem State.memWf.execHeartbeat (h : s.memWf) : Result.memWf (execHeartbeat s) :=
  h.foldl fun _ _ h₁ => h₁.setNode.emit

theorem State.memWf.execHeartbeatReceive {node} (h : s.memWf) :
    Result.memWf (execHeartbeatReceive node s) := by
  unfold Machine.execHeartbeatReceive
  split
  · exact h
  · exact h.setNode

theorem State.memWf.execPortRetrain {port} (h : s.memWf) :
    Result.memWf (execPortRetrain port s) := by
  unfold Machine.execPortRetrain
  extract_lets
  split
  · exact h
  · exact State.memWf.relive h

theorem State.memWf.askRebuild {line slot} (h : s.memWf) : (s.askRebuild line slot).memWf := by
  unfold State.askRebuild
  split
  · exact h.sendSnoop.sendSnoop
  · exact h.sendSnoop

theorem State.memWf.execDirectoryEccError {line} (h : s.memWf) :
    Result.memWf (execDirectoryEccError line s) := by
  unfold Machine.execDirectoryEccError
  extract_lets _ _ _ _ s₁
  have h₁ : s₁.memWf := h.heathLog.foldl fun _ _ h₂ => h₂.askRebuild
  split
  · exact h.heathLog
  · split
    · exact h.heathLog.setDir
    · change State.memWf _
      split
      · exact h₁.setDir
      · exact h₁

/-! ### Windows (Machine/Windows) -/

theorem State.memWf.winEntry {die ctx num} (h : s.memWf) : onOk sndWf (winEntry s die ctx num) := by
  unfold Machine.winEntry
  extract_lets fresh
  have hfresh : ∀ ws, (fresh ws).2.memWf := fun _ => h.updCtx
  split
  · trivial
  · exact hfresh _
  · split
    · exact h
    · trivial
  · split
    · exact h
    · split
      · exact h.tick
      · exact (hfresh _).tick

theorem State.memWf.setXfer {fid sw x} (h : s.memWf) : (s.setXfer fid sw x).memWf := h.updSwathAt

theorem State.memWf.xferFault {fid sw x r} (h : s.memWf) : (s.xferFault fid sw x r).memWf := by
  unfold State.xferFault
  split
  · split
    · exact h.setXfer.logFault.toServicer
    · exact h.updSwathAt.endEngine
  · exact h

theorem State.memWf.registerImport {c e len} (h : s.memWf) : (s.registerImport c e len).memWf :=
  h.updCtx.foldl fun _ _ h₁ => h₁.updSwathAt

theorem State.memWf.endImport {c e r} (h : s.memWf) : (s.endImport c e r).memWf := by
  unfold State.endImport
  extract_lets
  refine h.updCtx.foldl fun _ _ h₁ => ?_
  split
  split
  · exact h₁.failWait
  · exact h₁

theorem State.memWf.exportFault {va e no} (h : s.memWf) : (exportFault s va e no).memWf := by
  unfold Machine.exportFault
  split
  · exact h
  · split
    · trivial
    · exact h

theorem State.memWf.judgeWreg {pctx expno rd wr key} (h : s.memWf) :
    (judgeWreg s pctx expno rd wr key).memWf := by
  unfold Machine.judgeWreg
  split
  · exact h.exportFault
  · exact h
  · exact h

theorem State.memWf.exportWrite {l} (h : s.memWf) : (exportWrite l s).memWf := by
  induction l generalizing s with
  | nil => exact h
  | cons x l ih =>
    obtain ⟨_ | d, b⟩ := x
    · exact ih h
    · exact h.homePutHold.bind fun _ _ h' => ih h'

theorem State.memWf.exportAccess {pctx expno off write len} (h : s.memWf) :
    (exportAccess s pctx expno off write len).memWf := by
  unfold Machine.exportAccess
  extract_lets
  split
  · exact h.exportFault
  · exact h
  · refine iteInduction (motive := ExportOut.memWf) (fun _ => h) fun _ => ?_
    split
    · exact h.exportFault
    · split
      · exact h
      · split
        next heq => exact (congrArg MRes.memWf heq).mp h.exportWrite
        next heq => exact (congrArg MRes.memWf heq).mp h.exportWrite
        · exact h

theorem State.memWf.stopContext {c} (h : s.memWf) : (s.stopContext c).memWf := h

theorem State.memWf.exportArrival {pctx expno} (h : s.memWf) :
    (exportArrival s pctx expno).memWf := by
  unfold Machine.exportArrival
  extract_lets
  split
  · exact h.exportFault
  · exact h
  · split
    · exact h
    · split
      · exact h.exportFault
      · extract_lets
        split
        · exact h
        · exact h.stopContext
        · split
          next s₁ heq =>
            have h₁ : s₁.memWf := (congrArg MRes.memWf heq).mp h.homePutHold
            extract_lets
            change State.memWf _
            split
            · exact h₁.logEvent.stopContext
            · exact h₁.logEvent
          next heq => exact (congrArg MRes.memWf heq).mp h.homePutHold
          · exact h

theorem State.memWf.runExport {x} (h : s.memWf) : (runExport s x).memWf := by
  unfold Machine.runExport
  split
  · split
    · exact h
    · exact h.judgeWreg
  · split
    · exact h
    · exact h.exportAccess
  · split
    · exact h
    · exact h.exportArrival

theorem State.memWf.answerExport {x r} (h : s.memWf) : (s.answerExport x r).memWf := by
  unfold State.answerExport
  split
  · split
    · exact h.foldl fun _ _ h₁ => h₁.registerImport
    · exact h.foldl fun _ _ h₂ => h₂.endImport
    · exact h.setXfer
    · exact h.setXfer
    · exact h.xferFault
    · exact h
  · split
    · exact h.vendor
    · exact h.vendor
    · exact h.send
    · exact h.send
    · exact h.send

theorem State.memWf.serveExport {x} (h : s.memWf) : (s.serveExport x).memWf := by
  unfold State.serveExport
  extract_lets s₁
  have h₁ : s₁.memWf := h
  split
  next s₂ _ heq =>
    have h₂ : s₂.memWf := (congrArg ExportOut.memWf heq).mp h₁.runExport
    exact h₂.answerExport
  next heq => exact (congrArg ExportOut.memWf heq).mp h₁.runExport
  · exact State.memWf.toServicer h₁

theorem State.memWf.retryExport {uid} (h : s.memWf) : (s.retryExport uid).memWf := by
  unfold State.retryExport
  split
  · split
    · exact h
    · exact h.serveExport
  · exact h

theorem State.memWf.wakeExports (h : s.memWf) : s.wakeExports.memWf := h

theorem State.memWf.askExport {node pctx expno req} (h : s.memWf) :
    (s.askExport node pctx expno req).memWf := State.memWf.serveExport h

theorem State.memWf.execWreg {node pctx expno rd wr key} (h : s.memWf) :
    Result.memWf (execWreg node pctx expno rd wr key s) := by
  unfold Machine.execWreg
  split
  · exact h
  · exact h.askExport

theorem State.memWf.execApertureAccess {node addr write len} (h : s.memWf) :
    Result.memWf (execApertureAccess node addr write len s) := by
  unfold Machine.execApertureAccess
  extract_lets
  split
  · exact h
  · split
    · exact h.send
    · exact h.askExport

theorem State.memWf.execWindowArrivalWrite {node pctx expno} (h : s.memWf) :
    Result.memWf (execWindowArrivalWrite node pctx expno s) := by
  unfold Machine.execWindowArrivalWrite
  split
  · exact h
  · exact h.askExport

theorem State.memWf.xferRead {A fid a i n} (h : s.memWf) : (xferRead A fid a i n s).memWf := by
  induction n generalizing i s with
  | zero => exact h
  | succ n ih => exact h.engGet.bind fun _ _ h₁ => (ih h₁).bind fun _ _ h₂ => h₂

theorem State.memWf.xferWrite {A fid a i l} (h : s.memWf) : (xferWrite A fid a i l s).memWf := by
  induction l generalizing i s with
  | nil => exact h
  | cons b l ih => exact h.engPut.bind fun _ _ h' => ih h'

theorem State.memWf.sendXfer {fid sw f w x} (h : s.memWf) : (s.sendXfer fid sw f w x).memWf := by
  unfold State.sendXfer
  extract_lets _ _ go
  have h₁ : ∀ s x write, s.memWf → (go s x write).memWf := by
    intro _ _ _ h₂
    unfold go
    extract_lets
    split
    · exact h₂.setXfer.serveExport
    · split <;> exact h₂.setXfer.emit
  split
  · exact h.xferFault
  · split
    · exact h.xferFault
    · split
      · split
        next heq => exact (congrArg ERes.memWf heq).mp h.xferRead
        next s₁ heq =>
          have h₄ : s₁.memWf := (congrArg ERes.memWf heq).mp h.xferRead
          exact h₄.xferFault
        next s₁ heq =>
          have h₅ : s₁.memWf := (congrArg ERes.memWf heq).mp h.xferRead
          exact h₁ _ _ _ h₅
      · exact h₁ _ _ _ h

theorem State.memWf.issueXfer {F x} (h : s.memWf) : (s.issueXfer F x).memWf := by
  unfold State.issueXfer
  extract_lets _ s₁
  have h₁ : s₁.memWf := h.updSwath
  split
  · exact h₁.sendXfer
  · exact h₁

theorem State.memWf.askImport {ctx e} (h : s.memWf) : (s.askImport ctx e).memWf := by
  unfold State.askImport
  split
  · exact h
  · extract_lets
    split
    · exact h.updCtx.askExport
    · exact h.updCtx.vendor

theorem State.memWf.awaitImport {ctx num e} (h : s.memWf) : (s.awaitImport ctx num e).memWf := by
  unfold State.awaitImport
  extract_lets
  split
  · split <;> exact h.askImport
  · trivial

theorem State.memWf.windowForm {post a b st} (h : s.memWf) :
    Result.memWf (windowForm post a b st s) := by
  unfold Machine.windowForm
  refine h.scalarIssue fun _ _ _ h₁ => ?_
  split
  extract_lets
  split
  · trivial
  · split
    · trivial
    · split
      · split
        · exact h₁
        · trivial
      next s₁ heq =>
        have h₂ : s₁.memWf := (congrArg (onOk sndWf) heq).mp h₁.winEntry
        split
        · trivial
        · split
          · exact h₂.awaitImport
          · split
            · trivial
            · exact h₂.issueXfer

theorem State.memWf.execWpost {a b st} (h : s.memWf) : Result.memWf (execWpost a b st s) :=
  h.windowForm

theorem State.memWf.execWget {a b st} (h : s.memWf) : Result.memWf (execWget a b st s) :=
  h.windowForm

theorem State.memWf.xferDone {fid sw x} (h : s.memWf) : (s.xferDone fid sw x).memWf :=
  h.setXfer.updSwathAt.putCounters

theorem State.memWf.execWpostComplete {fid sw} (h : s.memWf) :
    Result.memWf (execWpostComplete fid sw s) := by
  unfold Machine.execWpostComplete
  split
  · exact h
  · split
    · exact h
    · split
      · exact h.sendXfer
      · split
        · split
          next heq => exact (congrArg ExportOut.memWf heq).mp h.exportArrival
          · exact h.askExport.xferDone
        · exact h.emit.xferDone
      · exact h

theorem State.memWf.execWgetComplete {fid sw} (h : s.memWf) :
    Result.memWf (execWgetComplete fid sw s) := by
  unfold Machine.execWgetComplete
  split
  · exact h
  · extract_lets
    split
    · exact h
    · split
      · exact h.sendXfer
      · split
        · exact h.xferFault
        · split
          next heq => exact (congrArg ERes.memWf heq).mp h.xferWrite
          next s₁ heq =>
            have h₂ : s₁.memWf := (congrArg ERes.memWf heq).mp h.xferWrite
            exact h₂.xferFault
          next s₁ heq =>
            have h₃ : s₁.memWf := (congrArg ERes.memWf heq).mp h.xferWrite
            exact h₃.setXfer
      · split
        next heq => exact (congrArg (onSome State.memWf) heq).mp h.linesHold
        · exact h.flush.xferDone
      · exact h

theorem State.memWf.execApertureResponse {fid sw ok data} (h : s.memWf) :
    Result.memWf (execApertureResponse fid sw ok data s) := by
  unfold Machine.execApertureResponse
  split
  · exact h
  · split
    · exact h
    · split
      · exact h.xferFault
      · split
        · exact h.setXfer
        · exact h

theorem State.memWf.execWregAck {fid sw len} (h : s.memWf) :
    Result.memWf (execWregAck fid sw len s) := by
  unfold Machine.execWregAck
  split
  · exact h
  · split
    · exact h
    · exact h.registerImport

theorem State.memWf.execWregNak {fid sw} (h : s.memWf) (reason) :
    Result.memWf (execWregNak fid sw reason s) := by
  unfold Machine.execWregNak
  split
  · exact h
  · split
    · exact h
    · exact h.endImport

theorem State.memWf.execWregTimeout {fid sw} (h : s.memWf) :
    Result.memWf (execWregTimeout fid sw s) := by
  unfold Machine.execWregTimeout
  split
  · exact h
  · exact h.agentDead.endImport

theorem State.memWf.execVendorMessageInvalid {kind} (h : s.memWf) :
    Result.memWf (execVendorMessageInvalid kind s) := by
  unfold Machine.execVendorMessageInvalid
  split
  · exact h
  · exact h.heathLog

theorem State.memWf.arrivals {F num} (h : s.memWf) : (arrivals s F num).memWf := by
  unfold Machine.arrivals
  split
  · trivial
  · exact h.loadAt.bind fun _ _ h₁ => h₁

theorem State.memWf.execWcntw {d a b st} (h : s.memWf) : Result.memWf (execWcntw d a b st s) := by
  unfold Machine.execWcntw
  refine h.scalarIssue fun _ _ _ h₁ => ?_
  extract_lets
  split
  · trivial
  · split
    · trivial
    · split
      · split
        · exact h₁
        · trivial
      next s₁ heq =>
        have h₂ : s₁.memWf := (congrArg (onOk sndWf) heq).mp h₁.winEntry
        split
        · trivial
        · refine h₂.arrivals.out fun _ _ h₃ => ?_
          split
          · exact h₃.partyAcquire
          · exact h₃

theorem State.memWf.execWcntwResume {fid sw} (h : s.memWf) :
    Result.memWf (execWcntwResume fid sw s) := by
  unfold Machine.execWcntwResume
  split
  · split
    · split
      · exact h.failWait
      next heq => exact (congrArg MRes.memWf heq).mp h.arrivals
      next s₁ heq =>
        have h₂ : s₁.memWf := (congrArg MRes.memWf heq).mp h.arrivals
        split
        · exact h₂.partyAcquire.endWait
        · exact h₂
    · exact h
  · exact h

/-! ### Traps (Machine/Traps) -/

theorem State.memWf.retryRings {c} (h : s.memWf) : (s.retryRings c).memWf := h.retryRing.retryRing

theorem State.memWf.retryIn {space} (h : s.memWf) : (s.retryIn space).memWf :=
  h.foldl fun _ _ h₁ => h₁.retryRings

theorem State.memWf.execRingWriteRetry {ctx} (h : s.memWf) :
    Result.memWf (execRingWriteRetry ctx s) := h.retryRings

theorem State.memWf.execTrap {c st} (h : s.memWf) : Result.memWf (execTrap c st s) :=
  h.scalarIssue fun _ _ _ _ => trivial

theorem State.memWf.execTrun {a b st} (h : s.memWf) : Result.memWf (execTrun a b st s) := by
  unfold Machine.execTrun
  refine h.scalarIssue fun _ _ _ h₁ => ?_
  extract_lets
  split
  · trivial
  · split
    · trivial
    · split
      · split
        · exact h₁
        · trivial
      · exact h₁.updSwath
      · trivial

theorem State.memWf.execTret {st} (h : s.memWf) : Result.memWf (execTret st s) := by
  unfold Machine.execTret
  refine h.scalarIssue fun _ _ _ h₁ => ?_
  extract_lets
  split
  · trivial
  · split
    · split
      · exact h₁.updSwath
      · exact h₁
    · exact h₁.updSwath

theorem State.memWf.execHandlerEntry {p va} (h : s.memWf) :
    Result.memWf (execHandlerEntry p va s) := by
  unfold Machine.execHandlerEntry
  extract_lets s₁
  have h₁ : s₁.memWf := h
  split
  · split
    · split
      · exact h.scalarFault
      · exact h
    · exact h
  · split
    · split
      · exact h.laneFault
      · exact h
    · exact h
  · exact h

theorem State.memWf.execPendingFaultTaken {fid sw arm} (h : s.memWf) :
    Result.memWf (execPendingFaultTaken fid sw arm s) := by
  unfold Machine.execPendingFaultTaken
  split
  · split
    · exact h.updSwathAt
    · exact h
  · exact h

theorem State.memWf.execRgn {st} (h : s.memWf) : Result.memWf (execRgn st s) :=
  h.scalarIssue fun _ _ _ h₁ => h₁.updSwath

theorem State.memWf.execPark {st} (h : s.memWf) : Result.memWf (execPark st s) := by
  unfold Machine.execPark
  refine h.scalarIssue fun _ _ _ h₁ => ?_
  split
  · trivial
  · extract_lets
    split
    · exact h₁
    · exact h₁.updField
    · exact h₁.updSwath.park

theorem State.memWf.execParkTerm {st} (h : s.memWf) : Result.memWf (execParkTerm st s) := by
  unfold Machine.execParkTerm
  refine h.scalarIssue fun _ _ _ h₁ => ?_
  split
  · trivial
  · extract_lets
    split
    · exact h₁.updSwath
    · exact h₁.updSwath.terminal

theorem State.memWf.execMapft {d a st} (h : s.memWf) : Result.memWf (execMapft d a st s) := by
  unfold Machine.execMapft
  refine h.scalarIssue fun _ _ _ h₁ => ?_
  split
  · trivial
  · split
    · split
      · exact h₁
      · trivial
    next heq => exact (congrArg (onOk sndWf) heq).mp h₁.bindAt

theorem State.memWf.forget {c a n} (h : s.memWf) : (s.forget c a n).memWf := h

theorem State.memWf.invalidate {c a n} (h : s.memWf) : (invalidate s c a n).memWf := by
  unfold Machine.invalidate
  split
  next heq => exact (congrArg (onSome State.memWf) heq).mp h.linesHold
  · exact h.forget.flush

theorem State.memWf.dropWins {cs} (h : s.memWf) : (s.dropWins cs).memWf := h

theorem State.memWf.execTlbiR {d a b st} (h : s.memWf) : Result.memWf (execTlbiR d a b st s) := by
  unfold Machine.execTlbiR
  refine h.scalarIssue fun _ _ _ h₁ => ?_
  extract_lets
  split
  · trivial
  · split
    · trivial
    · split
      · exact h₁
      · exact h₁.invalidate.out fun _ _ h₂ => h₂.retryIn

theorem State.memWf.execTlbiCtx {d st} (h : s.memWf) : Result.memWf (execTlbiCtx d st s) := by
  unfold Machine.execTlbiCtx
  refine h.scalarIssue fun _ _ _ h₁ => ?_
  extract_lets
  split
  · trivial
  · exact h₁.invalidate.out fun _ _ h₂ => h₂.dropWins.retryIn

theorem State.memWf.execBrkpt {c st} (h : s.memWf) : Result.memWf (execBrkpt c st s) := by
  unfold Machine.execBrkpt
  refine h.scalarIssue fun _ _ _ h₁ => ?_
  split
  · exact h₁.updField
  · exact h₁

theorem memWf_contentDone {d} {x : State × CRes} (hx : fstWf x) : (contentDone d x).memWf := hx

/-! ### The content store (Machine/Content) -/

theorem State.memWf.readLine {F va i n} (h : s.memWf) : (readLine F va i n s).memWf := by
  induction n generalizing i s with
  | zero => exact h
  | succ n ih => exact h.gLoad.bind fun _ _ h₁ => (ih h₁).bind fun _ _ h₂ => h₂

theorem State.memWf.lineForm {d a b st} {act : State → Nat → BitVec 1024 → Except Cause (MRes CRes)}
    (h : s.memWf) (hact : ∀ s x y, s.memWf → onOk MRes.memWf (act s x y)) :
    Result.memWf (lineForm d a b st act s) := by
  unfold Machine.lineForm
  refine h.scalarIssue fun _ _ _ h₁ => ?_
  extract_lets
  split
  · trivial
  · split
    · trivial
    · refine h₁.readLine.out fun _ _ h₂ => ?_
      split
      · trivial
      next x₁ heq =>
        have h₃ : x₁.memWf := (congrArg (onOk MRes.memWf) heq).mp (hact _ _ _ h₂)
        exact h₃.out fun _ _ h₄ => memWf_contentDone h₄

theorem State.memWf.insertLeaf {id line} (h : s.memWf) :
    onOk MRes.memWf (insertLeaf s id line) := by
  unfold Machine.insertLeaf
  change MRes.memWf _
  split
  · exact h
  · exact h.insertLine

theorem State.memWf.dropAll {id ns} (h : s.memWf) : (s.dropAll id ns).memWf :=
  h.foldl fun _ _ h₁ => h₁.dropRef

theorem State.memWf.insertNode {id line} (h : s.memWf) :
    onOk MRes.memWf (insertNode s id line) := by
  unfold Machine.insertNode
  extract_lets
  split
  · trivial
  · split
    · exact h
    · split
      · exact h
      · split
        · trivial
        · extract_lets _ t₁
          have h₁ : t₁.memWf := h.foldl fun _ _ h₂ => h₂.gainRef
          split
          · exact h₁.dropAll
          · change MRes.memWf _
            split
            next t₂ heq =>
              have h₃ : t₂.memWf := (congrArg MRes.memWf heq).mp h₁.insertLine
              change State.memWf _
              split
              · exact h₃
              · exact h₃.dropAll
            next t₂ heq =>
              have h₄ : t₂.memWf := (congrArg MRes.memWf heq).mp h₁.insertLine
              exact h₄.dropAll
            · trivial

theorem State.memWf.execCins {d a b st} (h : s.memWf) : Result.memWf (execCins d a b st s) :=
  h.lineForm fun _ _ _ h₁ => h₁.insertLeaf

theorem State.memWf.execCnode {d a b st} (h : s.memWf) : Result.memWf (execCnode d a b st s) :=
  h.lineForm fun _ _ _ h₁ => h₁.insertNode

theorem State.memWf.lookedUp {F id n} {k : SOut} (h : s.memWf) (hk : k.memWf) :
    (lookedUp s F id n k).memWf := by
  unfold Machine.lookedUp
  split
  · split
    · exact h
    · trivial
  · exact hk

theorem State.memWf.nameForm {d a b st ends follower}
    {act : State → Nat → BitVec 128 → State × CRes} (h : s.memWf)
    (hact : ∀ s x y, s.memWf → fstWf (act s x y)) :
    Result.memWf (nameForm d a b st ends follower act s) := by
  unfold Machine.nameForm
  refine h.scalarIssue fun _ _ _ h₁ => ?_
  extract_lets
  split
  · trivial
  · exact h₁.lookedUp (memWf_contentDone (hact _ _ _ h₁))

theorem State.memWf.onPresent {id n} {act : State × CRes} (h : s.memWf) (hact : fstWf act) :
    fstWf (onPresent s id n act) := by
  unfold Machine.onPresent
  split
  · exact h
  · split
    · exact h
    · split
      · exact h
      · exact hact

theorem State.memWf.refName {id n} (h : s.memWf) : fstWf (refName s id n) := h.onPresent h.gainRef

theorem State.memWf.unrefName {id n} (h : s.memWf) : fstWf (unrefName s id n) := by
  unfold Machine.unrefName
  extract_lets
  refine h.onPresent ?_
  split
  · exact h
  · exact h.dropRef

theorem State.memWf.statName {id n} (h : s.memWf) : fstWf (statName s id n) := h.onPresent h

theorem State.memWf.execCref {d a b st} (h : s.memWf) : Result.memWf (execCref d a b st s) :=
  h.nameForm fun _ _ _ h₁ => h₁.refName

theorem State.memWf.execCunref {d a b st} (h : s.memWf) : Result.memWf (execCunref d a b st s) :=
  h.nameForm fun _ _ _ h₁ => h₁.unrefName

theorem State.memWf.execCstat {d a b st} (h : s.memWf) : Result.memWf (execCstat d a b st s) :=
  h.nameForm fun _ _ _ h₁ => h₁.statName

theorem State.memWf.swapRoot {F id va expected new} (h : s.memWf) :
    (swapRoot F s id va expected new).memWf := by
  unfold Machine.swapRoot
  split
  · trivial
  · refine h.partyRelease.bind fun _ _ h₁ => ?_
    split
    · exact h₁.partyAcquire
    · split
      · extract_lets s₁
        have h₂ : s₁.memWf := by
          unfold s₁
          split
          · exact h₁.gainRef.dropRef
          · exact h₁
        exact h₂.partyAcquire
      · refine h₁.gAtomic.bind fun _ _ h₃ => ?_
        extract_lets
        split <;> exact h₃.gainRef.dropRef.partyAcquire

theorem State.memWf.execCswap {d a b st} (h : s.memWf) : Result.memWf (execCswap d a b st s) := by
  unfold Machine.execCswap
  refine h.scalarIssue fun _ _ _ h₁ => ?_
  split
  extract_lets
  split
  · trivial
  · split
    · trivial
    · split
      · trivial
      · split
        · split
          · exact h₁
          · trivial
        · exact h₁.swapRoot.out fun _ _ h₂ => memWf_contentDone h₂

theorem State.memWf.execCbind {d a b st} (h : s.memWf) : Result.memWf (execCbind d a b st s) := by
  unfold Machine.execCbind
  refine h.scalarIssue fun _ _ _ h₁ => ?_
  split
  extract_lets _ _ _ _ _ _ res _ _ s₁
  have h₂ : ∀ s status, s.memWf → (res s status).memWf := by
    intro _ _ h₃
    unfold res
    exact memWf_contentDone h₃
  have h₄ : s₁.memWf := h₁
  split
  · trivial
  · split
    · trivial
    · split
      · refine h₁.lookedUp ?_
        split
        · exact h₂ _ _ h₁
        · split
          · exact h₂ _ _ h₁
          · split
            · exact h₂ _ _ h₁
            · split
              · exact h₂ _ _ h₁
              · exact h₂ _ _ h₄.gainRef
      · trivial

theorem State.memWf.unbind {ctx b} (h : s.memWf) : (s.unbind ctx b).memWf :=
  h.invalidate.bind fun _ _ h₁ => h₁.updCtx.dropRef

theorem State.memWf.execCunbind {d a st} (h : s.memWf) : Result.memWf (execCunbind d a st s) := by
  unfold Machine.execCunbind
  refine h.scalarIssue fun _ _ _ h₁ => ?_
  split
  · exact memWf_contentDone h₁
  · exact h₁.lookedUp (h₁.unbind.out fun _ _ h₂ => memWf_contentDone h₂)

theorem State.memWf.startCopy {F t} (h : s.memWf) : (s.startCopy F t).memWf := h.startChain

theorem State.memWf.execCcopy {d a b st} (h : s.memWf) : Result.memWf (execCcopy d a b st s) := by
  unfold Machine.execCcopy
  refine h.scalarIssue fun _ _ _ h₁ => ?_
  split
  extract_lets
  split
  · trivial
  · split
    · trivial
    · split
      · trivial
      · refine h₁.lookedUp ?_
        split
        · exact memWf_contentDone h₁
        · exact memWf_contentDone h₁.gainRef.startCopy

theorem State.memWf.putLine {A fid va line i n} (h : s.memWf) :
    (putLine A fid va line i n s).memWf := by
  induction n generalizing i s with
  | zero => exact h
  | succ n ih => exact h.engPut.bind fun _ _ h' => ih h'

theorem State.memWf.execCcopyComplete {fid sw chain} (h : s.memWf) :
    Result.memWf (execCcopyComplete fid sw chain s) := by
  unfold Machine.execCcopyComplete
  split
  · exact h
  · split
    · exact h
    · extract_lets
      split
      · exact h.chainFault
      · split
        · split
          · exact h
          · exact h.chainFault
        · extract_lets r₁
          have h₁ : r₁.memWf := by
            unfold r₁
            refine h.putLine.bind fun _ _ h₂ => ?_
            extract_lets s₁
            have h₃ : s₁.memWf := by
              unfold s₁
              split
              · exact h₂.dropRef
              · exact h₂
            exact h₃
          exact h₁.chainEnd

theorem State.memWf.execContentReclaim {region} (h : s.memWf) :
    Result.memWf (execContentReclaim region s) := by
  unfold Machine.execContentReclaim
  split
  · split
    · exact State.memWf.getD h.reclaimOne h.reclaimHold
    · exact h
  · exact h

theorem State.memWf.zeroRange {dpa n} (h : s.memWf) : (s.zeroRange dpa n).memWf :=
  h.foldl fun _ _ h₁ => h₁.clearAt

theorem State.memWf.zeroHold {dpa n} (h : s.memWf) : onSome State.memWf (zeroHold s dpa n) :=
  h.storesHold

theorem State.memWf.answerRegion {id} (h : s.memWf) : (s.answerRegion id).memWf := h.reply

theorem State.memWf.execRegionCreate {via id capk owner store home follow} (h : s.memWf) :
    Result.memWf (execRegionCreate via id capk owner store home follow s) := by
  unfold Machine.execRegionCreate
  refine h.managed ?_
  extract_lets _ make
  have h₁ : ∀ s, s.memWf → Result.memWf (make s) := by
    intro _ h₂
    unfold make
    exact h₂.setRegion.answerRegion
  split
  · exact h.answerRegion
  · split
    · split
      next heq => exact (congrArg (onSome State.memWf) heq).mp h.zeroHold
      · exact h₁ _ h.zeroRange
    · exact h₁ _ h

theorem State.memWf.endCopies {id} (h : s.memWf) : (s.endCopies id).memWf := by
  unfold State.endCopies
  refine h.foldl fun _ _ h₁ => h₁.foldl fun _ _ h₂ => ?_
  split
  split
  · split
    · exact h₂
    · exact h₂.updSwathAt.endEngine
  · exact h₂

theorem State.memWf.unbindNow {ctx b} (h : s.memWf) : (s.unbindNow ctx b).memWf := by
  unfold State.unbindNow
  extract_lets _ _ s₁
  have h₁ : s₁.memWf := by
    unfold s₁
    split
    next heq => exact (congrArg MRes.memWf heq).mp h.invalidate
    · exact h
  exact h₁.updCtx.dropRef

theorem State.memWf.unbindRegion {id} (h : s.memWf) : (s.unbindRegion id).memWf :=
  h.foldl fun _ _ h₁ => h₁.foldl fun _ _ h₂ => h₂.unbindNow

theorem State.memWf.execRegionDestroy {via id} (h : s.memWf) :
    Result.memWf (execRegionDestroy via id s) := by
  unfold Machine.execRegionDestroy
  refine h.managed ?_
  split
  · split
    · exact h.setRegion.unbindRegion.endCopies.answerRegion
    · exact h.answerRegion
  · exact h.answerRegion

theorem State.memWf.execRegionScrubComplete {region} (h : s.memWf) :
    Result.memWf (execRegionScrubComplete region s) := by
  unfold Machine.execRegionScrubComplete
  split
  · split
    · extract_lets _ free
      have h₁ : ∀ s, s.memWf → Result.memWf (free s) := by
        intro _ h₂
        unfold free
        exact h₂
      split
      · exact h₁ _ h
      · split
        next heq => exact (congrArg (onSome State.memWf) heq).mp h.zeroHold
        · exact h₁ _ h.zeroRange
    · exact h
  · exact h

theorem memWf_swathCaller {F} : (swathCaller F).memWf :=
  ⟨fun _ _ h => h.gLoad.bind fun _ _ h' => h', fun _ _ _ h => h.plainStore⟩

theorem memWf_dpaCaller : dpaCaller.memWf := by
  constructor
  · intro va s h
    simp only [dpaCaller]
    split
    · exact h
    · split
      · exact h
      · trivial
  · intro va v s h
    simp only [dpaCaller]
    split
    · exact h.homePutHold
    · split
      · exact h
      · trivial

/-! ### Contexts (Machine/Context) -/

theorem MRes.memWf.ctx {α : Type} {r : MRes α} {va} {k : α → State → CtxOut} (h : r.memWf)
    (hk : ∀ x s, s.memWf → (k x s).memWf) :
    (r.ctx va k).memWf := by
  unfold MRes.ctx
  split
  · exact hk _ _ h
  · trivial
  · exact h

theorem State.memWf.rds {c : Caller} {va n} (h : s.memWf) (hc : c.memWf) :
    (c.rds va n s).memWf := by
  induction n generalizing va s with
  | zero => exact h
  | succ n ih => exact (hc.1 _ _ h).bind fun _ _ h₁ => (ih h₁).bind fun _ _ h₂ => h₂

theorem State.memWf.wrs {c : Caller} {va l} (h : s.memWf) (hc : c.memWf) :
    (c.wrs va l s).memWf := by
  induction l generalizing va s with
  | nil => exact h
  | cons v l ih => exact (hc.2 _ _ _ h).bind fun _ _ h' => ih h'

theorem State.memWf.status {k} (h : s.memWf) : (CtxOut.status s k).memWf := h

theorem State.memWf.withDescriptor {c : Caller} {va n ok} {k : List W64 → State → CtxOut}
    (h : s.memWf) (hc : c.memWf) (hk : ∀ x s, s.memWf → (k x s).memWf) :
    (withDescriptor c va n ok s k).memWf := by
  unfold Machine.withDescriptor
  split
  · trivial
  · split
    · trivial
    · refine (h.rds hc).ctx fun _ _ h₁ => ?_
      split
      · exact hk _ _ h₁
      · trivial

theorem State.memWf.ctxNew {c : Caller} {va} (h : s.memWf) (hc : c.memWf) :
    (ctxNew c va s).memWf := by
  unfold Machine.ctxNew
  refine h.withDescriptor hc fun _ _ h₁ => ?_
  split
  · exact h₁.status
  · extract_lets _ _ s₁
    have h₂ : s₁.memWf := by
      unfold s₁
      split <;> exact h₁
    split
    · exact h₁.status
    · split
      · exact h₁.status
      · split
        · exact h₁.status
        · split
          · exact h₂
          · exact h₁.status

theorem State.memWf.markUnits {key ps} (h : s.memWf) : (s.markUnits key ps).memWf := by
  unfold State.markUnits
  split <;> exact h

theorem State.memWf.addGrant {child g ps} (h : s.memWf) : (s.addGrant child g ps).memWf := h.updCtx

theorem State.memWf.ctxGrant {c : Caller} {idv va} (h : s.memWf) (hc : c.memWf) :
    (ctxGrant c idv va s).memWf := by
  unfold Machine.ctxGrant
  split
  · trivial
  · refine h.withDescriptor hc fun _ _ h₁ => ?_
    extract_lets
    split
    · exact h₁.status
    · extract_lets give
      have h₂ : ∀ kind ps, (give kind ps).memWf := by
        intro _ _
        unfold give
        split
        · exact h₁.status
        · exact h₁.addGrant.markUnits.retryIn
      clear_value give
      split
      · split
        · exact h₂ _ _
        · exact h₁.status
      · split
        · exact h₂ _ _
        · exact h₁.status
      · split
        · exact h₁.status
        · exact h₂ _ _
      · split
        · exact h₂ _ _
        · exact h₁.status

theorem State.memWf.evictDisplaced (h : s.memWf) : s.evictDisplaced.memWf :=
  h.foldl fun _ _ h₁ => h₁.swapGroup

theorem State.memWf.revokeHold {cs} (h : s.memWf) : onSome State.memWf (revokeHold s cs) :=
  h.linesHold

theorem State.memWf.revokeEngines {ctx gone} (h : s.memWf) : (s.revokeEngines ctx gone).memWf := h

theorem State.memWf.releaseLocal (h : s.memWf) : s.releaseLocal.memWf :=
  h.foldl fun _ _ h₁ => h₁.scrubLocal

theorem State.memWf.loseRanges {p c} (h : s.memWf) : (s.loseRanges p c).memWf :=
  h.forget.dropWins.flush.revokeEngines.updCtx

theorem State.memWf.removeFrom {cs p} (h : s.memWf) : (removeFrom s cs p).memWf := by
  unfold Machine.removeFrom
  split
  next heq => exact (congrArg (onSome State.memWf) heq).mp h.revokeHold
  · exact h.foldl fun _ _ h₂ => h₂.loseRanges

theorem State.memWf.removeRanges {p} (h : s.memWf) : (removeRanges s p).memWf :=
  h.removeFrom.bind fun _ _ h₁ => h₁.releaseLocal

theorem State.memWf.dropGrants {root p} (h : s.memWf) : (s.dropGrants root p).memWf := h

theorem State.memWf.unbindQueues {root p} (h : s.memWf) : (s.unbindQueues root p).memWf := h

theorem State.memWf.revokeGrant {child g} (h : s.memWf) : (revokeGrant s child g).memWf := by
  unfold Machine.revokeGrant
  extract_lets
  split
  · exact h.updCtx.removeRanges
  · exact h.updCtx.dropGrants.unbindQueues
  · exact h.updCtx.dropGrants

theorem State.memWf.ctxRevoke {c : Caller} {idv gid} (h : s.memWf) (_ : c.memWf) :
    (ctxRevoke c idv gid s).memWf := by
  unfold Machine.ctxRevoke
  split
  · trivial
  · split
    · trivial
    · extract_lets
      split
      · exact h.status
      · split
        · exact h.status
        · split
          next s₁ heq =>
            have h₁ : s₁.memWf := (congrArg MRes.memWf heq).mp h.revokeGrant
            exact h₁.retryIn.status
          next s₁ heq =>
            have h₂ : s₁.memWf := (congrArg MRes.memWf heq).mp h.revokeGrant
            exact State.memWf.getD h h.revokeHold
          · trivial

theorem State.memWf.ctxBudg {c : Caller} {idv va} (h : s.memWf) (hc : c.memWf) :
    (ctxBudg c idv va s).memWf := by
  unfold Machine.ctxBudg
  split
  · trivial
  · refine h.withDescriptor hc fun _ _ h₁ => ?_
    extract_lets
    split
    · exact h₁.status
    · extract_lets
      split
      · exact h₁.status
      · split
        · exact h₁.status
        · split
          · exact h₁.status
          · exact h₁.updCtx.status

theorem State.memWf.ctxQ {c : Caller} {idv qw} (h : s.memWf) (_ : c.memWf) :
    (ctxQ c idv qw s).memWf := by
  unfold Machine.ctxQ
  split
  · trivial
  · extract_lets
    split
    · trivial
    · split
      · exact h.status
      · split
        · exact State.memWf.status h
        · split
          · exact h.status
          · split
            · exact h.status
            · exact State.memWf.status h

theorem State.memWf.ctxInfo {c : Caller} {idv item va} (h : s.memWf) (hc : c.memWf) :
    (ctxInfo c idv item va s).memWf := by
  unfold Machine.ctxInfo
  split
  · trivial
  · extract_lets
    split
    · trivial
    · split
      · trivial
      · exact (h.wrs hc).ctx fun _ _ h₁ => h₁

theorem State.memWf.stopFields {cs} (h : s.memWf) : (s.stopFields cs).memWf := by
  unfold State.stopFields
  extract_lets s₁ idle
  have h₁ : s₁.memWf := by
    refine h.foldl fun s x h => ?_
    split
    extract_lets g s₂
    have h₂ : s₂.memWf := by
      unfold s₂
      split
      · exact h
      · split
        · exact h
        · split
          next t heq => exact (congrArg (onOk State.memWf) heq).mp h.storeSlot
          · exact h
    exact h₂
  exact h₁

theorem State.memWf.scrubMarked {units} (h : s.memWf) : (s.scrubMarked units).memWf := by
  unfold State.scrubMarked
  refine h.foldl fun s u h => ?_
  extract_lets s₁
  have h₁ : s₁.memWf := h.dropUnit
  split
  · exact (h₁.withMem (Mem.wf_zero _ _ _ h₁.1)).freeFrame
  · exact h₁

theorem State.memWf.dropBindings {c} (h : s.memWf) : (s.dropBindings c).memWf :=
  h.updCtx.foldl fun _ _ h₁ => h₁.dropRef

theorem State.memWf.dropCopies {cs} (h : s.memWf) : (s.dropCopies cs).memWf :=
  h.foldl fun _ _ h₁ => h₁.foldl fun _ _ h₂ => h₂.foldl fun _ _ h₃ => h₃.dropCopyRef

theorem State.memWf.beginScrub {child cs} (h : s.memWf) : (s.beginScrub child cs).memWf :=
  State.memWf.updCtx h.scrubMarked

theorem State.memWf.killSubtree {child} (h : s.memWf) : (killSubtree s child).memWf := by
  unfold Machine.killSubtree
  extract_lets
  split
  next heq => exact (congrArg (onSome State.memWf) heq).mp h.revokeHold
  · exact h.dropCopies.stopFields.removeFrom.bind fun _ _ h₂ =>
      (h₂.unbindQueues.foldl fun _ _ h₃ => h₃.dropBindings).beginScrub

theorem State.memWf.ctxKill {c : Caller} {idv} (h : s.memWf) (_ : c.memWf) :
    (ctxKill c idv s).memWf := by
  unfold Machine.ctxKill
  split
  · trivial
  · split
    · trivial
    · split
      · exact h.status
      · exact h.killSubtree.ctx fun _ _ h₁ => h₁.status

theorem State.memWf.execContextScrubUnit {ctx} (h : s.memWf) :
    Result.memWf (execContextScrubUnit ctx s) := by
  unfold Machine.execContextScrubUnit
  split
  · split
    · exact h
    · extract_lets s₁
      have h₁ : s₁.memWf := by
        unfold s₁
        split
        · exact h.scrubLocal
        · exact h
      exact h₁.updCtx
  · exact h

theorem State.memWf.execContextScrubComplete {ctx} (h : s.memWf) :
    Result.memWf (execContextScrubComplete ctx s) := by
  unfold Machine.execContextScrubComplete
  (repeat' split) <;> exact h

theorem State.memWf.deliver {w words} (h : s.memWf) : (s.deliver w words).memWf := by
  unfold State.deliver
  extract_lets push
  have h₁ : ∀ s fid, s.memWf → (push s fid).memWf := by
    intro _ _ h₂
    unfold push
    split
    · exact h₂
    · split
      · exact h₂
      · exact h₂.faultField.ringPush
  split
  · exact h₁ _ _ h.updSwathAt
  · exact h₁ _ _ h.dropCopyRef.updSwathAt
  · exact h₁ _ _ h.updSwathAt
  · exact h.endRequester

theorem State.memWf.releaseSlot {fid} (h : s.memWf) : (s.releaseSlot fid).memWf := by
  unfold State.releaseSlot
  split
  · exact h
  · exact h.slotPut.endField

theorem State.memWf.rflt {c : Caller} {va action} (h : s.memWf) (hc : c.memWf) :
    (rflt c va action s).memWf := by
  unfold Machine.rflt
  split
  · trivial
  · split
    · trivial
    · refine (h.rds hc).ctx fun _ _ h₁ => ?_
      extract_lets _ _ _ _ _ _ s₁
      have h₂ : s₁.memWf := h₁
      split
      · trivial
      · split
        · trivial
        · split
          · split
            · exact h₁.status
            · exact h₁.ringPush.status
          · split
            · exact h₁.status
            · exact h₁.releaseSlot.status
          · split
            · exact h₁.status
            · refine State.memWf.status ?_
              split
              · exact h₂.wake
              · exact h₂.deliver

theorem State.memWf.contextForm {st d srcs ends} {act : Caller → Swath → State → CtxOut}
    (h : s.memWf) (hact : ∀ r x s, r.memWf → s.memWf → (act r x s).memWf) :
    Result.memWf (contextForm st d srcs ends act s) := by
  unfold Machine.contextForm
  split
  next t heq =>
    refine State.memWf.evictDisplaced
      ((congrArg Result.memWf heq).mp (h.scalarIssue fun F w s h => ?_))
    have hs : (act (swathCaller F) w s).memWf := hact _ _ _ memWf_swathCaller h
    split
    · trivial
    next heq => exact (congrArg CtxOut.memWf heq).mp hs
    next heq => exact (congrArg CtxOut.memWf heq).mp hs
  · trivial
  · trivial

theorem State.memWf.execCtxnew {d a st} (h : s.memWf) : Result.memWf (execCtxnew d a st s) :=
  h.contextForm fun _ _ _ h₁ h₂ => h₂.ctxNew h₁

theorem State.memWf.execCtxgrant {d a b st} (h : s.memWf) :
    Result.memWf (execCtxgrant d a b st s) := h.contextForm fun _ _ _ h₁ h₂ => h₂.ctxGrant h₁

theorem State.memWf.execCtxrevoke {d a b st} (h : s.memWf) :
    Result.memWf (execCtxrevoke d a b st s) := h.contextForm fun _ _ _ h₁ h₂ => h₂.ctxRevoke h₁

theorem State.memWf.execCtxbudg {d a b st} (h : s.memWf) : Result.memWf (execCtxbudg d a b st s) :=
  h.contextForm fun _ _ _ h₁ h₂ => h₂.ctxBudg h₁

theorem State.memWf.execCtxq {d a b st} (h : s.memWf) : Result.memWf (execCtxq d a b st s) :=
  h.contextForm fun _ _ _ h₁ h₂ => h₂.ctxQ h₁

theorem State.memWf.execCtxinfo {d a b st} (h : s.memWf) : Result.memWf (execCtxinfo d a b st s) :=
  h.contextForm fun _ _ _ h₁ h₂ => h₂.ctxInfo h₁

theorem State.memWf.execCtxkill {d a st} (h : s.memWf) : Result.memWf (execCtxkill d a st s) :=
  h.contextForm fun _ _ _ h₁ h₂ => h₂.ctxKill h₁

theorem State.memWf.execRflt {d a b st} (h : s.memWf) : Result.memWf (execRflt d a b st s) :=
  h.contextForm fun _ _ _ h₁ h₂ => h₂.rflt h₁

/-! ### Fetch (Machine/Fetch) -/

theorem State.memWf.fetchScalar {F w off} (h : s.memWf) : (fetchScalar s F w off).memWf := by
  unfold Machine.fetchScalar
  extract_lets
  split
  · split
    · split
      · trivial
      · exact h
    · trivial
  · split
    next heq => exact (congrArg MRes.memWf heq).mp h.fetchWord
    · trivial
    next heq => exact (congrArg MRes.memWf heq).mp h.fetchWord

theorem State.memWf.laneWordPart {F base i} (h : s.memWf) : (laneWordPart s F base i).memWf := by
  unfold Machine.laneWordPart
  extract_lets
  split
  next heq => exact (congrArg MRes.memWf heq).mp h.fetchWord
  · trivial
  next heq => exact (congrArg MRes.memWf heq).mp h.fetchWord

theorem State.memWf.fetchLane {F pc} (h : s.memWf) : (fetchLane s F pc).memWf := by
  unfold Machine.fetchLane
  split
  · trivial
  · split
    · trivial
    · extract_lets
      split
      · trivial
      next heq => exact (congrArg Fetched.memWf heq).mp h.laneWordPart
      next s₁ heq =>
        have h₂ : s₁.memWf := (congrArg Fetched.memWf heq).mp h.laneWordPart
        split
        · trivial
        next s₂ heq₁ =>
          have h₃ : s₂.memWf := (congrArg Fetched.memWf heq₁).mp h₂.laneWordPart
          exact h₃
        next s₂ heq₁ =>
          have h₄ : s₂.memWf := (congrArg Fetched.memWf heq₁).mp h₂.laneWordPart
          split
          · trivial
          next s₃ heq₂ =>
            have h₅ : s₃.memWf := (congrArg Fetched.memWf heq₂).mp h₄.laneWordPart
            exact h₅
          next s₃ heq₂ =>
            have h₆ : s₃.memWf := (congrArg Fetched.memWf heq₂).mp h₄.laneWordPart
            exact h₆

/-! ### Lane integer instructions (Machine/LaneInt) -/

theorem State.memWf.laneBin {o lat f} (h : s.memWf) : Result.memWf (laneBin o lat f s) := h.laneElem

theorem State.memWf.laneTern {o lat f} (h : s.memWf) : Result.memWf (laneTern o lat f s) :=
  h.laneElem

theorem State.memWf.laneUn {o lat f} (h : s.memWf) : Result.memWf (laneUn o lat f s) := h.laneElem

theorem State.memWf.execIadd {o} (h : s.memWf) : Result.memWf (execIadd o s) := h.laneBin

theorem State.memWf.execIsub {o} (h : s.memWf) : Result.memWf (execIsub o s) := h.laneBin

theorem State.memWf.execImul {o} (h : s.memWf) : Result.memWf (execImul o s) := h.laneBin

theorem State.memWf.execImulh {o} (h : s.memWf) : Result.memWf (execImulh o s) := h.laneBin

theorem State.memWf.execImad {o} (h : s.memWf) : Result.memWf (execImad o s) := h.laneTern

theorem State.memWf.execIdiv {o} (h : s.memWf) : Result.memWf (execIdiv o s) := h.laneBin

theorem State.memWf.execIrem {o} (h : s.memWf) : Result.memWf (execIrem o s) := h.laneBin

theorem State.memWf.execImin {o} (h : s.memWf) : Result.memWf (execImin o s) := h.laneBin

theorem State.memWf.execImax {o} (h : s.memWf) : Result.memWf (execImax o s) := h.laneBin

theorem State.memWf.execLaneAnd {o} (h : s.memWf) : Result.memWf (execLaneAnd o s) := h.laneBin

theorem State.memWf.execLaneOr {o} (h : s.memWf) : Result.memWf (execLaneOr o s) := h.laneBin

theorem State.memWf.execLaneXor {o} (h : s.memWf) : Result.memWf (execLaneXor o s) := h.laneBin

theorem State.memWf.execLaneShl {o} (h : s.memWf) : Result.memWf (execLaneShl o s) := h.laneBin

theorem State.memWf.execLaneShr {o} (h : s.memWf) : Result.memWf (execLaneShr o s) := h.laneBin

theorem State.memWf.execBfe {o} (h : s.memWf) : Result.memWf (execBfe o s) := h.laneBin

theorem State.memWf.execBfi {o} (h : s.memWf) : Result.memWf (execBfi o s) := h.laneTern

theorem State.memWf.execLanePopc {o} (h : s.memWf) : Result.memWf (execLanePopc o s) := h.laneUn

theorem State.memWf.execLaneClz {o} (h : s.memWf) : Result.memWf (execLaneClz o s) := h.laneUn

theorem State.memWf.lanePred {hd lat reads kd f} (h : s.memWf) :
    Result.memWf (lanePred hd lat reads kd f s) := h.laneIssue fun _ _ _ _ _ h₁ => h₁.updSwath

theorem State.memWf.execIsetp {o} (h : s.memWf) : Result.memWf (execIsetp o s) := h.lanePred

/-! ### Lane floating point (Machine/LaneFp) -/

theorem State.memWf.fpBin {o f} (h : s.memWf) : Result.memWf (fpBin o f s) := h.laneElem

theorem State.memWf.execFadd {o} (h : s.memWf) : Result.memWf (execFadd o s) := h.fpBin

theorem State.memWf.execFsub {o} (h : s.memWf) : Result.memWf (execFsub o s) := h.fpBin

theorem State.memWf.execFmul {o} (h : s.memWf) : Result.memWf (execFmul o s) := h.fpBin

theorem State.memWf.execFfma {o} (h : s.memWf) : Result.memWf (execFfma o s) := h.laneElem

theorem State.memWf.fpMinMax {o isMax} (h : s.memWf) : Result.memWf (fpMinMax o isMax s) :=
  h.laneElem

theorem State.memWf.execFmin {o} (h : s.memWf) : Result.memWf (execFmin o s) := h.fpMinMax

theorem State.memWf.execFmax {o} (h : s.memWf) : Result.memWf (execFmax o s) := h.fpMinMax

theorem State.memWf.fpUn {o f} (h : s.memWf) : Result.memWf (fpUn o f s) := h.laneElem

theorem State.memWf.execFrcp {o} (h : s.memWf) : Result.memWf (execFrcp o s) := h.fpUn

theorem State.memWf.execFsqrt {o} (h : s.memWf) : Result.memWf (execFsqrt o s) := h.fpUn

theorem State.memWf.execFrsq {o} (h : s.memWf) : Result.memWf (execFrsq o s) := h.fpUn

theorem State.memWf.execFexp2 {o} (h : s.memWf) : Result.memWf (execFexp2 o s) := h.fpUn

theorem State.memWf.execFlog2 {o} (h : s.memWf) : Result.memWf (execFlog2 o s) := h.fpUn

theorem State.memWf.execFsetp {o} (h : s.memWf) : Result.memWf (execFsetp o s) := h.lanePred

theorem State.memWf.packBin {o draws lat fi fp} (h : s.memWf) :
    Result.memWf (packBin o draws lat fi fp s) := h.laneElem

theorem State.memWf.execPadd {o} (h : s.memWf) : Result.memWf (execPadd o s) := h.packBin

theorem State.memWf.execPsub {o} (h : s.memWf) : Result.memWf (execPsub o s) := h.packBin

theorem State.memWf.execPmul {o} (h : s.memWf) : Result.memWf (execPmul o s) := h.packBin

theorem State.memWf.execPmin {o} (h : s.memWf) : Result.memWf (execPmin o s) := h.packBin

theorem State.memWf.execPmax {o} (h : s.memWf) : Result.memWf (execPmax o s) := h.packBin

theorem State.memWf.execPfma {o} (h : s.memWf) : Result.memWf (execPfma o s) := h.laneElem

theorem State.memWf.laneDot {o} (h : s.memWf) : Result.memWf (laneDot o s) := h.laneElem

theorem State.memWf.execDotb {o} (h : s.memWf) : Result.memWf (execDotb o s) := h.laneDot

theorem State.memWf.execDoth {o} (h : s.memWf) : Result.memWf (execDoth o s) := h.laneDot

/-! ### Lane conversions (Machine/LaneConv) -/

theorem State.memWf.execCvt {o} (h : s.memWf) : Result.memWf (execCvt o s) := h.laneElem

theorem State.memWf.execCvtn {o} (h : s.memWf) : Result.memWf (execCvtn o s) := h.laneElem

theorem State.memWf.execCvtw {o} (h : s.memWf) : Result.memWf (execCvtw o s) := h.laneElem

/-! ### Lane moves and reductions (Machine/LaneMove) -/

theorem State.memWf.execLaneMov {o} (h : s.memWf) : Result.memWf (execLaneMov o s) := h.laneElem

theorem State.memWf.execLaneSel {o} (h : s.memWf) : Result.memWf (execLaneSel o s) := h.laneElem

theorem State.memWf.execKmix {o} (h : s.memWf) : Result.memWf (execKmix o s) := h.lanePred

theorem State.memWf.execLmfsr {o} (h : s.memWf) : Result.memWf (execLmfsr o s) := by
  unfold Machine.execLmfsr
  extract_lets
  refine h.laneIssue fun _ _ _ _ _ h₁ => ?_
  split
  · exact h₁
  · exact h₁.updSwath

theorem State.memWf.execXlane {o} (h : s.memWf) : Result.memWf (execXlane o s) := h.laneElem

theorem State.memWf.addLate {F r} (h : s.memWf) : (s.addLate F r).memWf := h.updSwath

theorem State.memWf.execLred {o} (h : s.memWf) : Result.memWf (execLred o s) := by
  unfold Machine.execLred
  exact h.laneIssue fun _ _ _ _ _ h' => State.memWf.addLate h'

theorem State.memWf.execVote {o} (h : s.memWf) : Result.memWf (execVote o s) :=
  h.laneIssue fun _ _ _ _ _ h₁ => h₁.addLate

theorem State.memWf.execScan {o} (h : s.memWf) : Result.memWf (execScan o s) :=
  h.laneIssue fun _ _ _ _ _ h₁ => h₁.updSwath

theorem State.memWf.execVariableLatencyResult {fid sw} (h : s.memWf) :
    Result.memWf (execVariableLatencyResult fid sw s) := by
  unfold Machine.execVariableLatencyResult
  split
  · exact h
  · extract_lets
    split
    · exact h
    · exact h.updSwathAt.tick

/-! ### Lane control instructions (Machine/LaneCtl) -/

theorem State.memWf.execBru {hd off} (h : s.memWf) : Result.memWf (execBru hd off s) := by
  unfold Machine.execBru
  refine h.laneIssue fun _ _ _ _ _ h₁ => ?_
  extract_lets
  split
  · exact h₁
  · split
    · exact h₁
    · trivial

theorem State.memWf.execBrd {hd off} (h : s.memWf) : Result.memWf (execBrd hd off s) := by
  unfold Machine.execBrd
  refine h.laneIssue fun _ _ _ _ _ h₁ => ?_
  extract_lets
  split
  · exact h₁
  · split
    · exact h₁
    · split
      · trivial
      · exact h₁

theorem State.memWf.execJoin {hd} (h : s.memWf) : Result.memWf (execJoin hd s) := by
  unfold Machine.execJoin
  refine h.laneIssue fun _ _ _ _ _ h₁ => ?_
  extract_lets
  (repeat' split) <;> exact h₁

theorem State.memWf.execArmExchange {fid sw} (h : s.memWf) :
    Result.memWf (execArmExchange fid sw s) := by
  unfold Machine.execArmExchange
  split
  · split
    · exact h.updSwathAt
    · exact h
  · exact h

theorem State.memWf.execLfmt {hd n} (h : s.memWf) : Result.memWf (execLfmt hd n s) := by
  unfold Machine.execLfmt
  refine h.laneIssue fun _ _ _ _ _ h₁ => ?_
  extract_lets
  split
  · trivial
  · exact h₁.updSwath

theorem State.memWf.execLstop {hd} (h : s.memWf) : Result.memWf (execLstop hd s) := by
  unfold Machine.execLstop
  refine h.laneIssue fun _ _ _ _ _ h₁ => ?_
  split
  · trivial
  · exact h₁

theorem State.memWf.execLhold {hd} (h : s.memWf) : Result.memWf (execLhold hd s) := by
  unfold Machine.execLhold
  refine h.laneIssue fun _ _ _ _ _ h₁ => ?_
  split
  · trivial
  · split <;> exact h₁.updSwath

theorem State.memWf.execLsig {hd n} (h : s.memWf) : Result.memWf (execLsig hd n s) := by
  unfold Machine.execLsig
  refine h.laneIssue fun _ _ _ _ _ h₁ => ?_
  split
  · trivial
  · exact h₁.updSwath

theorem State.memWf.laneArrive {F w b bar n} (h : s.memWf) :
    onSome fstWf (laneArrive F w s b bar n) := onSome_map fun _ => h.setBar.updSwath

theorem State.memWf.clearTok {F b} (h : s.memWf) : (s.clearTok F b).memWf := h.updSwath

theorem State.memWf.execLaneBara {hd b n} (h : s.memWf) : Result.memWf (execLaneBara hd b n s) := by
  unfold Machine.execLaneBara
  refine h.laneIssue fun _ _ _ _ _ h₁ => ?_
  split
  · trivial
  · split
    · trivial
    next heq => exact (congrArg (onSome fstWf) heq).mp h₁.laneArrive

theorem State.memWf.execLaneBarw {hd b} (h : s.memWf) : Result.memWf (execLaneBarw hd b s) := by
  unfold Machine.execLaneBarw
  refine h.laneIssue fun _ _ _ _ _ h₁ => ?_
  split
  · trivial
  · split
    · exact h₁
    · exact h₁.clearTok

theorem State.memWf.execLaneBars {hd b n} (h : s.memWf) : Result.memWf (execLaneBars hd b n s) := by
  unfold Machine.execLaneBars
  refine h.laneIssue fun _ _ _ _ _ h₁ => ?_
  split
  · trivial
  · split
    · trivial
    next s₁ heq =>
      have h₂ : s₁.memWf := (congrArg (onSome fstWf) heq).mp h₁.laneArrive
      exact h₂.updSwath
    next s₁ heq =>
      have h₃ : s₁.memWf := (congrArg (onSome fstWf) heq).mp h₁.laneArrive
      exact h₃.clearTok

theorem State.memWf.execLnop {hd} (h : s.memWf) : Result.memWf (execLnop hd s) :=
  h.laneIssue fun _ _ _ _ _ h₁ => h₁

/-! ### Scheduling (Machine/Sched) -/

theorem State.memWf.charge {c core quad lane n} (h : s.memWf) :
    (s.charge c core quad lane n).memWf := h.updCtx

theorem State.memWf.setCand {p passed aged} (h : s.memWf) : (s.setCand p passed aged).memWf := by
  unfold State.setCand
  split
  · exact h.updSwathAt
  · exact h.updSwath

theorem State.memWf.passOver {chosen cs} (h : s.memWf) : (s.passOver chosen cs).memWf := by
  unfold State.passOver
  refine h.foldl fun _ _ h₁ => ?_
  split
  · exact h₁.setCand
  · split
    · extract_lets
      split <;> exact h₁.setCand
    · exact h₁

theorem State.memWf.decideAmong {core quad lane cs} (h : s.memWf) :
    sndWf (decideAmong s core quad lane cs) := h.passOver

theorem State.memWf.clearYields {core quad cls} (h : s.memWf) :
    (s.clearYields core quad cls).memWf := by
  unfold State.clearYields
  refine h.foldl fun _ _ h₁ => ?_
  split
  split
  · exact h₁.updSwathAt
  · exact h₁

theorem State.memWf.replayParks {core quad} (h : s.memWf) : (s.replayParks core quad).memWf := by
  unfold State.replayParks
  refine h.foldl fun _ _ h₁ => ?_
  split
  split
  split
  · exact h₁
  · split
    · exact h₁
    · split
      · exact h₁.logReexec.updSwathAt
      · split
        · exact h₁.updField
        · exact h₁

theorem State.memWf.execScalarIssueDecision {core quad} (h : s.memWf) :
    Result.memWf (execScalarIssueDecision core quad s) := by
  unfold Machine.execScalarIssueDecision
  split
  · (repeat' split) <;> exact h
  · extract_lets
    split
    next s₁ heq =>
      have h₁ : s₁.memWf := (congrArg sndWf heq).mp h.replayParks.decideAmong
      exact h₁.charge.clearYields
    next s₁ heq =>
      have h₂ : s₁.memWf := (congrArg sndWf heq).mp h.replayParks.decideAmong
      exact h₂.clearYields

theorem State.memWf.countBin {c pc g} (h : s.memWf) : (s.countBin c pc g).memWf := by
  unfold State.countBin
  split
  · exact h
  · split
    · exact h
    · extract_lets
      split
      · exact h.setBank
      · exact h

theorem State.memWf.countSlot {core quad} (h : s.memWf) : (s.countSlot core quad).memWf := by
  unfold State.countSlot
  split
  · exact h
  · exact h.charge.countBin

theorem State.memWf.countIdle {cs} (h : s.memWf) : (s.countIdle cs).memWf := by
  unfold State.countIdle
  refine h.foldl fun _ _ h₁ => ?_
  split
  · exact h₁
  · split
    · exact h₁.countBin
    · exact h₁

theorem State.memWf.execLaneIssueDecision {core quad} (h : s.memWf) :
    Result.memWf (execLaneIssueDecision core quad s) := by
  unfold Machine.execLaneIssueDecision
  extract_lets
  split
  next s₁ heq =>
    have h₁ : s₁.memWf := (congrArg sndWf heq).mp h.decideAmong
    extract_lets t₁
    have h₂ : t₁.memWf := by
      unfold t₁
      split
      · exact h₁.countSlot
      · exact h₁.countIdle
    change State.memWf _
    split
    · exact h₂.updSwathAt
    · exact h₂
  next s₁ heq =>
    have h₃ : s₁.memWf := (congrArg sndWf heq).mp h.decideAmong
    exact h₃.countIdle

theorem State.memWf.execCandidateAges {p} (h : s.memWf) : Result.memWf (execCandidateAges p s) := by
  unfold Machine.execCandidateAges
  split
  split
  · exact h
  · exact h.setCand

theorem State.memWf.failCapacity {c} (h : s.memWf) : (s.failCapacity c).memWf := by
  unfold State.failCapacity
  split
  · exact h.foldl fun _ _ h₁ => h₁.terminal
  · split
    · exact h
    · exact h.updLaunch.terminalRecord

theorem State.memWf.placeFresh {n l seats} (h : s.memWf) : (s.placeFresh n l seats).memWf := by
  unfold State.placeFresh
  extract_lets one
  have h₁ : ∀ s i seat, s.memWf → (one s i seat).memWf := by
    intro _ _ _ h₂
    unfold one
    split
    · exact h₂
    · split
      exact State.memWf.logField (State.memWf.updLaunch h₂)
  exact (h.foldl fun _ _ h₃ => h₁ _ _ _ h₃).updLaunch

theorem State.memWf.seat {c seats} (h : s.memWf) : (s.seat c seats).memWf := by
  unfold State.seat
  split
  · exact h.resumeGroup
  · split
    · exact h.placeFresh
    · exact h

theorem State.memWf.execFieldPlace {core} (h : s.memWf) : Result.memWf (execFieldPlace core s) := by
  unfold Machine.execFieldPlace
  split
  · exact h
  · split
    · exact h.failCapacity
    · split
      · exact h
      · split
        · exact h.seat
        · exact h

theorem State.memWf.giveRoom {c core} (h : s.memWf) : (s.giveRoom c core).memWf := by
  unfold State.giveRoom
  split
  · exact h.seat
  · exact h

theorem State.memWf.stopDone {fid} (h : s.memWf) : (s.stopDone fid).memWf := by
  unfold State.stopDone
  split
  · exact h
  · split
    · exact h
    · exact h.logField.send.setField.putStatus

theorem State.memWf.execFieldSwapOut {fid} (h : s.memWf) :
    Result.memWf (execFieldSwapOut fid s) := by
  unfold Machine.execFieldSwapOut
  split
  · exact h
  · split
    · extract_lets
      change State.memWf _
      split
      · exact h.swapGroup
      · exact h.swapGroup.stopDone
    · split
      · exact h.swapGroup
      · split
        · exact (h.foldl fun _ _ h₁ => h₁.swapGroup).giveRoom
        · exact h

theorem State.memWf.execUrgentClaim {core quad} (h : s.memWf) :
    Result.memWf (execUrgentClaim core quad s) := by
  unfold Machine.execUrgentClaim
  split
  · exact h.foldl fun _ _ h₁ => h₁.swapGroup
  · exact h

theorem State.memWf.scanLine {fid sw f w} (h : s.memWf) : (s.scanLine fid sw f w).memWf := by
  unfold State.scanLine
  split
  · exact h
  · split
    · exact h
    · extract_lets
      split
      · exact h.tick
      · split
        · exact h.tick
        · split
          · exact h.tick.updSwathAt.toServicer
          · exact h.tick.imageInvalid

theorem State.memWf.execRegisterLineScanOut {fid sw} (h : s.memWf) :
    Result.memWf (execRegisterLineScanOut fid sw s) := by
  unfold Machine.execRegisterLineScanOut
  split
  · split
    · exact h.scanLine
    · split
      · exact h
      · split
        next heq => exact (congrArg SaveRes.memWf heq).mp h.saveSlot
        next heq => exact (congrArg SaveRes.memWf heq).mp h.saveSlot
        · change State.memWf _
          split
          · exact h.imageInvalid
          · exact h
  · exact h

theorem State.memWf.execTenantSliceEnd {ctx core quad} (h : s.memWf) :
    Result.memWf (execTenantSliceEnd ctx core quad s) := by
  unfold Machine.execTenantSliceEnd
  extract_lets
  split
  · exact h
  · exact h.foldl fun _ _ h₁ => h₁.updField

theorem State.memWf.execReconvWaitExpire {fid} (h : s.memWf) :
    Result.memWf (execReconvWaitExpire fid s) := by
  unfold Machine.execReconvWaitExpire
  split
  · exact h.swapGroup
  · exact h

theorem State.memWf.leaseMs {n l} (h : s.memWf) : (s.leaseMs n l).memWf := by
  unfold State.leaseMs
  split <;> exact h

theorem State.memWf.execBudgetPeriodBoundary (h : s.memWf) :
    Result.memWf (execBudgetPeriodBoundary s) := by
  unfold Machine.execBudgetPeriodBoundary
  extract_lets _ _ s₁ s₂ s₃ _ s₄
  have h₁ : s₁.memWf := h
  have h₂ : s₂.memWf := by
    unfold s₂
    split
    · exact h₁.heathLog
    · exact h₁
  have h₃ : s₃.memWf := h₂
  have h₄ : s₄.memWf := h₃.foldl fun _ _ h₅ => h₅.retryRings
  split
  · exact h₄
  · exact h₄.foldl fun _ _ h₆ => h₆.leaseMs

theorem State.memWf.execWalkComplete {gateway ctx va} (h : s.memWf) :
    Result.memWf (execWalkComplete gateway ctx va s) := by
  unfold Machine.execWalkComplete
  split
  · exact h
  · split
    · exact h.countFor.walked
    · exact h

theorem State.memWf.execCacheWriteback {l2 unit ctx vaLine} (h : s.memWf) :
    Result.memWf (execCacheWriteback l2 unit ctx vaLine s) := by
  unfold Machine.execCacheWriteback
  extract_lets
  split
  · split
    next heq => exact (congrArg (onSome State.memWf) heq).mp h.linesHold
    · exact h.wbL2s
  · exact h.wbL1s

theorem State.memWf.execCacheEvict {l2 unit ctx vaLine} (h : s.memWf) :
    Result.memWf (execCacheEvict l2 unit ctx vaLine s) := by
  unfold Machine.execCacheEvict
  extract_lets
  split <;> exact h

/-! ### Submission (Machine/Submit) -/

theorem State.memWf.fixSets (h : s.memWf) : s.fixSets.memWf := by
  unfold State.fixSets
  split <;> exact h

theorem State.memWf.execEnqueue {vf page off pasid record} (h : s.memWf) :
    Result.memWf (execEnqueue vf page off pasid record s) := by
  unfold Machine.execEnqueue
  extract_lets _ _ s₁
  have h₁ : s₁.memWf := by
    unfold s₁
    split
    · exact h.fixSets
    · exact h
  split
  · exact h.heathLog.send
  · split
    · exact h.heathLog.send
    · split
      · exact h.send
      · exact State.memWf.send h₁

theorem State.memWf.execBarUnsupportedAccess (h : s.memWf) (vf bar off) :
    Result.memWf (execBarUnsupportedAccess vf bar off s) := h.send

theorem State.memWf.execAgentClaim {core} (h : s.memWf) : Result.memWf (execAgentClaim core s) := by
  unfold Machine.execAgentClaim
  split
  · exact h
  · split
    · exact h
    · extract_lets
      split <;> exact h

theorem State.memWf.execAgentMismatch {core} (h : s.memWf) :
    Result.memWf (execAgentMismatch core s) := by
  unfold Machine.execAgentMismatch
  split
  · exact h
  · exact h.heathLog

theorem State.memWf.endClaim {core} (h : s.memWf) : (s.endClaim core).memWf := h

theorem State.memWf.refuseClaim {core c} (h : s.memWf) : (s.refuseClaim core c).memWf :=
  h.refuseLaunch.endClaim

theorem State.memWf.agentWaits {ctx ltag who e va} (h : s.memWf) :
    (s.agentWaits ctx ltag who e va).memWf := h.toServicer

theorem State.memWf.claimWaits {core c e va} (h : s.memWf) : (s.claimWaits core c e va).memWf := by
  unfold State.claimWaits
  split
  · exact h
  · exact State.memWf.agentWaits h

theorem State.memWf.checkLaunch {core c w} (h : s.memWf) : (s.checkLaunch core c w).memWf := by
  unfold State.checkLaunch
  extract_lets
  split
  · exact h.refuseClaim
  · split
    · exact h.refuseClaim
    · exact h.claimWaits
    · exact State.memWf.endClaim h

theorem State.memWf.execLaunchCheck {core} (h : s.memWf) :
    Result.memWf (execLaunchCheck core s) := by
  unfold Machine.execLaunchCheck
  split
  · exact h
  · split
    · exact h
    · split
      · exact h.refuseClaim
      · split
        · exact h.checkLaunch
        · extract_lets
          split
          · exact h.refuseClaim
          · exact h.claimWaits
          · split
            · split
              · exact h.claimWaits
              · exact h.refuseClaim
            · exact State.memWf.checkLaunch h

theorem State.memWf.manageForm {d} (h : s.memWf) : (manageForm d s).memWf := by
  unfold Machine.manageForm
  extract_lets
  split
  · exact h.ctxNew memWf_dpaCaller
  · exact h.ctxGrant memWf_dpaCaller
  · exact h.ctxRevoke memWf_dpaCaller
  · exact h.ctxBudg memWf_dpaCaller
  · exact h.ctxQ memWf_dpaCaller
  · exact h.ctxInfo memWf_dpaCaller
  · exact h.ctxKill memWf_dpaCaller
  · exact h.rflt memWf_dpaCaller

theorem State.memWf.manageDone {core d x y} (h : s.memWf) :
    onSome State.memWf (s.manageDone core d x y) := by
  unfold State.manageDone
  split
  next s₁ heq =>
    have h₁ : s₁.memWf := (congrArg MRes.memWf heq).mp (h.wrs memWf_dpaCaller)
    exact h₁.send.endClaim
  · trivial

theorem State.memWf.resultHold {d} (h : s.memWf) : onSome State.memWf (resultHold s d) := by
  unfold Machine.resultHold
  split
  · exact h.writeHold
  · trivial

theorem State.memWf.execManageExecute {core} (h : s.memWf) :
    Result.memWf (execManageExecute core s) := by
  unfold Machine.execManageExecute
  split
  · exact h
  · split
    · exact h
    · extract_lets
      split
      · exact h.heathLog.endClaim
      · split
        · split
          · exact h
          · exact h.heathLog.endClaim
        next s₁ heq _ =>
          have h₁ : s₁.memWf := (congrArg (onSome State.memWf) heq).mp h.resultHold
          exact h₁
        · split
          next heq => exact (congrArg CtxOut.memWf heq).mp h.manageForm
          · exact State.memWf.getD h h.manageDone
          next s₁ _ _ heq =>
            have h₃ : s₁.memWf := (congrArg CtxOut.memWf heq).mp h.manageForm
            exact State.memWf.evictDisplaced (State.memWf.getD h₃.endClaim h₃.manageDone)

theorem State.memWf.execLaunchComplete {launch} (h : s.memWf) :
    Result.memWf (execLaunchComplete launch s) := by
  unfold Machine.execLaunchComplete
  split
  · exact h
  · split
    · exact h
    · extract_lets done
      have h₁ : ∀ s, s.memWf → (done s).memWf := by
        intro _ h₂
        unfold done
        exact h₂.updLaunch.launchVector
      split
      · exact h₁ _ h
      · split
        · split
          next s₁ heq =>
            have h₃ : s₁.memWf := (congrArg MRes.memWf heq).mp h.homePutHold
            exact h₁ _ h₃
          next heq => exact (congrArg MRes.memWf heq).mp h.homePutHold
          · exact h.agentFault
        · split
          · exact h
          · split
            · exact h.updLaunch.agentWaits
            · exact h.agentFault

/-! ### Debug (Machine/Debug) -/

theorem State.memWf.stopField {fid} (h : s.memWf) : (s.stopField fid).memWf := by
  unfold State.stopField
  split
  · exact h
  · split
    · exact h.setField
    · split
      · exact h
      · exact h.setField.stopDone
    · exact h

theorem State.memWf.execDebugStop {via ctx ltag field} (h : s.memWf) :
    Result.memWf (execDebugStop via ctx ltag field s) :=
  h.managed (h.foldl fun _ _ h₁ => h₁.stopField)

theorem State.memWf.releaseField {fid} (h : s.memWf) : (s.releaseField fid).memWf := by
  unfold State.releaseField
  split
  · exact h
  · split
    · exact h
    · extract_lets
      split
      · exact h.setField.makeReady
      · exact h.setField

theorem State.memWf.execDebugRelease {via ctx ltag field} (h : s.memWf) :
    Result.memWf (execDebugRelease via ctx ltag field s) :=
  h.managed (h.foldl fun _ _ h₁ => h₁.releaseField)

theorem State.memWf.updBank {vf g} (h : s.memWf) : (s.updBank vf g).memWf := h.setBank

theorem State.memWf.execCounterClear {vf} (h : s.memWf) : Result.memWf (execCounterClear vf s) :=
  h.updBank

theorem State.memWf.execLogModeWrite {vf off value} (h : s.memWf) :
    Result.memWf (execLogModeWrite vf off value s) := h.updBank

theorem State.memWf.execCounterBankWrite {vf off value} (h : s.memWf) :
    Result.memWf (execCounterBankWrite vf off value s) := by
  unfold Machine.execCounterBankWrite
  split
  · exact h.send
  · have h₁ : (s.updBank vf fun b => b.write s.freeCtr off value).memWf := h.updBank
    exact h₁

/-! ### Management (Machine/Heath) -/

theorem State.memWf.hbmAfterReset (h : s.memWf) : (hbmAfterReset s).wf = true := by
  unfold Machine.hbmAfterReset
  split
  · exact Mem.wf_filter _ _ h.1
  · rfl

theorem State.memWf.deviceReset (h : s.memWf) : s.deviceReset.memWf := ⟨h.hbmAfterReset, h.2⟩

theorem State.memWf.execDeviceReset (h : s.memWf) : Result.memWf (execDeviceReset s) :=
  h.deviceReset

theorem State.memWf.execPowerLoss (h : s.memWf) : Result.memWf (execPowerLoss s) :=
  ⟨rfl, h.deviceReset.2⟩

theorem State.memWf.execBootStepComplete {ok} (h : s.memWf) :
    Result.memWf (execBootStepComplete ok s) := by
  unfold Machine.execBootStepComplete
  extract_lets hh n
  split
  · exact h
  · split
    · split
      · exact h
      · exact State.memWf.tick (State.memWf.heathLog h)
    · clear_value n
      split <;> exact h

theorem State.memWf.spdm {kind head} (h : s.memWf) : (s.spdm kind head).memWf := h.reply.tick

theorem State.memWf.execMctpControl (h : s.memWf) : Result.memWf (execMctpControl s) := h.spdm

theorem State.memWf.execGetVersion (h : s.memWf) : Result.memWf (execGetVersion s) := h.spdm

theorem State.memWf.execGetCapabilities (h : s.memWf) : Result.memWf (execGetCapabilities s) :=
  h.spdm

theorem State.memWf.execNegotiateAlgorithms (h : s.memWf) :
    Result.memWf (execNegotiateAlgorithms s) := h.spdm

theorem State.memWf.execGetDigests (h : s.memWf) : Result.memWf (execGetDigests s) := h.spdm

theorem State.memWf.execGetCertificate (h : s.memWf) : Result.memWf (execGetCertificate s) := h.spdm

theorem State.memWf.execChallenge (h : s.memWf) : Result.memWf (execChallenge s) := h.spdm

theorem State.memWf.execGetMeasurements (h : s.memWf) : Result.memWf (execGetMeasurements s) :=
  h.spdm

theorem State.memWf.execKeyExchange (h : s.memWf) : Result.memWf (execKeyExchange s) := by
  unfold Machine.execKeyExchange
  split
  · exact h
  · exact State.memWf.spdm h

theorem State.memWf.execFinish (h : s.memWf) : Result.memWf (execFinish s) := h.spdm

theorem State.memWf.execEndSession (h : s.memWf) : Result.memWf (execEndSession s) := by
  unfold Machine.execEndSession
  split
  · exact h
  · exact State.memWf.spdm h

theorem State.memWf.execVfBind {via vf ctx} (h : s.memWf) :
    Result.memWf (execVfBind via vf ctx s) := by
  unfold Machine.execVfBind
  refine h.managed ?_
  split
  · exact h
  · split
    · exact h.updCtx
    · exact h.refuse

theorem State.memWf.execLlcCarve {via die mib} (h : s.memWf) :
    Result.memWf (execLlcCarve via die mib s) := by
  unfold Machine.execLlcCarve
  refine h.managed ?_
  split
  · exact h.refuse
  · extract_lets old base s₁
    have h₁ : s₁.memWf := by
      unfold s₁
      split
      · exact h.withMem (Mem.wf_zero _ _ _ h.1)
      · exact h
    exact h₁

theorem State.memWf.execBankCarve {via core mask release} (h : s.memWf) :
    Result.memWf (execBankCarve via core mask release s) := by
  unfold Machine.execBankCarve
  refine h.managed ?_
  extract_lets
  split
  · exact h.refuse
  · split
    · split
      · exact h.refuse
      · exact @State.memWf.withMem { s with heath := _ } _ h (Mem.wf_zero _ _ _ h.1)
    · split
      · exact @State.memWf.withMem { s with heath := _ } _ h (Mem.wf_zero _ _ _ h.1)
      · exact h.refuse

theorem State.memWf.execReleasedBankZero {core bank} (h : s.memWf) :
    Result.memWf (execReleasedBankZero core bank s) := h

theorem State.memWf.execLogRead {via index} (h : s.memWf) :
    Result.memWf (execLogRead via index s) := h.managed h.reply

theorem State.memWf.execUpdateStage {via image version verified} (h : s.memWf) :
    Result.memWf (execUpdateStage via image version verified s) := by
  unfold Machine.execUpdateStage
  refine h.managed ?_
  split
  · exact h.refuse
  · exact State.memWf.heathLog h

theorem State.memWf.execSensorRead {via index} (h : s.memWf) :
    Result.memWf (execSensorRead via index s) := h.managed h.reply.tick

theorem State.memWf.execKeyReplace {via ctx key} (h : s.memWf) :
    Result.memWf (execKeyReplace via ctx key s) := by
  unfold Machine.execKeyReplace
  refine h.managed ?_
  split
  · split
    · split
      · exact h
      · exact h.refuse
    · exact h.refuse
  · exact h.refuse

theorem State.memWf.execContext0RingsSet {rbase tbase rsize tsize} (h : s.memWf) :
    Result.memWf (execContext0RingsSet rbase tbase rsize tsize s) := h.updCtx

theorem State.memWf.execPowerSample {milliwatt} (h : s.memWf) :
    Result.memWf (execPowerSample milliwatt s) := h

theorem State.memWf.execTemperatureSample {readings} (h : s.memWf) :
    Result.memWf (execTemperatureSample readings s) := by
  unfold Machine.execTemperatureSample
  split
  · exact h.haltAll.heathLog.deviceReset
  · exact h

theorem State.memWf.dataLoss {c} (h : s.memWf) : (s.dataLoss c).memWf := h.terminalRecord

theorem State.memWf.retireFrame {f} (h : s.memWf) : (s.retireFrame f).memWf := by
  unfold State.retireFrame
  extract_lets e gone s₁ spare bad s₂
  have hgone : ∀ s : State, s.memWf → (gone s).memWf := fun _ h => h.setFrame
  split
  · split
    · exact hgone _ h
    · split
      · exact hgone _ h.freeFrame.endFills
      · split
        · exact h
        · exact hgone _ h.evictFrame
  · have h₁ : s₁.memWf := h.flushUnit
    have h₂ : s₂.memWf := h₁.foldl fun _ _ h => h.dataLoss
    clear_value spare bad
    split
    next g0 rest _ _ =>
      extract_lets g data s₃
      have h₃ : s₃.memWf := @State.memWf.withMem { s₁ with freeCtr := _ } _ h₁
        (Mem.wf_overlay _ _ (Mem.wf_zero _ _ _ h₁.1))
      exact hgone _ h₃.setFrame.freeFrame
    · exact hgone _ (State.memWf.freeFrame h₂)
  · exact hgone _ h

theorem State.memWf.settleRetired (h : s.memWf) : s.settleRetired.memWf := by
  unfold State.settleRetired
  refine h.foldl fun _ _ h₁ => ?_
  split
  extract_lets
  split
  · exact h₁.evictFrame
  · exact h₁

theorem State.memWf.shutSlice {slice} (h : s.memWf) : (s.shutSlice slice).memWf := by
  unfold State.shutSlice
  extract_lets _ _ s₁ _ _ _ _ s₂
  have h₁ : s₁.memWf := h
  have h₂ : s₂.memWf := h₁
  split
  · exact h₁
  · exact h₂.foldl fun _ _ h₃ => h₃.dataLoss

theorem State.memWf.retireUnit {cls idx} (h : s.memWf) : (s.retireUnit cls idx).memWf := by
  unfold State.retireUnit
  split
  · exact h.shutSlice.heathLog
  · extract_lets s₁ _ s₂
    have h₁ : s₁.memWf := by
      unfold s₁
      split
      · exact h.retireFrame
      · exact h
    have h₂ : s₂.memWf := State.memWf.heathLog h₁
    split
    · exact h₂.tlbRoom
    · exact h₂

theorem State.memWf.endTest {cls idx} (h : s.memWf) : (s.endTest cls idx).memWf := h

theorem State.memWf.testFails {cls idx n} (h : s.memWf) : (s.testFails cls idx n).memWf := by
  unfold State.testFails
  extract_lets
  split
  · exact h.endTest.retireUnit
  · exact h

theorem State.memWf.startTest {cls idx} (h : s.memWf) : (s.startTest cls idx).memWf := by
  unfold State.startTest
  split
  · exact h
  · split
    · exact h.testFails
    · exact h.foldl fun _ _ h₁ => h₁.swapGroup

theorem State.memWf.execCorrectedError {uclass index} (h : s.memWf) :
    Result.memWf (execCorrectedError uclass index s) := by
  unfold Machine.execCorrectedError
  split
  · exact h
  · exact h.heathLog.startTest

theorem State.memWf.loseUnit {cls idx} (h : s.memWf) : (s.loseUnit cls idx).memWf :=
  (h.foldl fun _ _ h₁ => h₁.faultField).foldl fun _ _ h₂ => h₂.dataLoss

theorem State.memWf.execUncorrectableError {uclass index line} (h : s.memWf) :
    Result.memWf (execUncorrectableError uclass index line s) := by
  unfold Machine.execUncorrectableError
  split
  · exact h
  · extract_lets _ s₁
    have h₁ : s₁.memWf := by
      unfold s₁
      split
      · exact h.heathLog.poison
      · exact h.heathLog.loseUnit
    exact h₁.startTest

theorem State.memWf.execUnitTestComplete {uclass index pass} (h : s.memWf) :
    Result.memWf (execUnitTestComplete uclass index pass s) := by
  unfold Machine.execUnitTestComplete
  split
  · exact h
  · split
    · exact h.endTest.heathLog
    · exact h.testFails

theorem State.memWf.execTagParityError {l2 unit set} (h : s.memWf) :
    Result.memWf (execTagParityError l2 unit set s) := by
  unfold Machine.execTagParityError
  split
  · split
    · exact h
    · exact State.memWf.foldl h (fun _ _ h₁ => h₁.dataLoss)
  · split
    · exact h
    · exact ((h.heathLog.foldl fun _ _ h₂ => h₂.homeWrite).tick).foldl fun _ _ h₃ => h₃.dataLoss

/-! ### Lane memory instructions (Machine/LaneMem) -/

theorem MRes.memWf.lane {α : Type} {r : MRes α} {F va} (h : r.memWf) : (r.lane F va).memWf := by
  unfold MRes.lane
  split
  · exact State.memWf.stirAt h
  · trivial
  · exact h

theorem LRes.memWf.bind {α : Type} {β : Type} {r : LRes α} {k : α → State → LRes β} (h : r.memWf)
    (hk : ∀ x s, s.memWf → (k x s).memWf) :
    (r.bind k).memWf := by
  unfold LRes.bind
  split
  · exact hk _ _ h
  · trivial
  · exact h

theorem State.memWf.halvesRead {rd : Nat → Nat → State → LRes Nat} {a n} (h : s.memWf)
    (hrd : ∀ x y s, s.memWf → (rd x y s).memWf) :
    (halvesRead rd a n s).memWf := by
  unfold Machine.halvesRead
  split
  · exact hrd _ _ _ h
  · exact (hrd _ _ _ h).bind fun _ _ h₁ => (hrd _ _ _ h₁).bind fun _ _ h₂ => h₂

theorem State.memWf.halvesWrite {wr : Nat → Nat → Nat → State → LRes Unit} {a v n} (h : s.memWf)
    (hwr : ∀ x y z s, s.memWf → (wr x y z s).memWf) :
    (halvesWrite wr a v n s).memWf := by
  unfold Machine.halvesWrite
  split
  · exact hwr _ _ _ _ h
  · exact (hwr _ _ _ _ h).bind fun _ _ h₁ => hwr _ _ _ _ h₁

theorem State.memWf.wideRead {F} {rd : Nat → Nat → State → MRes Nat} {a n} (h : s.memWf)
    (hrd : ∀ x y s, s.memWf → (rd x y s).memWf) :
    (wideRead F rd a n s).memWf := by
  unfold Machine.wideRead
  split
  · exact hrd _ _ _ h
  · exact (hrd _ _ _ h).bind fun _ _ h₁ => (hrd _ _ _ h₁.stirAt).bind fun _ _ h₂ => h₂

theorem State.memWf.wideWrite {F} {wr : Nat → Nat → Nat → State → MRes Unit} {a v n} (h : s.memWf)
    (hwr : ∀ x y z s, s.memWf → (wr x y z s).memWf) :
    (wideWrite F wr a v n s).memWf := by
  unfold Machine.wideWrite
  split
  · exact hwr _ _ _ _ h
  · exact (hwr _ _ _ _ h).bind fun _ _ h₁ => hwr _ _ _ _ h₁.stirAt

theorem LaneRun.memWf.step {α : Type} {one : Nat → State → LRes α} {x : LaneRun α} {l} (h : x.memWf)
    (hone : ∀ l s, s.memWf → (one l s).memWf) :
    (x.step one l).memWf := by
  unfold LaneRun.step
  split
  next heq => exact (congrArg LRes.memWf heq).mp (hone _ _ h)
  · exact h
  · exact h

theorem State.memWf.pinnedRun {α : Type} {F va s0} {one : Nat → State → LRes α} {l} (h : s.memWf)
    (hone : ∀ l s, s.memWf → (one l s).memWf) :
    (pinnedRun F va s0 one l s).memWf := hone _ _ h

theorem State.memWf.overLanes {α : Type} {F va m} {one : Nat → State → LRes α}
    {k : List (Nat × α) → State → LOut} (h : s.memWf) (hone : ∀ x s, s.memWf → (one x s).memWf)
    (hk : ∀ x s, s.memWf → (k x s).memWf) :
    (overLanes F va m one s k).memWf := by
  unfold Machine.overLanes
  split
  · trivial
  · extract_lets run
    have hrun : run.memWf :=
      List.foldlRecOn (motive := LaneRun.memWf) _ _ h fun _ hx _ _ =>
        hx.step fun _ _ h' => h'.pinnedRun hone
    split
    · trivial
    · exact h
    · exact hk _ _ hrun

theorem State.memWf.laneLoad {o maps} {rd : Focus → Nat → Nat → State → LRes Nat} (h : s.memWf)
    (hrd : ∀ x y z s, s.memWf → (rd x y z s).memWf) :
    Result.memWf (laneLoad o maps rd s) := by
  unfold Machine.laneLoad
  extract_lets
  refine h.laneIssue fun _ _ _ _ _ h₁ => h₁.overLanes (fun _ _ h₂ => ?_) fun _ _ h₃ => h₃.updSwath
  extract_lets
  split
  · trivial
  · exact hrd _ _ _ _ h₂

theorem State.memWf.laneStore {o maps} {wr : Focus → Nat → Nat → Nat → State → LRes Unit}
    (h : s.memWf) (hwr : ∀ x y z u s, s.memWf → (wr x y z u s).memWf) :
    Result.memWf (laneStore o maps wr s) := by
  unfold Machine.laneStore
  extract_lets
  refine h.laneIssue fun _ _ _ _ _ h₁ => h₁.overLanes (fun _ _ h₂ => ?_) fun _ _ h₃ => h₃
  extract_lets
  split
  · trivial
  · exact hwr _ _ _ _ _ h₂

theorem State.memWf.execLaneLds {o} (h : s.memWf) : Result.memWf (execLaneLds o s) := by
  unfold Machine.execLaneLds
  refine h.laneLoad fun _ _ _ _ h₁ => h₁.halvesRead fun _ _ _ h₂ => ?_
  split
  · trivial
  · exact h₂

theorem State.memWf.execLaneSts {o} (h : s.memWf) : Result.memWf (execLaneSts o s) := by
  unfold Machine.execLaneSts
  refine h.laneStore fun _ _ _ _ _ h₁ => h₁.halvesWrite fun _ _ _ _ h₂ => ?_
  split
  · trivial
  · exact h₂.scratchWr

theorem State.memWf.execLdg {o} (h : s.memWf) : Result.memWf (execLdg o s) :=
  h.laneLoad fun _ _ _ _ h₁ => (h₁.wideRead fun _ _ _ h₂ => h₂.gLoad).lane

theorem State.memWf.execStg {o} (h : s.memWf) : Result.memWf (execStg o s) :=
  h.laneStore fun _ _ _ _ _ h₁ => (h₁.wideWrite fun _ _ _ _ h₂ => h₂.plainStore).lane

theorem State.memWf.constRead {F a n} (h : s.memWf) : (constRead F a n s).memWf := by
  unfold Machine.constRead
  split
  · trivial
  · trivial
  next heq => exact (congrArg (onSome (onOk sndWf)) heq).mp h.constRd

theorem State.memWf.execLaneLdc {o} (h : s.memWf) : Result.memWf (execLaneLdc o s) :=
  h.laneLoad fun _ _ _ _ h₁ => h₁.halvesRead fun _ _ _ h₂ => h₂.constRead

theorem State.memWf.laneAtomicWith {o vaRegs f} (h : s.memWf) :
    Result.memWf (laneAtomicWith o vaRegs f s) := by
  unfold Machine.laneAtomicWith
  extract_lets
  refine h.laneIssue fun _ _ _ _ _ h₁ => h₁.overLanes (fun _ _ h₂ => ?_) fun _ _ h₃ => h₃.updSwath
  extract_lets
  split
  · trivial
  · split
    · trivial
    · exact h₂.loggedAtomic.lane

theorem State.memWf.laneAtomic {op o} (h : s.memWf) : Result.memWf (laneAtomic op o s) :=
  h.laneAtomicWith

theorem State.memWf.execLaneAtomAdd {o} (h : s.memWf) : Result.memWf (execLaneAtomAdd o s) :=
  h.laneAtomic

theorem State.memWf.execLaneAtomMin {o} (h : s.memWf) : Result.memWf (execLaneAtomMin o s) :=
  h.laneAtomic

theorem State.memWf.execLaneAtomMax {o} (h : s.memWf) : Result.memWf (execLaneAtomMax o s) :=
  h.laneAtomic

theorem State.memWf.execLaneAtomUmin {o} (h : s.memWf) : Result.memWf (execLaneAtomUmin o s) :=
  h.laneAtomic

theorem State.memWf.execLaneAtomUmax {o} (h : s.memWf) : Result.memWf (execLaneAtomUmax o s) :=
  h.laneAtomic

theorem State.memWf.execLaneAtomAnd {o} (h : s.memWf) : Result.memWf (execLaneAtomAnd o s) :=
  h.laneAtomic

theorem State.memWf.execLaneAtomOr {o} (h : s.memWf) : Result.memWf (execLaneAtomOr o s) :=
  h.laneAtomic

theorem State.memWf.execLaneAtomXor {o} (h : s.memWf) : Result.memWf (execLaneAtomXor o s) :=
  h.laneAtomic

theorem State.memWf.execLaneAtomXchg {o} (h : s.memWf) : Result.memWf (execLaneAtomXchg o s) :=
  h.laneAtomic

theorem State.memWf.execLaneAtomCas {o} (h : s.memWf) : Result.memWf (execLaneAtomCas o s) := by
  unfold Machine.execLaneAtomCas
  exact h.laneAtomicWith

theorem State.memWf.execLaneAtomFadd {o} (h : s.memWf) : Result.memWf (execLaneAtomFadd o s) :=
  h.laneAtomicWith

theorem State.memWf.execLaneLdacq {o} (h : s.memWf) : Result.memWf (execLaneLdacq o s) := by
  unfold Machine.execLaneLdacq
  extract_lets
  refine h.laneIssue fun _ _ _ _ _ h₁ => ?_
  split
  · exact h₁
  · refine h₁.overLanes (fun _ _ h₂ => ?_) fun _ _ h₃ => h₃.partyAcquire.updSwath
    extract_lets
    split
    · trivial
    · split
      · trivial
      · exact h₂.scopedLoad.lane

theorem State.memWf.laneClamp {F clamped} (h : s.memWf) : (s.laneClamp F clamped).memWf := by
  unfold State.laneClamp
  split
  · exact h.updSwath
  · exact h

theorem State.memWf.execLaneStrel {o} (h : s.memWf) : Result.memWf (execLaneStrel o s) := by
  unfold Machine.execLaneStrel
  extract_lets
  refine h.laneIssue fun _ _ _ _ _ h₁ => ?_
  extract_lets
  split
  · exact h₁
  · split
    next heq => exact (congrArg MRes.memWf heq).mp h₁.partyRelease
    · trivial
    next s₂ heq =>
      have h₃ : s₂.memWf := (congrArg MRes.memWf heq).mp h₁.partyRelease
      refine h₃.overLanes (fun _ _ h₄ => ?_) fun _ _ h₅ => h₅.laneClamp
      extract_lets
      split
      · trivial
      · split
        · trivial
        · exact h₄.gStore.lane

theorem State.memWf.laneFence {rel acq hd p} (h : s.memWf) :
    Result.memWf (laneFence rel acq hd p s) := by
  unfold Machine.laneFence
  refine h.laneIssue fun F w g m s h => ?_
  split
  · exact h
  · split
    · trivial
    · have hrel : ∀ scope,
          (if rel then Machine.partyRelease F s scope else .ok () s : MRes Unit).memWf := by
        intro scope
        split
        · exact h.partyRelease
        · exact h
      split
      next heq => exact (congrArg MRes.memWf heq).mp (hrel _)
      · trivial
      next t heq =>
        have ht : t.memWf := (congrArg MRes.memWf heq).mp (hrel _)
        extract_lets t'
        have ht' : t'.memWf := by
          unfold t'
          split
          · exact ht.partyAcquire
          · exact ht
        exact ht'.laneClamp

theorem State.memWf.execLaneFenceFull {hd p} (h : s.memWf) :
    Result.memWf (execLaneFenceFull hd p s) := h.laneFence

theorem State.memWf.execLaneFenceAcq {hd p} (h : s.memWf) :
    Result.memWf (execLaneFenceAcq hd p s) := h.laneFence

theorem State.memWf.execLaneFenceRel {hd p} (h : s.memWf) :
    Result.memWf (execLaneFenceRel hd p s) := h.laneFence

theorem State.memWf.tolerantLoad {F a n} (h : s.memWf) : (tolerantLoad F a n s).memWf := by
  unfold Machine.tolerantLoad
  split
  next s₁ heq =>
    have h₁ : s₁.memWf := (congrArg MRes.memWf heq).mp (h.wideRead fun _ _ _ h₂ => h₂.gLoad)
    exact h₁.stirAt
  next heq => exact (congrArg MRes.memWf heq).mp (h.wideRead fun _ _ _ h₄ => h₄.gLoad)
  · split
    · exact h
    · trivial

theorem State.memWf.execLdgT {o kd} (h : s.memWf) : Result.memWf (execLdgT o kd s) := by
  unfold Machine.execLdgT
  extract_lets
  refine h.laneIssue fun _ _ _ _ _ h₁ =>
    h₁.overLanes (fun _ _ h₂ => ?_) fun _ _ h₃ => h₃.askFills.updSwath
  extract_lets
  split
  · trivial
  · exact h₂.tolerantLoad

theorem State.memWf.laneAcc {o f} {k : Focus → Swath → Frag → List (Nat × Nat) → State → State}
    (h : s.memWf) (hk : ∀ x y z u s, s.memWf → (k x y z u s).memWf) :
    Result.memWf (laneAcc o f k s) := by
  unfold Machine.laneAcc
  refine h.laneIssue fun _ _ _ _ _ h₁ => ?_
  split
  · trivial
  · split
    · trivial
    · extract_lets
      split
      · trivial
      · split
        · exact h₁
        · exact hk _ _ _ _ _ h₁

theorem State.memWf.execAccrd {o} (h : s.memWf) : Result.memWf (execAccrd o s) := by
  unfold Machine.execAccrd
  refine h.laneAcc fun _ _ _ _ _ h₁ => ?_
  split
  · exact h₁
  · exact h₁.updSwath

theorem State.memWf.execAccwr {o} (h : s.memWf) : Result.memWf (execAccwr o s) :=
  h.laneAcc fun _ _ _ _ _ h₁ => h₁.updField

theorem State.memWf.execAccadd {o} (h : s.memWf) : Result.memWf (execAccadd o s) := by
  unfold Machine.execAccadd
  refine h.laneAcc fun _ _ _ _ _ h₁ => ?_
  split
  · exact h₁
  · split
    exact h₁.updField.updSwath

theorem memWf_litMeaning {i j m} (e : litMeaning i j = some m) (h : s.memWf) :
    Result.memWf (m s) := by
  cases j <;> cases e
  · exact h.addiWith
  · exact h.andiWith
  · exact h.oriWith
  · exact h.xoriWith
  · exact h.sltiWith
  · exact h.sltiuWith
  · exact h.muliWith
  iterate 7 exact h.scalarLoad
  iterate 4 exact h.scalarStore
  · exact h.scratchLoadWith
  · exact h.scratchStoreWith
  · exact h.constLoadWith
  · exact h.jalrWith

/-! ### Literals (Machine/ScalarLit) -/

theorem State.memWf.execLit {i} (h : s.memWf) : Result.memWf (execLit i s) := by
  unfold Machine.execLit
  split
  · trivial
  · split
    · exact h.scalarFault
    next t heq => exact (congrArg Fetched.memWf heq).mp h.fetchScalar
    next v t heq =>
      have ht : t.memWf := (congrArg Fetched.memWf heq).mp h.fetchScalar
      split
      · exact ht.scalarFault
      · split
        next hm => exact memWf_litMeaning hm ht
        · exact ht.scalarFault

/-! ### The choice of the next instruction (Machine/Issue) -/

theorem State.memWf.issueScalar {F w} (h : s.memWf) : (issueScalar s F w).memWf := by
  unfold Machine.issueScalar
  split
  · exact h.scalarFault
  next heq => exact (congrArg Fetched.memWf heq).mp h.fetchScalar
  next s₂ heq =>
    have h₂ : s₂.memWf := (congrArg Fetched.memWf heq).mp h.fetchScalar
    split
    · exact h₂
    · exact h₂.scalarFault

theorem State.memWf.issueLane {F w g second} (h : s.memWf) : (issueLane s F w g second).memWf := by
  unfold Machine.issueLane
  split
  · exact h.updSwath
  · split
    · exact h.laneFault
    next heq => exact (congrArg Fetched.memWf heq).mp h.fetchLane
    next s₁ heq =>
      have h₂ : s₁.memWf := (congrArg Fetched.memWf heq).mp h.fetchLane
      split
      · exact h₂
      · exact h₂.laneFault

theorem State.memWf.nextIssue (h : s.memWf) : (nextIssue s).memWf := by
  unfold Machine.nextIssue
  split
  · exact h.issueLane
  · split
    · exact h.issueScalar
    · exact h

theorem State.memWf.wakeAll (h : s.memWf) : s.wakeAll.memWf :=
  h.wakeWaitms.wakeExports.wakeOwn.settleRetired

theorem State.memWf.rest (h : s.memWf) : s.rest.memWf := State.memWf.wakeAll h

theorem Result.memWf.restAfter {a : Result} (h : Result.memWf a) : Result.memWf (restAfter a) := by
  unfold Machine.restAfter
  split
  · exact State.memWf.rest h
  · trivial
  · trivial

theorem Result.memWf.wakeAfter {a : Result} (h : Result.memWf a) : Result.memWf (wakeAfter a) := by
  unfold Machine.wakeAfter
  split
  · exact State.memWf.wakeAll h
  · trivial
  · trivial

theorem State.memWf.runPending {p} (h : s.memWf) : Result.memWf (runPending p s) := by
  unfold Machine.runPending
  split
  · exact h.execPagerCompleteRetry
  · exact h.execPagerCompleteBind
  · exact h.execPagerCompleteTerminal
  · exact h.execPagerCompleteReserved
  · exact h.execPagerWindowWrite
  · exact h.execCheckpointStart
  · exact h.execLeaseDbaseWrite
  · exact h.execRouteWrite
  · exact h.execFrameRoleWrite
  · exact h.execLeaseExpire
  · exact h.execLeaseWarn
  · exact h.execLeaseWarnRepeat
  · exact h.execCandidateAges
  · exact h.execWaitmReread
  · exact h.retryExport

/-! ### The dispatch and the step (Machine/Dispatch, Machine/Step) -/

theorem State.memWf.exec {i} (h : s.memWf) : Result.memWf (exec i s) := by
  cases i with
  | add => exact h.execAdd
  | sub => exact h.execSub
  | mul => exact h.execMul
  | mulh => exact h.execMulh
  | mulhu => exact h.execMulhu
  | div => exact h.execDiv
  | divu => exact h.execDivu
  | rem => exact h.execRem
  | remu => exact h.execRemu
  | and => exact h.execAnd
  | or => exact h.execOr
  | xor => exact h.execXor
  | shl => exact h.execShl
  | shr => exact h.execShr
  | sar => exact h.execSar
  | min => exact h.execMin
  | minu => exact h.execMinu
  | max => exact h.execMax
  | maxu => exact h.execMaxu
  | cmp => exact h.execCmp
  | sel => exact h.execSel
  | clz => exact h.execClz
  | ctz => exact h.execCtz
  | popc => exact h.execPopc
  | addi => exact h.execAddi
  | andi => exact h.execAndi
  | ori => exact h.execOri
  | xori => exact h.execXori
  | shli => exact h.execShli
  | shri => exact h.execShri
  | sari => exact h.execSari
  | slti => exact h.execSlti
  | sltiu => exact h.execSltiu
  | muli => exact h.execMuli
  | movpc => exact h.execMovpc
  | ldb => exact h.execLdb
  | ldbu => exact h.execLdbu
  | ldh => exact h.execLdh
  | ldhu => exact h.execLdhu
  | ldw => exact h.execLdw
  | ldwu => exact h.execLdwu
  | ldd => exact h.execLdd
  | stb => exact h.execStb
  | sth => exact h.execSth
  | stw => exact h.execStw
  | std => exact h.execStd
  | lds => exact h.execLds
  | sts => exact h.execSts
  | ldc => exact h.execLdc
  | beq => exact h.execBeq
  | bne => exact h.execBne
  | blt => exact h.execBlt
  | bge => exact h.execBge
  | bltu => exact h.execBltu
  | bgeu => exact h.execBgeu
  | jal => exact h.execJal
  | jalr => exact h.execJalr
  | lrun => exact h.execLrun
  | lgo => exact h.execLgo
  | lwait => exact h.execLwait
  | movxw => exact h.execMovxw
  | movwx => exact h.execMovwx
  | setfmt => exact h.execSetfmt
  | bara => exact h.execBara
  | barw => exact h.execBarw
  | bars => exact h.execBars
  | waitm => exact h.execWaitm
  | yield => exact h.execYield
  | exit => exact h.execExit
  | mloadFp => exact h.execMloadFp
  | mloadTern => exact h.execMloadTern
  | mflipFp => exact h.execMflipFp
  | mflipTern => exact h.execMflipTern
  | mmul => exact h.execMmul
  | mtern => exact h.execMtern
  | mzero => exact h.execMzero
  | mdrain => exact h.execMdrain
  | mfence => exact h.execMfence
  | mwait => exact h.execMwait
  | mgrow => exact h.execMgrow
  | cpgo => exact h.execCpgo
  | waitc => exact h.execWaitc
  | pbinit => exact h.execPbinit
  | pbarv => exact h.execPbarv
  | pbwait => exact h.execPbwait
  | atomAdd => exact h.execAtomAdd
  | atomXchg => exact h.execAtomXchg
  | atomMin => exact h.execAtomMin
  | atomMax => exact h.execAtomMax
  | atomUmin => exact h.execAtomUmin
  | atomUmax => exact h.execAtomUmax
  | atomAnd => exact h.execAtomAnd
  | atomOr => exact h.execAtomOr
  | atomXor => exact h.execAtomXor
  | atomCas => exact h.execAtomCas
  | ldacq => exact h.execLdacq
  | strel => exact h.execStrel
  | fenceFull => exact h.execFenceFull
  | fenceAcq => exact h.execFenceAcq
  | fenceRel => exact h.execFenceRel
  | cwb => exact h.execCwb
  | cinv => exact h.execCinv
  | cwbi => exact h.execCwbi
  | pfh => exact h.execPfh
  | wpost => exact h.execWpost
  | wget => exact h.execWget
  | wcntw => exact h.execWcntw
  | sigrel => exact h.execSigrel
  | sigacq => exact h.execSigacq
  | mfsr => exact h.execMfsr
  | mtsr => exact h.execMtsr
  | trap => exact h.execTrap
  | tret => exact h.execTret
  | trun => exact h.execTrun
  | rgn => exact h.execRgn
  | mapft => exact h.execMapft
  | park => exact h.execPark
  | parkTerm => exact h.execParkTerm
  | tlbiR => exact h.execTlbiR
  | tlbiCtx => exact h.execTlbiCtx
  | brkpt => exact h.execBrkpt
  | pgfill => exact h.execPgfill
  | pgevict => exact h.execPgevict
  | pgmove => exact h.execPgmove
  | pgupg => exact h.execPgupg
  | leaseopRenew => exact h.execLeaseopRenew
  | leaseopQuery => exact h.execLeaseopQuery
  | leaseopRelease => exact h.execLeaseopRelease
  | leaseopAckwarn => exact h.execLeaseopAckwarn
  | cins => exact h.execCins
  | cnode => exact h.execCnode
  | cref => exact h.execCref
  | cunref => exact h.execCunref
  | cswap => exact h.execCswap
  | cbind => exact h.execCbind
  | cunbind => exact h.execCunbind
  | ccopy => exact h.execCcopy
  | cstat => exact h.execCstat
  | ctxnew => exact h.execCtxnew
  | ctxgrant => exact h.execCtxgrant
  | ctxrevoke => exact h.execCtxrevoke
  | ctxbudg => exact h.execCtxbudg
  | ctxq => exact h.execCtxq
  | ctxinfo => exact h.execCtxinfo
  | ctxkill => exact h.execCtxkill
  | rflt => exact h.execRflt
  | lit => exact h.execLit
  | iadd => exact h.execIadd
  | isub => exact h.execIsub
  | imul => exact h.execImul
  | imulh => exact h.execImulh
  | imad => exact h.execImad
  | idiv => exact h.execIdiv
  | irem => exact h.execIrem
  | imin => exact h.execImin
  | imax => exact h.execImax
  | laneAnd => exact h.execLaneAnd
  | laneOr => exact h.execLaneOr
  | laneXor => exact h.execLaneXor
  | laneShl => exact h.execLaneShl
  | laneShr => exact h.execLaneShr
  | bfe => exact h.execBfe
  | bfi => exact h.execBfi
  | lanePopc => exact h.execLanePopc
  | laneClz => exact h.execLaneClz
  | isetp => exact h.execIsetp
  | fadd => exact h.execFadd
  | fsub => exact h.execFsub
  | fmul => exact h.execFmul
  | ffma => exact h.execFfma
  | fmin => exact h.execFmin
  | fmax => exact h.execFmax
  | frcp => exact h.execFrcp
  | fsqrt => exact h.execFsqrt
  | frsq => exact h.execFrsq
  | fexp2 => exact h.execFexp2
  | flog2 => exact h.execFlog2
  | fsetp => exact h.execFsetp
  | padd => exact h.execPadd
  | psub => exact h.execPsub
  | pmul => exact h.execPmul
  | pfma => exact h.execPfma
  | pmin => exact h.execPmin
  | pmax => exact h.execPmax
  | dotb => exact h.execDotb
  | doth => exact h.execDoth
  | cvt => exact h.execCvt
  | cvtn => exact h.execCvtn
  | cvtw => exact h.execCvtw
  | laneMov => exact h.execLaneMov
  | laneSel => exact h.execLaneSel
  | xlane => exact h.execXlane
  | lred => exact h.execLred
  | vote => exact h.execVote
  | kmix => exact h.execKmix
  | lmfsr => exact h.execLmfsr
  | scan => exact h.execScan
  | bru => exact h.execBru
  | brd => exact h.execBrd
  | join => exact h.execJoin
  | lfmt => exact h.execLfmt
  | lstop => exact h.execLstop
  | lhold => exact h.execLhold
  | lsig => exact h.execLsig
  | laneBara => exact h.execLaneBara
  | laneBarw => exact h.execLaneBarw
  | laneBars => exact h.execLaneBars
  | lnop => exact h.execLnop
  | laneLds => exact h.execLaneLds
  | laneSts => exact h.execLaneSts
  | ldg => exact h.execLdg
  | stg => exact h.execStg
  | laneLdc => exact h.execLaneLdc
  | laneAtomAdd => exact h.execLaneAtomAdd
  | laneAtomMin => exact h.execLaneAtomMin
  | laneAtomMax => exact h.execLaneAtomMax
  | laneAtomUmin => exact h.execLaneAtomUmin
  | laneAtomUmax => exact h.execLaneAtomUmax
  | laneAtomAnd => exact h.execLaneAtomAnd
  | laneAtomOr => exact h.execLaneAtomOr
  | laneAtomXor => exact h.execLaneAtomXor
  | laneAtomXchg => exact h.execLaneAtomXchg
  | laneAtomCas => exact h.execLaneAtomCas
  | laneAtomFadd => exact h.execLaneAtomFadd
  | laneLdacq => exact h.execLaneLdacq
  | laneStrel => exact h.execLaneStrel
  | laneFenceFull => exact h.execLaneFenceFull
  | laneFenceAcq => exact h.execLaneFenceAcq
  | laneFenceRel => exact h.execLaneFenceRel
  | accrd => exact h.execAccrd
  | accwr => exact h.execAccwr
  | accadd => exact h.execAccadd
  | ldgT => exact h.execLdgT
  | scalarIssueDecision => exact h.execScalarIssueDecision
  | laneIssueDecision => exact h.execLaneIssueDecision
  | candidateAges => exact h.execCandidateAges
  | variableLatencyResult => exact h.execVariableLatencyResult
  | lwaitResume => exact h.execLwaitResume
  | barrierWaitResume => exact h.execBarrierWaitResume
  | waitmReread => exact h.execWaitmReread
  | pbwaitResume => exact h.execPbwaitResume
  | wcntwResume => exact h.execWcntwResume
  | mwaitResume => exact h.execMwaitResume
  | waitcResume => exact h.execWaitcResume
  | exitResume => exact h.execExitResume
  | armExchange => exact h.execArmExchange
  | handlerEntry => exact h.execHandlerEntry
  | pendingFaultTaken => exact h.execPendingFaultTaken
  | ringWriteRetry => exact h.execRingWriteRetry
  | fieldPlace => exact h.execFieldPlace
  | fieldSwapOut => exact h.execFieldSwapOut
  | urgentClaim => exact h.execUrgentClaim
  | registerLineScanOut => exact h.execRegisterLineScanOut
  | tenantSliceEnd => exact h.execTenantSliceEnd
  | reconvWaitExpire => exact h.execReconvWaitExpire
  | budgetPeriodBoundary => exact h.execBudgetPeriodBoundary
  | matrixKstepComplete => exact h.execMatrixKstepComplete
  | matrixOpComplete => exact h.execMatrixOpComplete
  | matrixOpPause => exact h.execMatrixOpPause
  | chainCopy => exact h.execChainCopy
  | chainGather => exact h.execChainGather
  | chainLoop => exact h.execChainLoop
  | chainSkipif => exact h.execChainSkipif
  | chainArrive => exact h.execChainArrive
  | chainEnd => exact h.execChainEnd
  | chainComplete => exact h.execChainComplete
  | wpostComplete => exact h.execWpostComplete
  | wgetComplete => exact h.execWgetComplete
  | pfhComplete => exact h.execPfhComplete
  | ccopyComplete => exact h.execCcopyComplete
  | walkComplete => exact h.execWalkComplete
  | cacheWriteback => exact h.execCacheWriteback
  | cacheEvict => exact h.execCacheEvict
  | pageFillStart => exact h.execPageFillStart
  | pageFillComplete => exact h.execPageFillComplete
  | serviceRecordAdmit => exact h.execServiceRecordAdmit
  | deq => exact h.execDeq
  | deqTimeout => exact h.execDeqTimeout
  | pagerCompleteRetry => exact h.execPagerCompleteRetry
  | pagerCompleteBind => exact h.execPagerCompleteBind
  | pagerCompleteTerminal => exact h.execPagerCompleteTerminal
  | pagerCompleteReserved => exact h.execPagerCompleteReserved
  | checkpointStart => exact h.execCheckpointStart
  | checkpointComplete => exact h.execCheckpointComplete
  | leaseDbaseWrite => exact h.execLeaseDbaseWrite
  | routeWrite => exact h.execRouteWrite
  | frameRoleWrite => exact h.execFrameRoleWrite
  | pagerWindowWrite => exact h.execPagerWindowWrite
  | pagerRestart => exact h.execPagerRestart
  | leaseWarn => exact h.execLeaseWarn
  | leaseWarnRepeat => exact h.execLeaseWarnRepeat
  | leaseExpire => exact h.execLeaseExpire
  | grant => exact h.execGrant
  | renewAck => exact h.execRenewAck
  | renewNak => exact h.execRenewNak
  | revoke => exact h.execRevoke
  | revokeAck => exact h.execRevokeAck
  | releaseAck => exact h.execReleaseAck
  | nodeDown => exact h.execNodeDown
  | leaseMessageInvalid => exact h.execLeaseMessageInvalid
  | leaseopTimeout => exact h.execLeaseopTimeout
  | pgmoveSwitch => exact h.execPgmoveSwitch
  | upg => exact h.execUpg
  | bisnpinvblk => exact h.execBisnpinvblk
  | birspiblk => exact h.execBirspiblk
  | upgCmp => exact h.execUpgCmp
  | snoopTimeout => exact h.execSnoopTimeout
  | bisnpdata => exact h.execBisnpdata
  | hostSnoopResponse => exact h.execHostSnoopResponse
  | cxlMemRequest => exact h.execCxlMemRequest
  | unsupportedFeatureRequest => exact h.execUnsupportedFeatureRequest
  | wreg => exact h.execWreg
  | wregAck => exact h.execWregAck
  | wregNak _ _ reason => exact h.execWregNak reason
  | wregTimeout => exact h.execWregTimeout
  | vendorMessageInvalid => exact h.execVendorMessageInvalid
  | apertureAccess => exact h.execApertureAccess
  | apertureResponse => exact h.execApertureResponse
  | windowArrivalWrite => exact h.execWindowArrivalWrite
  | heartbeat => exact h.execHeartbeat
  | agentDead => exact h.execAgentDead
  | teaselDirectoryWalk => exact h.execTeaselDirectoryWalk
  | directoryEccError => exact h.execDirectoryEccError
  | portRetrain => exact h.execPortRetrain
  | contentReclaim => exact h.execContentReclaim
  | contextScrubUnit => exact h.execContextScrubUnit
  | contextScrubComplete => exact h.execContextScrubComplete
  | regionScrubComplete => exact h.execRegionScrubComplete
  | enqueue => exact h.execEnqueue
  | barUnsupportedAccess vf bar off => exact h.execBarUnsupportedAccess vf bar off
  | agentClaim => exact h.execAgentClaim
  | launchCheck => exact h.execLaunchCheck
  | manageExecute => exact h.execManageExecute
  | launchComplete => exact h.execLaunchComplete
  | agentMismatch => exact h.execAgentMismatch
  | debugStop => exact h.execDebugStop
  | debugRelease => exact h.execDebugRelease
  | counterClear => exact h.execCounterClear
  | logModeWrite => exact h.execLogModeWrite
  | counterBankWrite => exact h.execCounterBankWrite
  | deviceReset => exact h.execDeviceReset
  | bootStepComplete => exact h.execBootStepComplete
  | mctpControl => exact h.execMctpControl
  | getVersion => exact h.execGetVersion
  | getCapabilities => exact h.execGetCapabilities
  | negotiateAlgorithms => exact h.execNegotiateAlgorithms
  | getDigests => exact h.execGetDigests
  | getCertificate => exact h.execGetCertificate
  | challenge => exact h.execChallenge
  | getMeasurements => exact h.execGetMeasurements
  | keyExchange => exact h.execKeyExchange
  | finish => exact h.execFinish
  | endSession => exact h.execEndSession
  | regionCreate => exact h.execRegionCreate
  | regionDestroy => exact h.execRegionDestroy
  | vfBind => exact h.execVfBind
  | llcCarve => exact h.execLlcCarve
  | bankCarve => exact h.execBankCarve
  | logRead => exact h.execLogRead
  | updateStage => exact h.execUpdateStage
  | sensorRead => exact h.execSensorRead
  | keyReplace => exact h.execKeyReplace
  | powerSample => exact h.execPowerSample
  | temperatureSample => exact h.execTemperatureSample
  | correctedError => exact h.execCorrectedError
  | uncorrectableError => exact h.execUncorrectableError
  | unitTestComplete => exact h.execUnitTestComplete
  | tagParityError => exact h.execTagParityError
  | heartbeatReceive => exact h.execHeartbeatReceive
  | hostLinkDown => exact h.execHostLinkDown
  | powerLoss => exact h.execPowerLoss
  | localFrameScrub => exact h.execLocalFrameScrub
  | releasedBankZero => exact h.execReleasedBankZero
  | context0RingsSet => exact h.execContext0RingsSet

theorem State.memWf.step (h : s.memWf) : Result.memWf (step s) := by
  unfold Machine.step
  split
  next p r _ =>
    have hr : ({ s with agenda := r } : State).memWf := h
    exact hr.runPending
  · split
    · split
      next i t heq =>
        have ht : t.memWf := (congrArg Issue.memWf heq).mp h.nextIssue
        exact Result.memWf.restAfter ht.exec
      next t heq =>
        have ht : t.memWf := (congrArg Issue.memWf heq).mp h.nextIssue
        exact ht.rest
    · split
      · exact Result.memWf.wakeAfter h.tick.exec
      · exact h.tick

end Sys2Proof.Machine

/-- Settles O59: `step` and every function it calls have a preservation lemma above, each proved along
the branches of its function; memory and the pool are written by the canonical operations of `Mem` alone. -/
theorem stepKeepsMemoryCanonical : Obligations.StepKeepsMemoryCanonical :=
  fun _ t h e => Sys2Proof.Machine.Result.memWf_iff.mp h.step t e

/-! # The life of a lease (O32)

O32 speaks of every `State`, and a map of leases is a list: a read searches it from its head, and `mput`
keeps its keys ascending only where they ascend already. In a map that is out of order a write can put its
entry ahead of one that the search met first. Where two leases are bound to the same units, the lease that is
revoked so becomes the one that `coveringLease` finds, and dirty bytes that were not its own before are its
own after. The REVOKE clause asks of the state before that no such bytes stand; `settleRevoke` looks at the
state after, and keeps REVOKE_ACK due. -/

namespace Sys2Proof.Machine
open Sys2Proof

/-- A service record changes the pagers and draws free values, and nothing else. -/
theorem State.service_frame (s : State) (die : Nat) (q : ServiceReq) :
    ∃ ps c, s.service die q = { s with pagers := ps, freeCtr := c } := by
  unfold State.service
  split
  · exact ⟨s.pagers, s.freeCtr, rfl⟩
  · split
    · exact ⟨_, s.freeCtr, rfl⟩
    · unfold State.takeIn
      split
      · exact ⟨_, s.freeCtr, rfl⟩
      · dsimp only
        split
        · exact ⟨_, _, rfl⟩
        · exact ⟨_, s.freeCtr, rfl⟩

/-- A drain of a lease none of whose copies can be written back changes nothing. -/
theorem State.drainLease_of_none {s : State} {n : Nat}
    (h1 : ∀ c ∈ s.l1, drains s n c = false) (h2 : ∀ c ∈ s.l2, drains s n c = false) :
    s.drainLease n = s := by
  have hback (l : List Copy) (h : ∀ c ∈ l, drains s n c = false) :
      l.filter (fun c => drains s n c && c.dirty != 0) = [] :=
    List.filter_eq_nil_iff.mpr fun c hc => by simp [h c hc]
  have hstay (l : List Copy) (h : ∀ c ∈ l, drains s n c = false) :
      l.filter (fun c => !drains s n c) = l :=
    List.filter_eq_self.mpr fun c hc => by simp [h c hc]
  simp only [State.drainLease, State.flush, State.wbL1s, State.wbL2s, hback _ h1, hback _ h2,
    List.foldl_nil, hstay _ h1, hstay _ h2]

/-- REVOKE_ACK waits for dirty bytes of the lease that no frame stands behind and no port carries (R307). -/
theorem State.settleRevoke_of_stirs {s : State} {n : Nat} (h1 : ∀ c ∈ s.l1, drains s n c = false)
    (h2 : ∀ c ∈ s.l2, drains s n c = false) (hstirs : leaseStirs s n = true) :
    s.settleRevoke n = s := by
  simp [State.settleRevoke, State.drainLease_of_none h1 h2, hstirs]

/-- A LIVE lease of node 9, bound to the first 16 units of the pool. -/
def firstUnitsLease : Lease :=
  { Lease.zero with st := .live, node := 9, dbase := poolBase, len := 16 }

/-- A dirty byte of the first pool line in a core L1. -/
def strandedStore : Copy :=
  { unit := 0, ctx := 0, va := 0, dpa := poolBase / 128, r := true, w := true, x := false, s := false,
    cls := 0, valid := 1, dirty := 1, data := 7 }

/-- Leases 5 and 3, listed in this order, are bound to the same units, whose stores stand in an L1 since
the only port of their node is fenced. -/
def unsortedLeases : State :=
  { State.reset with
    leases := [(5, firstUnitsLease), (3, firstUnitsLease)],
    nodes := [(9, { Node.zero with route := 1 })], l1 := [strandedStore],
    heath := { Heath.reset with fenced := 1 } }

/-- Before the revocation lease 5 is found first, so that no copy is lease 3's. -/
theorem unsortedLeases_frameless (c : Copy) (h : c ∈ unsortedLeases.l1 ∨ c ∈ unsortedLeases.l2) :
    frameless unsortedLeases 3 c = false := by
  obtain h | h := h
  · obtain rfl : c = strandedStore := List.mem_singleton.mp h
    decide
  · exact absurd h List.not_mem_nil

/-- The same with lease 3 revoked, as an event record of it leaves the pagers: the entry written stands
ahead of lease 5's. -/
def unsortedLeasesRevoked (ps : NMap Pager) (c : Nat) : State :=
  { unsortedLeases with
    leases := (3, { firstUnitsLease with st := .revoked, remain := 0, ackDue := true }) ::
      unsortedLeases.leases,
    pagers := ps, freeCtr := c }

/-- No port carries the store to the pool. -/
theorem unsortedLeasesRevoked_drains (ps : NMap Pager) (c : Nat) :
    drains (unsortedLeasesRevoked ps c) 3 strandedStore = false := by
  change drains (unsortedLeasesRevoked [] 0) 3 strandedStore = false
  decide

/-- Lease 3 is found first now: the store is its own, and waits for the fenced port. -/
theorem unsortedLeasesRevoked_settleRevoke (ps : NMap Pager) (c : Nat) :
    (unsortedLeasesRevoked ps c).settleRevoke 3 = unsortedLeasesRevoked ps c :=
  State.settleRevoke_of_stirs (List.forall_mem_singleton.mpr (unsortedLeasesRevoked_drains ps c))
    (List.forall_mem_nil _) rfl

theorem unsortedLeases_revoke_ackDue {t : State} (h : exec (.revoke 3) unsortedLeases = .next t) :
    (t.lease 3).ackDue = true := by
  obtain ⟨ps, c, hrecord⟩ := State.service_frame
    (unsortedLeasesRevoked unsortedLeases.pagers unsortedLeases.freeCtr) 3
    { kind := 2, lease := 3, event := 2, coords := 0 }
  have hrevoke : exec (.revoke 3) unsortedLeases = .next
      (((unsortedLeasesRevoked unsortedLeases.pagers unsortedLeases.freeCtr).service 3
        { kind := 2, lease := 3, event := 2, coords := 0 }).settleRevoke 3) := rfl
  have hsettle := unsortedLeasesRevoked_settleRevoke ps c
  rw [hrecord] at hrevoke
  obtain rfl := Host.Outcome.next.inj ((hrevoke.trans (congrArg _ hsettle)).symm.trans h)
  rfl

end Sys2Proof.Machine

/-- Refutes O32 in its REVOKE clause: in `unsortedLeases`, whose map of leases is out of order, no frame and
no copy is lease 3's, and its revocation leaves REVOKE_ACK due. -/
theorem not_leasesNodesAndRoles : ¬ Obligations.LeasesNodesAndRoles := by
  rintro ⟨hlives, -⟩
  obtain ⟨-, -, -, -, -, ⟨hrevoke, -⟩, -⟩ :=
    hlives Sys2Proof.Machine.unsortedLeases 3 0 0 0 0 false
  obtain ⟨t, ht, -, -, hsettled, -⟩ := hrevoke (.inl rfl)
  obtain ⟨hnotDue, -⟩ := hsettled rfl Sys2Proof.Machine.unsortedLeases_frameless
  exact Bool.false_ne_true
    (hnotDue.symm.trans (Sys2Proof.Machine.unsortedLeases_revoke_ackDue ht))

/-! # Heath's requests and carves (O52)

Each command of Heath is a reply, a refusal or a carve; below, what each of these leaves and changes is said
once, and every clause is one of them after `State.managed` has let the command through. -/

namespace Sys2Proof.Machine
open Sys2Proof Sys2Proof.Claims

/-! ### Lists of bytes, of log entries and of banks -/

@[simp] theorem leBytes_length (n v : Nat) : (leBytes n v).length = n := by
  induction n generalizing v with
  | zero => rfl
  | succ n ih => simp [leBytes, ih]

theorem LogEnt.bytes_length (e : LogEnt) : e.bytes.length = 32 := by simp [LogEnt.bytes]

/-- The newest entry is never the one that a full log gives up (R429). -/
theorem newestEntries_concat_getLast? (l : List LogEnt) (e : LogEnt) :
    (newestEntries (l ++ [e])).getLast? = some e := by
  unfold newestEntries
  split
  · simp
  next hfull =>
    have hne : l ≠ [] := by rintro rfl; simp at hfull
    simp [List.tail_append_of_ne_nil hne]

theorem mem_bankList {m : W64} {b : Nat} : b ∈ bankList m ↔ b < 64 ∧ m.getLsbD b = true := by
  simp [bankList]

/-! ### Memory that is zeroed -/

theorem Mem.rd_eq_zero_of_wfFrom {m : Mem} {lo x : Nat} (h : Mem.wfFrom (some lo) m = true)
    (hx : x ≤ lo) : m.rd x = 0 := by
  cases m with
  | nil => rfl
  | cons c r =>
    obtain ⟨a, b⟩ := c
    simp only [Mem.wfFrom, Option.all_some, Bool.and_eq_true, decide_eq_true_eq] at h
    simp [Mem.rd, show x < a by omega]

/-- A canonical memory reads through a choice of its addresses as itself there and as 0 elsewhere. -/
theorem Mem.rd_filter (p : Nat → Bool) (m : Mem) (x : Nat) (h : m.wf = true) :
    Mem.rd (m.filter (fun c => p c.1)) x = if p x then m.rd x else 0 := by
  suffices H : ∀ lo, Mem.wfFrom lo m = true →
      Mem.rd (m.filter (fun c => p c.1)) x = if p x then m.rd x else 0 from H none h
  clear h
  induction m with
  | nil => simp [Mem.rd]
  | cons c r ih =>
    obtain ⟨a, b⟩ := c
    intro lo hwf
    simp only [Mem.wfFrom, Bool.and_eq_true] at hwf
    have hbelow : x ≤ a → Mem.rd r x = 0 := Mem.rd_eq_zero_of_wfFrom hwf.2
    rw [List.filter_cons]
    rcases Nat.lt_trichotomy x a with hx | rfl | hx
    · have hr := hbelow (Nat.le_of_lt hx)
      split <;> simp_all [Mem.rd, ih _ hwf.2]
    · have hr := hbelow (Nat.le_refl _)
      split <;> simp_all [Mem.rd, ih _ hwf.2]
    · have hlt : ¬ x < a := by omega
      split <;> simp [Mem.rd, hlt, Nat.ne_of_gt hx, ih _ hwf.2]

theorem Mem.rd_zero {m : Mem} (h : m.wf = true) (a n x : Nat) :
    (m.zero a n).rd x = if a ≤ x ∧ x < a + n then 0 else m.rd x := by
  rw [Mem.zero, Mem.rd_filter (fun c => decide (c < a) || decide (a + n ≤ c)) m x h]
  by_cases hx : a ≤ x ∧ x < a + n
  · rw [if_pos hx, if_neg (by simp; omega)]
  · rw [if_neg hx, if_pos (by simp; omega)]

/-! ### Commands that are heard, replies and refusals -/

/-- A command that Heath hears is performed (R426, R427). -/
theorem managed_of_heard {s : State} {via : Via} (h : Heard s via) (act : Result) :
    s.managed via act = act := by
  obtain ⟨hheld, hboot, hvia⟩ := h
  have haccepted : viaAccepted via = true := by obtain rfl | rfl := hvia <;> rfl
  simp [State.managed, hheld, hboot, haccepted]

theorem reply_of_booted {s : State} (h : s.heath.bootStep ≠ 0) (kind : Nat) (d : List Byte) :
    s.reply kind d = s.send (.answer kind d) := if_neg h

theorem reply_of_unbooted {s : State} (h : s.heath.bootStep = 0) (kind : Nat) (d : List Byte) :
    s.reply kind d = s := if_pos h

/-- An answer of DSP0236 or DSP0274 goes out once Heath's own image runs, and changes nothing else (R426). -/
theorem spdm_answers (s : State) (kind : Nat) (head : List Byte) :
    SameCores s (s.spdm kind head) ∧ SameBytes s (s.spdm kind head) ∧
      (s.spdm kind head).heath = s.heath ∧
      (s.heath.bootStep = 0 → (s.spdm kind head).outbox = s.outbox) ∧
      (1 ≤ s.heath.bootStep →
        (s.spdm kind head).outbox = s.outbox ++ [.answer kind (head ++ Config.spdmAnswer s.freeCtr)]) := by
  unfold State.spdm
  by_cases h : s.heath.bootStep = 0
  · rw [reply_of_unbooted h]
    exact ⟨⟨rfl, rfl, rfl, rfl⟩, fun _ => ⟨rfl, rfl⟩, rfl, fun _ => rfl, fun h1 => by omega⟩
  · rw [reply_of_booted h]
    exact ⟨⟨rfl, rfl, rfl, rfl⟩, fun _ => ⟨rfl, rfl⟩, rfl, fun h0 => absurd h0 h, fun _ => rfl⟩

/-- An instruction that is refused changes nothing but the log, which says so (R426). -/
theorem refuse_refused {s : State} {i : Instr} {ctx detail : Nat}
    (h : exec i s = .next (s.refuse ctx detail)) :
    ∃ t, exec i s = .next t ∧ SameCores s t ∧ SameBytes s t ∧ t.heath.carved = s.heath.carved ∧
      t.heath.llcCarve = s.heath.llcCarve ∧ ∃ e, t.heath.log.getLast? = some e ∧ e.event = 7 :=
  ⟨_, h, ⟨rfl, rfl, rfl, rfl⟩, fun _ => ⟨rfl, rfl⟩, rfl, rfl, _,
    newestEntries_concat_getLast? _ _, rfl⟩

/-! ### Requests (R14, R426, R429) -/

theorem logRead_answers {s : State} {via : Via} (h : Heard s via) (n : Nat) :
    ∃ t d, exec (.logRead via n) s = .next t ∧ t.outbox = s.outbox ++ [.answer 27 d] ∧
      t.heath = s.heath ∧ SameCores s t ∧ SameBytes s t ∧
      ∀ e, s.heath.log[n]? = some e → d = e.bytes ∧ d.length = 32 := by
  rw [exec_logRead, execLogRead, managed_of_heard h, reply_of_booted h.2.1]
  refine ⟨_, _, rfl, rfl, rfl, ⟨rfl, rfl, rfl, rfl⟩, fun _ => ⟨rfl, rfl⟩, fun e he => ?_⟩
  simp [he, LogEnt.bytes_length]

theorem sensorRead_answers {s : State} {via : Via} (h : Heard s via) (n : Nat) :
    ∃ t d, exec (.sensorRead via n) s = .next t ∧ t.outbox = s.outbox ++ [.answer 28 d] ∧
      d.length = 8 ∧ t.heath = s.heath ∧ SameCores s t ∧ SameBytes s t := by
  rw [exec_sensorRead, execSensorRead, managed_of_heard h, reply_of_booted h.2.1]
  exact ⟨_, _, rfl, rfl, leBytes_length _ _, rfl, ⟨rfl, rfl, rfl, rfl⟩, fun _ => ⟨rfl, rfl⟩⟩

/-- The head of the answer to an attestation request: the versions measured, or the algorithm offered. -/
def attestationHead (s : State) : Instr → List Byte
  | .getMeasurements => [0, 1, 2].flatMap (fun m => leBytes 4 (s.heath.image m).active.toNat)
  | .negotiateAlgorithms => Config.mlDsa44Sha3
  | _ => []

/-- The attestation requests that change nothing of Heath, with the kinds of their answers. -/
def attestations : List (Instr × Nat) :=
  [(.mctpControl, 16), (.getVersion, 17), (.getCapabilities, 18), (.negotiateAlgorithms, 19),
    (.getDigests, 20), (.getCertificate, 21), (.challenge, 22), (.getMeasurements, 23), (.finish, 25)]

theorem exec_attestation {i : Instr} {k : Nat} (h : (i, k) ∈ attestations) (s : State) :
    exec i s = .next (s.spdm k (attestationHead s i)) := by
  simp only [attestations, List.mem_cons, Prod.mk.injEq, List.not_mem_nil, or_false] at h
  obtain ⟨rfl, rfl⟩ | ⟨rfl, rfl⟩ | ⟨rfl, rfl⟩ | ⟨rfl, rfl⟩ | ⟨rfl, rfl⟩ | ⟨rfl, rfl⟩ | ⟨rfl, rfl⟩ |
    ⟨rfl, rfl⟩ | ⟨rfl, rfl⟩ := h <;> rfl

theorem exec_keyExchange_of_booted {s : State} (h : 1 ≤ s.heath.bootStep) :
    exec .keyExchange s =
      .next ({ s with heath := { s.heath with session := true } }.spdm 24 []) :=
  if_neg (Nat.one_le_iff_ne_zero.mp h)

theorem exec_endSession_of_booted {s : State} (h : 1 ≤ s.heath.bootStep) :
    exec .endSession s =
      .next ({ s with heath := { s.heath with session := false } }.spdm 26 []) :=
  if_neg (Nat.one_le_iff_ne_zero.mp h)

/-! ### Carving of the LLC part (R255, R427) -/

theorem llcCarve_refused {s : State} {via : Via} {die mib : Nat} (h : Heard s via)
    (hbad : s.heath.bootStep < 4 ∨ 4 ≤ die ∨ 128 < mib ∨ mib % 16 ≠ 0) :
    exec (.llcCarve via die mib) s = .next (s.refuse 0 die) := by
  rw [exec_llcCarve, execLlcCarve, managed_of_heard h]
  exact if_pos (by simpa [or_assoc] using hbad)

/-- What a carve of a die's LLC part gives up reads 0, every other byte reads as before, and the part of no
other die changes. -/
theorem llcCarve_carves {s : State} {via : Via} {die mib : Nat} (h : Heard s via)
    (hboot : 4 ≤ s.heath.bootStep) (hdie : die < 4) (hmib : mib ≤ 128) (hstep : mib % 16 = 0)
    (hwf : s.mem.wf = true) :
    ∃ t, exec (.llcCarve via die mib) s = .next t ∧ t.llcCarved die = mib * 0x100000 ∧
      (∀ d, d ≠ die → t.llcCarved d = s.llcCarved d) ∧ t.pool = s.pool ∧ SameCores s t ∧
      (∀ a, llcBase + die * 0x8000000 + mib * 0x100000 ≤ a →
        a < llcBase + die * 0x8000000 + s.llcCarved die → t.mem.rd a = 0) ∧
      (∀ a, a < llcBase + die * 0x8000000 + mib * 0x100000 ∨
        llcBase + die * 0x8000000 + s.llcCarved die ≤ a → t.mem.rd a = s.mem.rd a) := by
  have hok : ¬(decide (s.heath.bootStep < 4) || decide (4 ≤ die) || decide (128 < mib) ||
      decide (mib % 16 ≠ 0)) = true := by simp; omega
  have hpart (d : Nat) : (mgetD (mput s.heath.llcCarve die mib) d 0) * 0x100000 =
      if d = die then mib * 0x100000 else s.llcCarved d := by
    rw [mgetD_mput]; split <;> rfl
  rw [exec_llcCarve, execLlcCarve, managed_of_heard h, if_neg hok]
  dsimp only
  split
  next hless =>
    refine ⟨_, rfl, (hpart die).trans (if_pos rfl), fun d hd => (hpart d).trans (if_neg hd), rfl,
      ⟨rfl, rfl, rfl, rfl⟩, fun a hlo hhi => ?_, fun a ha => ?_⟩
    all_goals
      dsimp only [State.llcCarved] at *
      rw [Mem.rd_zero hwf]
    · exact if_pos (by omega)
    · exact if_neg (by omega)
  next hmore =>
    refine ⟨_, rfl, (hpart die).trans (if_pos rfl), fun d hd => (hpart d).trans (if_neg hd), rfl,
      ⟨rfl, rfl, rfl, rfl⟩, fun a hlo hhi => ?_, fun _ _ => rfl⟩
    dsimp only [State.llcCarved] at hhi
    omega

/-! ### Carving of banks (R256, R427; notes/assumptions/92.md) -/

/-- The banks of a mask may be carved from a core: none is carved already or barred, and context 0 has granted
none to a child. -/
def BanksFree (s : State) (core : Nat) (m : W64) : Prop :=
  ∀ b < 64, m.getLsbD b = true → b ∉ s.carvedBanks core ∧ unitBarred s 2 (64 * core + b) = false ∧
    ∀ y ∈ s.children 0, (bankMask y.2.grants core).getLsbD b = false

/-- Banks that are not free are not carved. -/
theorem bankCarve_refused_of_not_free {s : State} {via : Via} {core : Nat} {m : W64} (h : Heard s via)
    (hfree : ¬BanksFree s core m) :
    exec (.bankCarve via core m false) s = .next (s.refuse 0 core) := by
  rw [exec_bankCarve, execBankCarve, managed_of_heard h]
  dsimp only
  split
  · rfl
  · refine (if_neg Bool.false_ne_true).trans (if_neg fun hall => hfree ?_)
    simpa [mem_bankList, BanksFree, and_assoc] using hall

theorem bankCarve_refused_of_early {s : State} {via : Via} {core : Nat} {m : W64} (h : Heard s via)
    (hearly : s.heath.bootStep < 4 ∨ 192 ≤ core) (release : Bool) :
    exec (.bankCarve via core m release) s = .next (s.refuse 0 core) := by
  rw [exec_bankCarve, execBankCarve, managed_of_heard h]
  exact if_pos (by simpa using hearly)

/-- Free banks appear ascending at the end of the SRAM part, where they read 0. -/
theorem bankCarve_carves {s : State} {via : Via} {core : Nat} {m : W64} (h : Heard s via)
    (hboot : 4 ≤ s.heath.bootStep) (hcore : core < 192) (hwf : s.mem.wf = true)
    (hfree : BanksFree s core m) :
    let n := (s.carvedBanks core).length
    let k := (bankList m).length
    let base := sramBase + core * 0x100000
    ∃ t, exec (.bankCarve via core m false) s = .next t ∧
      t.carvedBanks core = s.carvedBanks core ++ bankList m ∧
      (∀ i < 16384 * k, t.mem.rd (base + 16384 * n + i) = 0) ∧
      (∀ a, a < base + 16384 * n ∨ base + 16384 * (n + k) ≤ a → t.mem.rd a = s.mem.rd a) ∧
      t.pool = s.pool ∧ SameCores s t := by
  intro n k base
  have hlate : ¬(decide (s.heath.bootStep < 4) || decide (192 ≤ core)) = true := by simp; omega
  rw [exec_bankCarve, execBankCarve, managed_of_heard h]
  dsimp only
  rw [if_neg hlate, if_neg Bool.false_ne_true,
    if_pos (by simpa [mem_bankList, BanksFree, and_assoc] using hfree)]
  refine ⟨_, rfl, by simp [State.carvedBanks, mgetD], fun i hi => ?_, fun a ha => ?_,
    rfl, rfl, rfl, rfl, rfl⟩
  · exact (Mem.rd_zero hwf _ _ _).trans (if_pos (by omega))
  · exact (Mem.rd_zero hwf _ _ _).trans (if_neg (by omega))

/-- The banks of a mask may be released from a core: they are the last ones carved, and no range covers the
bytes that they hold. -/
def BanksReleasable (s : State) (core : Nat) (m : W64) : Prop :=
  let n := (s.carvedBanks core).length
  let k := (bankList m).length
  let base := sramBase + core * 0x100000
  k ≤ n ∧ (∀ b ∈ (s.carvedBanks core).drop (n - k), m.getLsbD b = true) ∧
    (0 < k → ∀ x ∈ s.ctxs, ∀ r ∈ x.2.ranges,
      base + 16384 * n ≤ r.dbase ∨ r.dbase + r.len * 65536 ≤ base + 16384 * (n - k))

/-- The model's check of a release. -/
theorem releaseCheck_iff (s : State) (core : Nat) (m : W64) :
    let old := s.carvedBanks core
    let n := old.length
    let k := (bankList m).length
    let base := sramBase + core * 0x100000
    ¬(decide (n < k) || !(old.drop (n - k)).all m.getLsbD ||
        (s.ctxs.any (fun x => x.2.ranges.any (fun e => decide (e.dbase < base + 16384 * n) &&
          decide (base + 16384 * (n - k) < e.dbase + e.len * 65536))) && k != 0)) = true ↔
      BanksReleasable s core m := by
  intro old n k base
  simp only [Bool.or_eq_true, Bool.and_eq_true, Bool.not_eq_true', decide_eq_true_eq, bne_iff_ne,
    List.any_eq_true, ← Bool.not_eq_true, List.all_eq_true, not_or, not_and, ne_eq,
    Classical.not_not, Nat.not_lt, BanksReleasable]
  constructor
  · rintro ⟨⟨hk, hlast⟩, hmiss⟩
    refine ⟨hk, hlast, fun hpos x hx r hr => ?_⟩
    obtain hlo | hafter := Nat.lt_or_ge r.dbase (base + 16384 * n)
    · obtain hhi | hbefore := Nat.lt_or_ge (base + 16384 * (n - k)) (r.dbase + r.len * 65536)
      · exact absurd (hmiss ⟨x, hx, r, hr, hlo, hhi⟩) (Nat.ne_of_gt hpos)
      · exact .inr hbefore
    · exact .inl hafter
  · rintro ⟨hk, hlast, hmiss⟩
    refine ⟨⟨hk, hlast⟩, fun ⟨x, hx, r, hr, hlo, hhi⟩ =>
      Classical.byContradiction fun hpos => ?_⟩
    obtain hafter | hbefore := hmiss (Nat.pos_of_ne_zero hpos) x hx r hr
    · exact absurd hlo (Nat.not_lt.mpr hafter)
    · exact absurd hhi (Nat.not_lt.mpr hbefore)

/-- Banks are released only from the end and while no range covers them. -/
theorem bankCarve_refused_of_not_releasable {s : State} {via : Via} {core : Nat} {m : W64}
    (h : Heard s via) (hkept : ¬BanksReleasable s core m) :
    exec (.bankCarve via core m true) s = .next (s.refuse 0 core) := by
  rw [exec_bankCarve, execBankCarve, managed_of_heard h]
  dsimp only
  split
  · rfl
  · exact (if_pos rfl).trans (if_pos (Classical.not_not.mp (mt (releaseCheck_iff s core m).mp hkept)))

/-- Banks that are released leave the end of the SRAM part, which reads 0 there, for Teasel to zero. -/
theorem bankCarve_releases {s : State} {via : Via} {core : Nat} {m : W64} (h : Heard s via)
    (hboot : 4 ≤ s.heath.bootStep) (hcore : core < 192) (hwf : s.mem.wf = true)
    (hlast : BanksReleasable s core m) :
    let n := (s.carvedBanks core).length
    let k := (bankList m).length
    let base := sramBase + core * 0x100000
    ∃ t, exec (.bankCarve via core m true) s = .next t ∧
      t.carvedBanks core = (s.carvedBanks core).take (n - k) ∧
      (∀ b ∈ bankList m, (core, b) ∈ t.heath.released) ∧
      (∀ a, base + 16384 * (n - k) ≤ a → a < base + 16384 * n → t.mem.rd a = 0) ∧
      t.pool = s.pool ∧ SameCores s t := by
  intro n k base
  have hlate : ¬(decide (s.heath.bootStep < 4) || decide (192 ≤ core)) = true := by simp; omega
  have hk : k ≤ n := hlast.1
  rw [exec_bankCarve, execBankCarve, managed_of_heard h]
  dsimp only
  rw [if_neg hlate, if_pos rfl]
  refine ⟨_, if_neg ((releaseCheck_iff s core m).mpr hlast), by simp [State.carvedBanks, mgetD, n, k],
    fun b hb => by simp [hb], fun a hlo hhi => ?_, rfl, rfl, rfl, rfl, rfl⟩
  exact (Mem.rd_zero hwf _ _ _).trans (if_pos (by omega))

/-- Teasel's zeroing ends the release of a bank. -/
theorem releasedBankZero_ends (s : State) (core bank : Nat) :
    ∃ t, exec (.releasedBankZero core bank) s = .next t ∧ (core, bank) ∉ t.heath.released ∧
      t.heath.carved = s.heath.carved ∧ SameCores s t ∧ SameBytes s t :=
  ⟨_, rfl, by simp, rfl, ⟨rfl, rfl, rfl, rfl⟩, fun _ => ⟨rfl, rfl⟩⟩

end Sys2Proof.Machine

namespace Sys2Proof.Claims
open Sys2Proof Sys2Proof.Machine

theorem heathAnswers : HeathAnswers := by
  intro s via i k n
  refine ⟨fun h => ⟨logRead_answers h n, sensorRead_answers h n⟩, fun h => ?_, fun h => ⟨?_, ?_⟩⟩
  · obtain ⟨hcores, hbytes, hheath, hsilent, hsent⟩ := spdm_answers s k (attestationHead s i)
    refine ⟨_, exec_attestation h s, hcores, hbytes, hheath, hsilent, fun hboot =>
      ⟨_, hsent hboot, ?_, ?_⟩⟩ <;> rintro rfl <;> exact ⟨_, rfl⟩
  · obtain ⟨hcores, hbytes, hheath, -, hsent⟩ :=
      spdm_answers { s with heath := { s.heath with session := true } } 24 []
    exact ⟨_, _, exec_keyExchange_of_booted h, hheath, hsent h, hcores, hbytes⟩
  · obtain ⟨hcores, hbytes, hheath, -, hsent⟩ :=
      spdm_answers { s with heath := { s.heath with session := false } } 26 []
    exact ⟨_, _, exec_endSession_of_booted h, hheath, hsent h, hcores, hbytes⟩

theorem carving : Carving := by
  intro s via die mib core bank m h
  refine ⟨fun hbad => refuse_refused (llcCarve_refused h hbad),
    fun hboot hdie hmib hstep hwf => llcCarve_carves h hboot hdie hmib hstep hwf,
    fun hearly r => refuse_refused (bankCarve_refused_of_early h hearly r),
    fun htaken => refuse_refused (bankCarve_refused_of_not_free h ?taken),
    fun hboot hcore hwf hfree => bankCarve_carves h hboot hcore hwf hfree,
    fun hkept => refuse_refused (bankCarve_refused_of_not_releasable h ?notLast),
    fun hpos hcover => refuse_refused (bankCarve_refused_of_not_releasable h ?covered),
    fun hboot hcore hwf hk hlast hmiss =>
      bankCarve_releases h hboot hcore hwf ⟨hk, hlast, fun _ => hmiss⟩,
    releasedBankZero_ends s core bank⟩
  case taken =>
    intro hfree
    obtain ⟨b, hb, hm, htaken⟩ := htaken
    obtain ⟨hold, hbarred, hgranted⟩ := hfree b hb hm
    obtain hcarved | hout | ⟨y, hy, hgrant⟩ := htaken
    · exact hold hcarved
    · exact Bool.false_ne_true (hbarred.symm.trans hout)
    · exact Bool.false_ne_true ((hgranted y hy).symm.trans hgrant)
  case notLast =>
    rintro ⟨hk, hlast, -⟩
    obtain hmore | ⟨b, hb, hm⟩ := hkept
    · exact absurd hk (Nat.not_le.mpr hmore)
    · exact Bool.false_ne_true (hm.symm.trans (hlast b hb))
  case covered =>
    rintro ⟨-, -, hmiss⟩
    obtain ⟨x, hx, r, hr, hlo, hhi⟩ := hcover
    obtain hafter | hbefore := hmiss hpos x hx r hr
    · exact absurd hlo (Nat.not_lt.mpr hafter)
    · exact absurd hhi (Nat.not_lt.mpr hbefore)

end Sys2Proof.Claims

/-- Settles O52: every request is a reply of `State.reply`, and every carve is refused or takes the branch of
the model that `BanksFree` and `BanksReleasable` name, in which memory is zeroed by `Mem.zero`. -/
theorem heathAnswersAndCarves : Obligations.HeathAnswersAndCarves :=
  ⟨Sys2Proof.Claims.heathAnswers, Sys2Proof.Claims.carving⟩

/-! # What a lane instruction leaves of its fragment's marks (O20, O21, O23, O24, O26, O27)

A fragment that raises a fault while its swath is in a handler keeps the fault's place in the order of the
pending faults, `Frag.pendAt`. PENDING_FAULT_TAKEN lets the fragment issue again and leaves that place as it
was; the lane instruction that is then executed afresh sets it to 0, whatever the instruction is
(`Frag.issued`, R240). `Goes` leaves open the scoreboard and the registers that a region has read, and
nothing else, and `onward` changes the lane PC alone: in O20, O21, O23, O24 and O26 a clause would have the
fragment keep its place. The clause of O27 on a tile that a matrix operation names would have an accumulator
access change nothing at all, where the fragment is marked as charged for its issue slot (R418). -/

namespace Sys2Proof.Machine
open Sys2Proof Sys2Proof.Claims

/-- The place that a fragment has in the order of the pending faults (R240). -/
def pendPlace (b : Bool) (w : Swath) : Option Nat := (w.lanes.get b).map (·.pendAt)

@[simp] theorem pendPlace_eff (b : Bool) (w : Swath) : pendPlace b (eff w) = pendPlace b w := by
  cases b <;> simp [pendPlace, eff, LaneStream.get, Function.comp_def]

theorem LaneStream.get_put_same (l : LaneStream) (b : Bool) (g : Frag) : (l.put b g).get b = some g := by
  cases b <;> rfl

@[simp] theorem pendPlace_onward (b : Bool) (w : Swath) (pc : W32) :
    pendPlace b (onward w b pc) = pendPlace b w := by
  unfold onward Swath.updFrag
  split
  · next g hg => simp [pendPlace, LaneStream.get_put_same, hg]
  · rfl

/-- `Goes` keeps the places of the pending faults. -/
theorem pendPlace_of_goes {s t : State} {F : Focus} {w u : Swath} (hw : s.swathOf F.party = some w)
    (h : Goes s F u (.next t)) (b : Bool) :
    (t.swathOf F.party).map (pendPlace b) = some (pendPlace b u) := by
  obtain ⟨w', ht, heff, -⟩ := h
  obtain rfl := Host.Outcome.next.inj ht
  rw [swathOf_updSwath, hw, ← pendPlace_eff b u, ← heff, pendPlace_eff]
  rfl

/-! ### A fragment that is about to issue -/

/-- The swath of one fragment, whose predicates beside `k0` are 0, with matrix operations in its queue. -/
def soleFrag (g : Frag) (mq : List MatOp := []) : Swath :=
  { codeSwath with
    lanes := { codeSwath.lanes with f0 := some g }, eng := { codeSwath.eng with mq := mq } }

/-- The swath stands in a resident field, and its first fragment is chosen to issue. -/
def issuing (w : Swath) : State := (State.reset.withFetchWord 96 0).updSwathAt 0 0 (fun _ => w)

/-- Where that fragment stands. -/
def soleFocus : Focus :=
  { party := .lane 0 0 false, fid := 0, sw := 0, core := 0, ctx := 0, launch := 0, level := 0,
    pager := none }

/-- Its register checks are off (R26, R28). -/
theorem soleFrag_chk (g : Frag) (mq : List MatOp) : (soleFrag g mq).regs.chk = 0 := rfl

theorem laneClear_issuing {g : Frag} {mq : List MatOp} {h : LHdr} {reads writes : List RegName}
    (whole : Bool) (hcount : beyondCount (soleFrag g mq) (reads ++ writes) = false) :
    LaneClear (issuing (soleFrag g mq)) soleFocus (soleFrag g mq) g false h reads writes whole where
  focus := rfl
  count n hn := Nat.lt_of_not_le (by simpa using List.any_eq_false.mp hcount _ hn)
  stall := by simp [stallShort, soleFrag_chk]
  late _ hl := absurd hl List.not_mem_nil
  war := by simp [regionWar, soleFrag_chk]

/-! ### An instruction that is executed afresh -/

/-- A fragment that stopped with the first fault that was raised. -/
def pendingFrag : Frag := { newFrag (presentMask 1) 0 0 with pend := true, pendAt := 1 }

/-- The same, its fault taken: it executes its instruction again. -/
def retryingFrag : Frag := { pendingFrag with pend := false }

def retrying : State := issuing (soleFrag retryingFrag)

/-- `retrying` is what PENDING_FAULT_TAKEN leaves. -/
theorem retrying_of_pendingFaultTaken :
    exec (.pendingFaultTaken 0 0 false) (issuing (soleFrag pendingFrag)) = .next retrying := rfl

/-- A guard that no lane meets, so that an instruction has nothing to do but to go on. -/
def unmet : LHdr := { guard := 1, neg := false, stall := 0, mark := false }

theorem active_retrying :
    active soleFocus (soleFrag retryingFrag) retryingFrag false unmet = 0 := by decide +kernel

theorem lanesOf_zero : lanesOf 0 = [] := by decide +kernel

/-- An instruction's result, in which the place of the fragment's fault is cleared. -/
def clearsPlace : Host.Outcome State Fault Refusal → Bool
  | .next t => (t.swathOf soleFocus.party).map (pendPlace false) == some (some 0)
  | _ => false

/-- No instruction that clears the place goes on to a swath that keeps it. -/
theorem not_goes_of_clearsPlace {u : Swath} {r : Host.Outcome State Fault Refusal} {pc : W32}
    (hclears : clearsPlace r = true) (hkeeps : pendPlace false u = some 1) :
    ¬ Goes retrying soleFocus (onward u false pc) r := by
  intro h
  obtain ⟨w', rfl, -⟩ := id h
  rw [clearsPlace, pendPlace_of_goes rfl h, pendPlace_onward, hkeeps] at hclears
  exact absurd hclears (by decide)

/-- `LaneComputes` leaves the lane stream as it is, and so the place. -/
theorem not_laneComputes_of_clearsPlace {i : Instr} {reads : List RegName} {vd : BitVec 8} {n : Nat}
    {draws : Frag → Nat} {v : Swath → Frag → Nat → (Nat → Nat) → Nat × Flags}
    (hcount : beyondCount (soleFrag retryingFrag) (reads ++ vregs vd.toNat n) = false)
    (hclears : clearsPlace (exec i retrying) = true) : ¬ LaneComputes i unmet reads vd n draws v := by
  intro h
  obtain ⟨u, hgoes, -, -, -, -, hu⟩ := h _ _ _ _ _ (laneClear_issuing false hcount)
  exact not_goes_of_clearsPlace hclears (congrArg (pendPlace false) hu :) hgoes

/-! ### An accumulator access that is not performed -/

/-- A product into tile 0 that is not complete. -/
def queuedProduct : MatOp :=
  { kind := 5, tile := 0, prog := 0, batch := 0, closed := false, fmt := 0, gen := 0, src := 0, desc := [],
    flags := 0 }

def readyFrag : Frag := newFrag (presentMask 1) 0 0

/-- A fragment about to issue, beside a matrix operation that names tile 0. -/
def tileNamed : State := issuing (soleFrag readyFrag [queuedProduct])

/-- `ACCRD v0, tile 0, 0` in every lane. -/
def readElement : LAcc :=
  { h := { guard := 0, neg := false, stall := 0, mark := false }, sub := 0, tile := 0, e := .imm 0,
    reg := 0 }

/-- An instruction's result, in which the fragment is marked as charged for its issue slot (R418). -/
def chargesSlot : Host.Outcome State Fault Refusal → Bool
  | .next t => ((t.swathOf soleFocus.party).bind (·.lanes.get false)).map (·.charged) == some true
  | _ => false

/-- The access is tried again later, in a slot that is then idle. -/
theorem accrd_chargesSlot : chargesSlot (exec (.accrd readElement) tileNamed) = true := by
  decide +kernel

end Sys2Proof.Machine

section
open Sys2Proof.Machine

/-- Refutes O20: an `IADD` that is executed afresh clears the place of its fragment's fault. -/
theorem not_laneIntegerFormsCompute : ¬ Obligations.LaneIntegerFormsCompute := by
  intro h
  obtain ⟨hiadd, -⟩ := h { h := unmet, ty := .n32, sub := 0, vd := 0, va := 0, b := .imm 0 }
    { h := unmet, ty := .n32, sub := 0, vd := 0, va := 0, b := .imm 0, c := .imm 0 }
    { h := unmet, ty := .n32, sub := 0, vd := 0, va := 0 }
  exact not_laneComputes_of_clearsPlace rfl (by decide +kernel) hiadd

/-- Refutes O21: an `FADD` that is executed afresh clears the place of its fragment's fault. -/
theorem not_laneFloatAndPackedFormsCompute : ¬ Obligations.LaneFloatAndPackedFormsCompute := by
  rintro ⟨h, -⟩
  obtain ⟨hfadd, -⟩ := h { h := unmet, ty := .f32, sub := 0, vd := 0, va := 0, b := .imm 0 }
    { h := unmet, ty := .f32, sub := 0, vd := 0, va := 0, b := .imm 0, c := .imm 0 }
    { h := unmet, ty := .f32, sub := 0, vd := 0, va := 0 }
    { h := unmet, dst := .f32, src := .f32, sub := 0, vd := 0, va := 0 }
    { h := unmet, ty := .f32, sub := 0, fmt := 0, slot := 0, vd := 0, va := 0 }
  exact not_laneComputes_of_clearsPlace rfl (by decide +kernel) hfadd

/-- Refutes O23: a `VOTE` that is executed afresh clears the place of its fragment's fault. -/
theorem not_reductionsVotesAndScans : ¬ Obligations.ReductionsVotesAndScans := by
  intro h
  obtain ⟨-, -, hvote, -⟩ := h { h := unmet, ty := .n32, op := 0, wd := 0, va := 0 }
    { h := unmet, op := 0, wd := 0, ka := 0, g := 0 }
    { h := unmet, ty := .n32, sub := 0, vd := 0, va := 0 }
    retrying soleFocus (soleFrag retryingFrag) retryingFrag false
  exact not_goes_of_clearsPlace (by decide +kernel) rfl (hvote (laneClear_issuing false rfl) :)

/-- Refutes O24: a `BRU` that is executed afresh, and no lane of which branches, clears the place of its
fragment's fault. -/
theorem not_laneBranchesSplitAndRejoin : ¬ Obligations.LaneBranchesSplitAndRejoin := by
  rintro ⟨h, -⟩
  obtain ⟨-, hnone, -⟩ := h unmet 0 retrying soleFocus (soleFrag retryingFrag) retryingFrag false
    (laneClear_issuing true rfl)
  have hlive : retryingFrag.mask ≠ 0 := by decide +kernel
  exact not_goes_of_clearsPlace (by decide +kernel) rfl (hnone active_retrying hlive)

/-- Refutes O26: an `LDS` that is executed afresh clears the place of its fragment's fault. -/
theorem not_laneLoadsAndStores : ¬ Obligations.LaneLoadsAndStores := by
  rintro ⟨h, -⟩
  obtain ⟨hlds, -⟩ := h
    { h := unmet, sz := 4, reg := 0, m := { base := .uni 0, idx := none, sc := 0, disp := 0 } }
    retrying soleFocus (soleFrag retryingFrag) retryingFrag false
  obtain ⟨hload, -⟩ := hlds (laneClear_issuing false rfl)
  simp only [active_retrying, lanesOf_zero] at hload
  obtain ⟨u, hgoes, -, -, hu⟩ := hload [] retrying (List.forall_mem_nil _)
    ⟨List.forall_mem_nil _, retrying, rfl, rfl⟩
  exact not_goes_of_clearsPlace (by decide +kernel) (congrArg (pendPlace false) hu :) hgoes

/-- Refutes O27: an `ACCRD` of a tile that a matrix operation names marks its fragment, and so changes the
state. -/
theorem not_laneAtomicsAndAccumulators : ¬ Obligations.LaneAtomicsAndAccumulators := by
  rintro ⟨-, h⟩
  obtain ⟨hread, -⟩ := h readElement tileNamed soleFocus (soleFrag readyFrag [queuedProduct]) readyFrag
    false _ rfl
  obtain ⟨⟨-, -, hbusy⟩, -⟩ := hread (laneClear_issuing false rfl)
  have hunchanged := hbusy ⟨by decide, fun _ _ => Nat.zero_lt_succ 4095⟩ rfl
  have hcharged := accrd_chargesSlot
  rw [hunchanged] at hcharged
  exact absurd hcharged (by decide +kernel)

end

/-! # Issue decisions (O40)

A decision takes the least key among the ready candidates; what else it does to the state, to the charges,
the counts, the yields and the lane-cycle record, leaves the choice as it is. -/

namespace Sys2Proof.Machine
open Sys2Proof Sys2Proof.Claims

/-! ### The least by a key (R122) -/

theorem keyLt_cons_iff {x y : Nat} {a b : List Nat} :
    keyLt (x :: a) (y :: b) = true ↔ x < y ∨ x = y ∧ keyLt a b = true := by
  simp only [keyLt, Bool.or_eq_true, decide_eq_true_eq, Bool.and_eq_true, beq_iff_eq]

theorem keyLt_nil_right (a : List Nat) : keyLt a [] = false := by cases a <;> rfl

theorem keyLt_asymm {a b : List Nat} (h : keyLt b a = true) : keyLt a b = false := by
  induction a generalizing b with
  | nil => exact absurd h (Bool.eq_false_iff.mp (keyLt_nil_right b))
  | cons x a ih =>
    cases b with
    | nil => rfl
    | cons y b =>
      refine Bool.eq_false_iff.mpr fun hxy => ?_
      obtain hlt | ⟨rfl, htail⟩ := keyLt_cons_iff.mp h
      · obtain hlt' | ⟨rfl, -⟩ := keyLt_cons_iff.mp hxy
        · exact Nat.lt_asymm hlt hlt'
        · exact Nat.lt_irrefl _ hlt
      · obtain hlt | ⟨-, htail'⟩ := keyLt_cons_iff.mp hxy
        · exact Nat.lt_irrefl _ hlt
        · exact Bool.false_ne_true ((ih htail).symm.trans htail')

theorem keyLt_irrefl (a : List Nat) : keyLt a a = false :=
  Bool.eq_false_iff.mpr fun h => Bool.false_ne_true ((keyLt_asymm h).symm.trans h)

/-- Of two keys in order, a third stands after the first or before the second. -/
theorem keyLt_or_keyLt {a b c : List Nat} (h : keyLt c a = true) :
    keyLt c b = true ∨ keyLt b a = true := by
  induction a generalizing b c with
  | nil => exact absurd h (Bool.eq_false_iff.mp (keyLt_nil_right c))
  | cons x a ih =>
    cases b with
    | nil => exact .inr rfl
    | cons y b =>
      cases c with
      | nil => exact .inl rfl
      | cons z c =>
        obtain hzx | ⟨rfl, htail⟩ := keyLt_cons_iff.mp h
        · obtain hzy | hyz := Nat.lt_or_ge z y
          · exact .inl (keyLt_cons_iff.mpr (.inl hzy))
          · exact .inr (keyLt_cons_iff.mpr (.inl (Nat.lt_of_le_of_lt hyz hzx)))
        · obtain hzy | rfl | hyz := Nat.lt_trichotomy z y
          · exact .inl (keyLt_cons_iff.mpr (.inl hzy))
          · exact (ih htail).imp (fun h => keyLt_cons_iff.mpr (.inr ⟨rfl, h⟩))
              (fun h => keyLt_cons_iff.mpr (.inr ⟨rfl, h⟩))
          · exact .inr (keyLt_cons_iff.mpr (.inl hyz))

theorem keyLt_eq_false_trans {a b c : List Nat} (hba : keyLt b a = false) (hcb : keyLt c b = false) :
    keyLt c a = false := by
  refine Bool.eq_false_iff.mpr fun h => ?_
  obtain hlt | hlt := keyLt_or_keyLt (b := b) h
  · exact Bool.false_ne_true (hcb.symm.trans hlt)
  · exact Bool.false_ne_true (hba.symm.trans hlt)

theorem leastBy_eq_none_iff {α : Type} {key : α → List Nat} {l : List α} :
    leastBy key l = none ↔ l = [] := by
  cases l with
  | nil => simp [leastBy]
  | cons a r =>
    simp only [leastBy]
    split
    · split <;> simp
    · simp

theorem leastBy_least {α : Type} {key : α → List Nat} {l : List α} {c : α}
    (h : leastBy key l = some c) : c ∈ l ∧ ∀ d ∈ l, keyLt (key d) (key c) = false := by
  induction l generalizing c with
  | nil => cases h
  | cons a r ih =>
    simp only [leastBy] at h
    split at h
    next b hb =>
      obtain ⟨hmem, hleast⟩ := ih hb
      split at h
      next hlt =>
        obtain rfl := Option.some.inj h
        exact ⟨List.mem_cons_of_mem _ hmem, List.forall_mem_cons.mpr ⟨keyLt_asymm hlt, hleast⟩⟩
      next hge =>
        obtain rfl := Option.some.inj h
        exact ⟨List.mem_cons_self, List.forall_mem_cons.mpr ⟨keyLt_irrefl _, fun d hd =>
          keyLt_eq_false_trans (Bool.eq_false_iff.mpr hge) (hleast d hd)⟩⟩
    next hnone =>
      obtain rfl := Option.some.inj h
      obtain rfl := leastBy_eq_none_iff.mp hnone
      exact ⟨List.mem_cons_self, List.forall_mem_singleton.mpr (keyLt_irrefl _)⟩

/-- The least of the ready candidates is the first of them, and there is none only where none is ready. -/
theorem firstOf_leastBy (key : Cand → List Nat) (cs : List Cand) :
    FirstOf key cs ((leastBy key (cs.filter (·.ready))).map (·.party)) := by
  cases h : leastBy key (cs.filter (·.ready)) with
  | none =>
    exact fun c hc => Bool.eq_false_iff.mpr (List.filter_eq_nil_iff.mp (leastBy_eq_none_iff.mp h) c hc)
  | some c =>
    obtain ⟨hmem, hleast⟩ := leastBy_least h
    obtain ⟨hc, hready⟩ := List.mem_filter.mp hmem
    exact ⟨c, hc, rfl, hready, fun d hd hd' => hleast d (List.mem_filter.mpr ⟨hd, hd'⟩)⟩

/-! ### What keeps the choice -/

theorem foldl_chosen {α : Type} {f : State → α → State} (hf : ∀ s x, (f s x).chosen = s.chosen)
    (l : List α) (s : State) : (l.foldl f s).chosen = s.chosen :=
  List.foldlRecOn l f (motive := fun t => t.chosen = s.chosen) rfl fun _ h x _ => (hf _ x).trans h

@[simp] theorem State.charge_chosen (s : State) (c core quad : Nat) (lane : Bool) (n : Nat) :
    (s.charge c core quad lane n).chosen = s.chosen := rfl

@[simp] theorem State.clearYields_chosen (s : State) (core quad : Nat) (cls : Option Nat) :
    (s.clearYields core quad cls).chosen = s.chosen :=
  foldl_chosen (fun _ _ => by dsimp only; split <;> rfl) _ _

@[simp] theorem State.countBin_chosen (s : State) (c : Nat) (pc : W32) (g : Bin → Bin) :
    (s.countBin c pc g).chosen = s.chosen := by
  unfold State.countBin
  split
  · rfl
  · split
    · rfl
    · dsimp only; split <;> rfl

@[simp] theorem State.countSlot_chosen (s : State) (core quad : Nat) :
    (s.countSlot core quad).chosen = s.chosen := by
  unfold State.countSlot
  split
  · rfl
  · simp

@[simp] theorem State.countIdle_chosen (s : State) (cs : List Cand) :
    (s.countIdle cs).chosen = s.chosen := by
  refine foldl_chosen (fun s c => ?_) _ _
  dsimp only
  split
  · rfl
  · split
    · simp
    · rfl

/-! ### The decisions -/

theorem decideAmong_chosen (s : State) (core quad : Nat) (lane : Bool) (cs : List Cand) :
    (decideAmong s core quad lane cs).2.chosen =
      (leastBy (Cand.key s core quad lane) (cs.filter (·.ready))).map (·.party) := rfl

theorem scalarIssueDecision_chooses_first {s : State} {core quad : Nat} (h : core < 192) :
    ∃ t, exec (.scalarIssueDecision core quad) s = .next t ∧
      FirstOf (Cand.key (s.replayParks core quad) core quad false)
        (scalarCands (s.replayParks core quad) core quad) t.chosen := by
  have hfirst := firstOf_leastBy (Cand.key (s.replayParks core quad) core quad false)
    (scalarCands (s.replayParks core quad) core quad)
  rw [← decideAmong_chosen] at hfirst
  rw [exec_scalarIssueDecision, execScalarIssueDecision, if_neg (by omega)]
  dsimp only
  split
  next c t ht => exact ⟨_, rfl, by simpa [ht] using hfirst⟩
  next t ht => exact ⟨_, rfl, by simpa [ht] using hfirst⟩

theorem laneIssueDecision_chooses_first (s : State) (core quad : Nat) :
    ∃ t, exec (.laneIssueDecision core quad) s = .next t ∧
      FirstOf (Cand.key s core quad true) (laneCands s core quad) t.chosen := by
  have hfirst := firstOf_leastBy (Cand.key s core quad true) (laneCands s core quad)
  rw [← decideAmong_chosen] at hfirst
  rw [exec_laneIssueDecision, execLaneIssueDecision]
  dsimp only
  split
  next c t ht =>
    refine ⟨_, rfl, ?_⟩
    have hslot : (if t.slotIssues then t.countSlot core quad else
        t.countIdle (laneCands s core quad)).chosen = t.chosen := by split <;> simp
    rw [ht] at hfirst
    split <;> simpa [State.updSwathAt, hslot] using hfirst
  next t ht => exact ⟨_, rfl, by simpa [ht] using hfirst⟩

theorem scalarIssueDecision_pager {s : State} {core quad : Nat} {p : Pager} (h : 192 ≤ core)
    (hp : mget s.pagers (core - 192) = some p) (hrun : p.running = true)
    (hwait : p.sw.ctl.wait = .none) :
    exec (.scalarIssueDecision core quad) s =
      .next { s with chosen := some (.pager (core - 192)) } := by
  simp [exec_scalarIssueDecision, execScalarIssueDecision, h, hp, hrun, hwait]

/-! ### Ages (R122) -/

theorem swathOf_scalar (s : State) (fid sw : Nat) :
    s.swathOf (.scalar fid sw) = s.swathAt fid sw := rfl

/-- A candidate passed over 32 times takes the next place in the order of aging. -/
theorem candidateAges_ages {s : State} {fid sw : Nat} {w : Swath} (hw : s.swathAt fid sw = some w)
    (hpassed : 32 ≤ w.ctl.passed) (hyoung : w.ctl.aged = none) :
    exec (.candidateAges (.scalar fid sw)) s =
      .next { s.updSwathAt fid sw (fun _ =>
        { w with ctl := { w.ctl with aged := some s.nextUid } }) with nextUid := s.nextUid + 1 } := by
  have hset : s.setCand (.scalar fid sw) w.ctl.passed (some s.nextUid) =
      s.updSwathAt fid sw (fun _ => { w with ctl := { w.ctl with aged := some s.nextUid } }) :=
    updSwath_const (p := .scalar fid sw) hw _
  simp [exec_candidateAges, execCandidateAges, swathOf_scalar, hw, hyoung, hset,
    Nat.not_lt_of_le hpassed]

theorem candidateAges_stays {s : State} {fid sw : Nat} {w : Swath} (hw : s.swathAt fid sw = some w)
    (h : w.ctl.passed < 32 ∨ w.ctl.aged.isSome = true) :
    exec (.candidateAges (.scalar fid sw)) s = .next s := by
  simp [exec_candidateAges, execCandidateAges, swathOf_scalar, hw, h]

end Sys2Proof.Machine

section
open Sys2Proof.Machine

/-- Settles O40: a decision is `leastBy` of the ready candidates, which is the first of them by the order of
their keys. -/
theorem decisionsChooseTheFirstReadyParty : Obligations.DecisionsChooseTheFirstReadyParty := by
  intro s core quad
  exact ⟨scalarIssueDecision_chooses_first,
    fun _ hcore hp hrun hwait => scalarIssueDecision_pager hcore hp hrun hwait,
    laneIssueDecision_chooses_first s core quad,
    fun _ _ _ hw hpassed hyoung => ⟨_, candidateAges_ages hw hpassed hyoung, rfl, rfl, rfl⟩,
    fun _ _ _ hw h => candidateAges_stays hw h⟩

end

/-! # Writes at the home and messages (O41, O48)

Writes of the device's own, counters, logs and messages leave the work of the device as it is: its fields,
pagers, contexts and launches, `SameCores`. What a write at an HBM home changes of memory is said byte by
byte. -/

namespace Sys2Proof.Claims
open Sys2Proof.Machine

/-! ### What leaves the cores alone -/

theorem SameCores.refl (s : State) : SameCores s s := ⟨rfl, rfl, rfl, rfl⟩

theorem SameCores.trans {s t u : State} (h : SameCores s t) (h' : SameCores t u) : SameCores s u :=
  ⟨h'.1.trans h.1, h'.2.1.trans h.2.1, h'.2.2.1.trans h.2.2.1, h'.2.2.2.trans h.2.2.2⟩

theorem SameCores.fields {s t : State} (h : SameCores s t) : t.fields = s.fields := h.1

theorem SameCores.launches {s t : State} (h : SameCores s t) : t.launches = s.launches := h.2.2.2

theorem SameCores.field? {s t : State} (h : SameCores s t) (fid : Nat) : t.field? fid = s.field? fid :=
  congrArg (mget · fid) h.fields

theorem SameCores.foldl {α : Type} {f : State → α → State} (hf : ∀ s x, SameCores s (f s x))
    (l : List α) (s : State) : SameCores s (l.foldl f s) :=
  List.foldlRecOn l f (motive := SameCores s) (.refl s) fun _ h x _ => h.trans (hf _ x)

end Sys2Proof.Claims

namespace Sys2Proof.Machine
open Sys2Proof Sys2Proof.Claims

theorem emit_sameCores (s : State) (p : Option Nat) (o : Nat → Out) : SameCores s (s.emit p o) := by
  unfold State.emit
  split
  · split <;> exact .refl _
  · exact .refl _

theorem sendSnoop_sameCores (s : State) (kind slot addr : Nat) :
    SameCores s (s.sendSnoop kind slot addr) := by
  unfold State.sendSnoop
  split
  · exact .refl _
  · exact emit_sameCores _ _ _

theorem writeHold_sameCores {s t : State} {line : Nat} {mask : BitVec 128}
    (h : writeHold s line mask = some t) : SameCores s t := by
  simp only [writeHold] at h
  split at h
  · exact Option.some.inj h ▸ .refl _
  · split at h
    · cases h
    · exact Option.some.inj h ▸ .foldl (fun _ _ => sendSnoop_sameCores _ _ _ _) _ _

theorem noteOld_sameCores (s : State) (line : Nat) : SameCores s (s.noteOld line) := by
  unfold State.noteOld
  dsimp only
  split
  · exact .refl _
  · split <;> exact .refl _

theorem poolWrite_sameCores (s : State) (pa : Nat) (k : Option UnitKey) (i : Nat) (mask : BitVec 128)
    (data : BitVec 1024) : SameCores s (s.poolWrite pa k i mask data) := by
  unfold State.poolWrite
  split <;> exact ⟨rfl, rfl, rfl, rfl⟩

theorem poolWriteDpa_sameCores (s : State) (dpa : Nat) (mask : BitVec 128) (data : BitVec 1024) :
    SameCores s (s.poolWriteDpa dpa mask data) := by
  unfold State.poolWriteDpa
  split
  · exact .refl _
  · dsimp only
    split
    · exact (poolWrite_sameCores _ _ _ _ _ _).trans (poolWrite_sameCores _ _ _ _ _ _)
    · exact poolWrite_sameCores _ _ _ _ _ _

theorem homeWrite_sameCores (s : State) (dpa : Nat) (mask : BitVec 128) (data : BitVec 1024) :
    SameCores s (s.homeWrite dpa mask data) := by
  unfold State.homeWrite
  extract_lets s₁ s₂
  have h₁ : SameCores s s₁ := noteOld_sameCores s _
  have h₂ : SameCores s s₂ := by
    unfold s₂
    split <;> exact h₁
  split
  · exact h₂
  · split
    · dsimp only
      split <;> exact h₂
    · exact h₂.trans (poolWriteDpa_sameCores _ _ _ _)
  · exact h₂

theorem landWrite_sameCores (s : State) (w : HomeWrite) : SameCores s (s.landWrite w) := by
  unfold State.landWrite
  dsimp only
  split <;> exact homeWrite_sameCores _ _ _ _

theorem deviceWrite_sameCores (s : State) (w : HomeWrite) : SameCores s (s.deviceWrite w) := by
  unfold State.deviceWrite
  split
  · exact ⟨rfl, rfl, rfl, rfl⟩
  · split
    next t ht =>
      have hheld : SameCores s t := writeHold_sameCores ht
      exact hheld
    · exact landWrite_sameCores _ _

theorem logEvent_sameCores (s : State) (die c kind : Nat) (coords p0 p1 : W64) :
    SameCores s (s.logEvent die c kind coords p0 p1) := by
  unfold State.logEvent
  split
  · exact .refl _
  · refine iteInduction (motive := SameCores s) (fun _ => .refl _) fun _ => ?_
    extract_lets
    split
    · exact ⟨rfl, rfl, rfl, rfl⟩
    · split
      · exact ⟨rfl, rfl, rfl, rfl⟩
      · exact deviceWrite_sameCores (s.setBank _ _) _

theorem logField_sameCores (s : State) (f : Field) (kind : Nat) : SameCores s (s.logField f kind) :=
  logEvent_sameCores _ _ _ _ _ _ _

theorem countFor_sameCores (s : State) (c i n : Nat) : SameCores s (s.countFor c i n) := by
  unfold State.countFor
  split
  · split <;> exact ⟨rfl, rfl, rfl, rfl⟩
  · exact .refl _

/-! ### A write at an HBM home, byte by byte -/

theorem Mem.rd_wrMask {m : Mem} (h : m.wf = true) (a : Nat) (mask : BitVec 128) (data : BitVec 1024)
    (i n x : Nat) : (m.wrMask a mask data i n).rd x =
      if a + i ≤ x ∧ x < a + i + n ∧ mask.getLsbD (x - a) = true then data.extractLsb' (8 * (x - a)) 8
      else m.rd x := by
  induction n generalizing m i with
  | zero => rw [if_neg (by omega)]; rfl
  | succ n ih =>
    have hwf : Mem.wf (if mask.getLsbD i = true then m.wr (a + i) (data.extractLsb' (8 * i) 8) else m)
        = true := by
      split
      · exact Mem.wf_wr _ _ _ h
      · exact h
    rw [Mem.wrMask, ih hwf]
    by_cases hx : x = a + i
    · subst hx
      rw [if_neg (by omega)]
      have hi : a + i - a = i := by omega
      split
      · next hm => rw [Mem.rd_wr_same _ _ _ h, if_pos ⟨Nat.le_refl _, by omega, by rwa [hi]⟩, hi]
      · next hm => rw [if_neg (by rw [hi]; exact fun hc => hm hc.2.2)]
    · have hrd : Mem.rd (if mask.getLsbD i = true then m.wr (a + i) (data.extractLsb' (8 * i) 8) else m) x
          = m.rd x := by
        split
        · exact Mem.rd_wr_ne _ _ h hx
        · rfl
      rw [hrd]
      have hrange : (a + (i + 1) ≤ x ∧ x < a + (i + 1) + n ∧ mask.getLsbD (x - a) = true) ↔
          (a + i ≤ x ∧ x < a + i + (n + 1) ∧ mask.getLsbD (x - a) = true) := by
        constructor <;> exact fun ⟨hlo, hhi, hm⟩ => ⟨by omega, by omega, hm⟩
      exact ite_congr (propext hrange) (fun _ => rfl) fun _ => rfl

theorem getLsbD_byteMask {o n k : Nat} (hk : k < 128) :
    (byteMask o n).getLsbD k = decide (o ≤ k ∧ k < o + n) := by
  rw [byteMask, BitVec.getLsbD_ofNat, Nat.testBit_mul_two_pow, Nat.testBit_two_pow_sub_one]
  simp only [hk, decide_true, Bool.true_and]
  by_cases h : o ≤ k
  · simp [h]; omega
  · simp [h]

/-- The bytes of a number, where a line holds them. -/
theorem extractLsb'_lineWith {o v n k : Nat} (hlo : o ≤ k) (hhi : k < o + n) (hline : o + n ≤ 128) :
    (lineWith o v n).extractLsb' (8 * k) 8 = BitVec.ofNat 8 (v / 256 ^ (k - o)) := by
  apply BitVec.eq_of_getLsbD_eq
  intro i hi
  have hpow : 256 ^ (k - o) = 2 ^ (8 * (k - o)) := (Nat.pow_mul 2 8 _).symm
  have hbit : 8 * k + i - 8 * o = 8 * (k - o) + i := by omega
  rw [BitVec.getLsbD_extractLsb', lineWith, BitVec.getLsbD_ofNat, BitVec.getLsbD_ofNat, hpow,
    Nat.testBit_div_two_pow, Nat.testBit_mul_two_pow, Nat.testBit_mod_two_pow, hbit]
  simp [hi, show 8 * k + i < 1024 by omega, show 8 * o ≤ 8 * k + i by omega,
    show 8 * (k - o) + i < 8 * n by omega, Nat.add_comm i]

@[simp] theorem noteOld_mem (s : State) (line : Nat) : (s.noteOld line).mem = s.mem := by
  unfold State.noteOld
  dsimp only
  split
  · rfl
  · split <;> rfl

theorem homeWrite_hbm_mem {s : State} {dpa : Nat} (h : dregion dpa = .hbm) (mask : BitVec 128)
    (data : BitVec 1024) : (s.homeWrite dpa mask data).mem = s.mem.wrMask dpa mask data 0 128 := by
  simp only [State.homeWrite, h]
  split <;> simp

/-- HBM is made of whole lines. -/
theorem dregion_line_eq_hbm {dpa : Nat} (h : dregion dpa = .hbm) : dregion (dpa / 128 * 128) = .hbm := by
  obtain hlt | hge := Nat.lt_or_ge dpa (4 * hbmPerDie)
  · rw [dregion, if_pos (by omega)]
  · rw [dregion, if_neg (Nat.not_lt.mpr hge)] at h
    split at h
    · cases h
    · split at h
      · cases h
      · split at h <;> cases h

/-- Bytes put at their HBM home are read back there, and every other byte reads as before. -/
theorem rd_homePut {s : State} {dpa n : Nat} (h : dregion dpa = .hbm) (hline : dpa % 128 + n ≤ 128)
    (hwf : s.mem.wf = true) (v a : Nat) : (homePut s dpa v n).mem.rd a =
      if dpa ≤ a ∧ a < dpa + n then BitVec.ofNat 8 (v / 256 ^ (a - dpa)) else s.mem.rd a := by
  rw [homePut, homeWrite_hbm_mem (dregion_line_eq_hbm h), Mem.rd_wrMask hwf]
  by_cases hin : dpa ≤ a ∧ a < dpa + n
  · have hoff : a - dpa / 128 * 128 - dpa % 128 = a - dpa := by omega
    rw [if_pos hin, if_pos ⟨by omega, by omega, by
      rw [getLsbD_byteMask (by omega)]; exact decide_eq_true (by omega)⟩,
      extractLsb'_lineWith (by omega) (by omega) hline, hoff]
  · rw [if_neg hin, if_neg]
    rintro ⟨hlo, hhi, hmask⟩
    rw [getLsbD_byteMask (by omega), decide_eq_true_eq] at hmask
    omega

theorem Mem.rdN_eq_of_bytes {m : Mem} {a n v : Nat}
    (h : ∀ i < n, m.rd (a + i) = BitVec.ofNat 8 (v / 256 ^ i)) : m.rdN a n = v % 256 ^ n := by
  induction n generalizing a v with
  | zero => simp [Mem.rdN, Nat.mod_one]
  | succ n ih =>
    have hrest : m.rdN (a + 1) n = v / 256 % 256 ^ n := ih fun i hi => by
      rw [Nat.add_assoc, Nat.add_comm 1 i, h _ (by omega), Nat.pow_succ', Nat.div_div_eq_div_mul]
    have hfirst := h 0 (by omega)
    simp only [Nat.add_zero, Nat.pow_zero, Nat.div_one] at hfirst
    rw [Mem.rdN, hrest, hfirst, BitVec.toNat_ofNat, Nat.pow_succ' (m := 256) (n := n)]
    exact Nat.mod_mul.symm

/-! ### Messages of launches (R402, R414) -/

theorem sends_frame {α : Type} (o : α → Out) (l : List α) (s : State) :
    l.foldl (fun s x => s.send (o x)) s = { s with outbox := s.outbox ++ l.map o } := by
  induction l generalizing s with
  | nil => simp
  | cons x l ih => rw [List.foldl_cons, ih]; simp [State.send]

/-- A vector changes what is sent, and what is masked and pending, and draws a free value. -/
theorem msix_frame (s : State) (vf vec : Nat) :
    ∃ o m p c, s.msix vf vec = { s with outbox := o, masked := m, msixPending := p, freeCtr := c } := by
  unfold State.msix
  split
  · exact ⟨_, s.masked, s.msixPending, s.freeCtr, rfl⟩
  · split
    · dsimp only
      rw [sends_frame]
      exact ⟨_, _, _, _, rfl⟩
    · exact ⟨s.outbox, s.masked, _, _, rfl⟩

theorem msix_of_unmasked {s : State} {vf : Nat} (h : s.masked.contains vf = false) (vec : Nat) :
    s.msix vf vec = s.send (.msix (some vf) vec) :=
  if_pos (by rw [h]; rfl)

theorem launchVector_frame (s : State) (l : Launch) :
    ∃ o m p c, s.launchVector l = { s with outbox := o, masked := m, msixPending := p, freeCtr := c } := by
  unfold State.launchVector
  split
  · exact msix_frame _ _ _
  · exact ⟨s.outbox, s.masked, s.msixPending, s.freeCtr, rfl⟩

end Sys2Proof.Machine

/-! # Checks of a launch and its completion (O48)

The agent's check is one equation up to the hand-over, `launchCheck_of_ready`, and so is the completion of a
launch that is over, `launchComplete_of_over`; each clause is a branch of one of them. -/

namespace Sys2Proof.Machine
open Sys2Proof Sys2Proof.Claims

/-! ### Completion (R414) -/

/-- The launch is done, and its vector goes out. -/
def State.launchDone (s : State) (n : Nat) (l : Launch) : State :=
  (s.updLaunch n (fun l => { l with done := true })).launchVector l

theorem launchDone_frame (s : State) (n : Nat) (l : Launch) :
    ∃ o m p c, s.launchDone n l =
      { s.updLaunch n (fun l => { l with done := true }) with
        outbox := o, masked := m, msixPending := p, freeCtr := c } :=
  launchVector_frame _ _

theorem launchDone_launch {s : State} {n : Nat} {l : Launch} (h : mget s.launches n = some l) :
    mget (s.launchDone n l).launches n = some { l with done := true } := by
  obtain ⟨o, m, p, c, hdone⟩ := launchDone_frame s n l
  simp [hdone, State.updLaunch, mget_mupd_same, h]

theorem launchDone_fields (s : State) (n : Nat) (l : Launch) :
    (s.launchDone n l).fields = s.fields := by
  obtain ⟨o, m, p, c, hdone⟩ := launchDone_frame s n l
  simp [hdone]

theorem launchDone_mem (s : State) (n : Nat) (l : Launch) : (s.launchDone n l).mem = s.mem := by
  obtain ⟨o, m, p, c, hdone⟩ := launchDone_frame s n l
  simp [hdone]

theorem launchDone_pool (s : State) (n : Nat) (l : Launch) : (s.launchDone n l).pool = s.pool := by
  obtain ⟨o, m, p, c, hdone⟩ := launchDone_frame s n l
  simp [hdone]

theorem launchDone_outbox_of_irq {s : State} {n : Nat} {l : Launch} {x : Context} {v : Nat}
    (hirq : l.irq = true) (hx : s.ctx? l.ctx = some x) (hv : x.vf = some v)
    (hmask : s.masked.contains v = false) :
    (s.launchDone n l).outbox = s.outbox ++ [.msix (some v) l.vec] := by
  have hvf : ((s.updLaunch n (fun l => { l with done := true })).ctx? l.ctx).bind (·.vf) = some v := by
    rw [show (s.updLaunch n _).ctx? l.ctx = some x from hx]; exact hv
  simp only [State.launchDone, State.launchVector, hirq, hvf]
  exact congrArg State.outbox (msix_of_unmasked (s := s.updLaunch n _) hmask l.vec)

theorem launchDone_outbox_of_silent {s : State} {n : Nat} {l : Launch} (hirq : l.irq = false) :
    (s.launchDone n l).outbox = s.outbox := by
  simp [State.launchDone, State.launchVector, hirq]

theorem launch_over_iff (l : Launch) : l.over = true ↔ l.finished = l.lrec.count * l.lrec.group := by
  simp [Launch.over]

theorem launchComplete_stays {s : State} {n : Nat} {l : Launch} (hl : mget s.launches n = some l)
    (h : l.done = true ∨ l.complWait = true ∨ l.finished ≠ l.lrec.count * l.lrec.group) :
    exec (.launchComplete n) s = .next s := by
  rw [Ne, ← launch_over_iff, Bool.not_eq_true] at h
  rw [exec_launchComplete, execLaunchComplete, hl]
  exact if_pos (by simpa [or_assoc] using h)

/-- What the agent does of a launch that is over, by its COMPL (R414). -/
theorem launchComplete_of_over {s : State} {n : Nat} {l : Launch} (hl : mget s.launches n = some l)
    (hdone : l.done = false) (hwait : l.complWait = false)
    (hover : l.finished = l.lrec.count * l.lrec.group) :
    exec (.launchComplete n) s =
      if l.lrec.compl = 0 then .next (s.launchDone n l)
      else match forContext s 0 l.ctx l.lrec.compl.toNat true with
        | .ok xl =>
          match homePutHold s xl.dpa l.word 8 with
          | .ok _ s => .next (s.launchDone n l)
          | .hold s => .next s
          | .fault e => .next (s.agentFault n e.cause.code)
        | .error e =>
          if e.gate.isSome then .next s
          else if e.cause.parks then
            .next ((s.updLaunch n (fun l => { l with complWait := true })).agentWaits l.ctx l.ltag n
              e l.lrec.compl.toNat)
          else .next (s.agentFault n e.cause.code) := by
  have hstop : ¬ (l.done || l.complWait || !l.over) = true := by
    simp [hdone, hwait, (launch_over_iff l).mpr hover]
  rw [exec_launchComplete, execLaunchComplete, hl]
  dsimp only
  rw [if_neg hstop]
  rfl

theorem launchWord_lt (l : Launch) : l.word < 256 ^ 8 := by
  have htag := l.ltag.isLt
  have hfaulted := Nat.mod_lt l.faulted (Nat.two_pow_pos 24)
  unfold Launch.word
  omega

/-- The completion word is written at COMPL, and nothing else of memory (R414). -/
theorem launchComplete_writes {s : State} {n : Nat} {l : Launch} {x : Xl}
    (hl : mget s.launches n = some l) (hdone : l.done = false) (hwait : l.complWait = false)
    (hover : l.finished = l.lrec.count * l.lrec.group) (hcompl : l.lrec.compl ≠ 0)
    (hx : forContext s 0 l.ctx l.lrec.compl.toNat true = .ok x) (hhbm : dregion x.dpa = .hbm)
    (hwf : s.mem.wf = true) (halign : x.dpa % 8 = 0)
    (hfree : writeHold s (x.dpa / 128) (byteMask (x.dpa % 128) 8) = none) :
    ∃ t, exec (.launchComplete n) s = .next t ∧ mget t.launches n = some { l with done := true } ∧
      t.mem.rdN x.dpa 8 = l.word ∧
      (∀ a, a < x.dpa ∨ x.dpa + 8 ≤ a → t.mem.rd a = s.mem.rd a) ∧ t.fields = s.fields := by
  have hcores : SameCores s (homePut s x.dpa l.word 8) := homeWrite_sameCores _ _ _ _
  have hrd := rd_homePut hhbm (n := 8) (by omega) hwf l.word
  refine ⟨(homePut s x.dpa l.word 8).launchDone n l, ?_, ?_, ?_, fun a ha => ?_, ?_⟩
  · rw [launchComplete_of_over hl hdone hwait hover, if_neg hcompl, hx]
    simp only [homePutHold, hfree]
  · exact launchDone_launch (hcores.launches ▸ hl)
  · rw [launchDone_mem]
    refine (Mem.rdN_eq_of_bytes fun i hi => ?_).trans (Nat.mod_eq_of_lt (launchWord_lt l))
    rw [hrd, if_pos (by omega), Nat.add_sub_cancel_left]
  · rw [launchDone_mem, hrd, if_neg (by omega)]
  · rw [launchDone_fields, hcores.fields]

/-! ### The checks (R107, R410, R411) -/

theorem checkLaunch_of_malformed {s : State} {core : Nat} {c : Claim} {w : List W64}
    (h : ¬ (launchFields w = true ∧ launchShape (readLaunch w) = true)) :
    s.checkLaunch core c w = s.refuseClaim core c :=
  if_pos (by simpa using Decidable.not_and_iff_not_or_not.mp h)

theorem checkLaunch_of_wellFormed {s : State} {core : Nat} {c : Claim} {w : List W64}
    (h : launchFields w = true ∧ launchShape (readLaunch w) = true) :
    s.checkLaunch core c w = match judgeAll s c.ctx (launchRanges (readLaunch w)) with
      | .cannot => s.refuseClaim core c
      | .wait e a => s.claimWaits core c e a
      | .can => { s with
          launches := mput s.launches (192 + c.accNo) (newLaunch s c (readLaunch w)) }.endClaim core :=
  if_neg (by simp [h])

theorem newLaunch_cls (s : State) (c : Claim) (r : LaunchRec) :
    (newLaunch s c r).cls =
      Nat.max r.cls (Nat.max c.cls (((s.ctx? c.ctx).map (·.policy.maxClass)).getD 3)) := rfl

/-- A record that passes becomes a launch of the least urgent of its classes, and the claim is over. -/
theorem checkLaunch_hands_over {s : State} {core : Nat} {c : Claim} {w : List W64}
    (h : launchFields w = true ∧ launchShape (readLaunch w) = true)
    (hcan : judgeAll s c.ctx (launchRanges (readLaunch w)) = .can) :
    ∃ t l, s.checkLaunch core c w = t ∧ mget t.launches (192 + c.accNo) = some l ∧
      l.lrec = readLaunch w ∧ l.ctx = c.ctx ∧ l.ltag = c.ltag ∧ l.next = 0 ∧ l.finished = 0 ∧
      l.done = false ∧ (readLaunch w).cls ≤ l.cls ∧ c.cls ≤ l.cls ∧
      (∀ x, s.ctx? c.ctx = some x →
        l.cls = Nat.max (readLaunch w).cls (Nat.max c.cls x.policy.maxClass)) ∧
      mget t.claims core = none ∧ t.fields = s.fields ∧ t.ctxs = s.ctxs ∧ SameBytes s t := by
  rw [checkLaunch_of_wellFormed h, hcan]
  refine ⟨_, newLaunch s c (readLaunch w), rfl, mget_mput_same _ _ _, rfl, rfl, rfl, rfl, rfl, rfl,
    Nat.le_max_left _ _, Nat.le_trans (Nat.le_max_left _ _) (Nat.le_max_right _ _), fun x hx => ?_, mget_mdel_same _ _,
    rfl, rfl, fun _ => ⟨rfl, rfl⟩⟩
  rw [newLaunch_cls, hx]
  rfl

section
variable {s : State} {core : Nat} {c : Claim} (hc : mget s.claims core = some c) (hq : c.queue ≠ 1024)
include hc

theorem launchCheck_of_waiting (hwait : c.waiting = true) : exec (.launchCheck core) s = .next s := by
  rw [exec_launchCheck, execLaunchCheck, hc]
  exact if_pos (by simp [hwait])

include hq

/-- What the agent does with a claim of a launch that waits for nothing. -/
theorem launchCheck_of_ready (hwait : c.waiting = false) : exec (.launchCheck core) s =
    if !enqueueOk s c then .next (s.refuseClaim core c)
    else match c.lrec with
    | some w => .next (s.checkLaunch core c w)
    | none =>
      match judge1 s c.ctx false (c.words.getD 2 0).toNat 128 with
      | .cannot => .next (s.refuseClaim core c)
      | .wait e a => .next (s.claimWaits core c e a)
      | .can =>
        match fetchLaunch s c.ctx (c.words.getD 2 0).toNat with
        | .error e =>
          if e.cause.parks || e.gate.isSome then
            .next (s.claimWaits core c e (c.words.getD 2 0).toNat)
          else .next (s.refuseClaim core c)
        | .ok w => .next ({ s with claims := mput s.claims core { c with lrec := some w } }.checkLaunch
            core { c with lrec := some w } w) := by
  rw [exec_launchCheck, execLaunchCheck, hc]
  exact if_neg (by simp [hwait, managePage, hq])

end

theorem enqueueOk_of_reserved {s : State} {c : Claim} (h : c.words.getD 3 0 ≠ 0) :
    enqueueOk s c = false := by
  have h3 : (c.words.getD 3 0 == 0) = false := beq_eq_false_iff_ne.mpr h
  simp only [enqueueOk, h3, Bool.and_false, Bool.false_and]

theorem enqueueOk_of_misaligned {s : State} {c : Claim} (h : (c.words.getD 2 0).toNat % 128 ≠ 0) :
    enqueueOk s c = false := by
  have h2 : ((c.words.getD 2 0).toNat % 128 == 0) = false := beq_eq_false_iff_ne.mpr h
  simp only [enqueueOk, h2, Bool.and_false, Bool.false_and]

end Sys2Proof.Machine

namespace Sys2Proof.Claims
open Sys2Proof Sys2Proof.Machine

theorem launchChecks : LaunchChecks := by
  intro s core c w hc hq
  refine ⟨launchCheck_of_waiting hc, fun hwait hbad => ?_, fun hwait hok hnew => ⟨fun h => ?_,
    fun e a h => ?_, fun h hw => ?_⟩, fun hwait hok hread => ?_, checkLaunch_of_malformed,
    fun hgood h => ?_, fun hgood e a h => ?_, checkLaunch_hands_over, enqueueOk_of_reserved,
    enqueueOk_of_misaligned⟩
  · simp only [launchCheck_of_ready hc hq hwait, hbad]; rfl
  · simp only [launchCheck_of_ready hc hq hwait, hok, hnew, h]; rfl
  · simp only [launchCheck_of_ready hc hq hwait, hok, hnew, h]; rfl
  · simp only [launchCheck_of_ready hc hq hwait, hok, hnew, h, hw]; rfl
  · simp only [launchCheck_of_ready hc hq hwait, hok, hread]; rfl
  · rw [checkLaunch_of_wellFormed hgood, h]; rfl
  · rw [checkLaunch_of_wellFormed hgood, h]

theorem launchCompletion : LaunchCompletion := by
  intro s n l hl
  refine ⟨launchComplete_stays hl, fun hdone hwait hover => ⟨fun hcompl => ⟨s.launchDone n l, ?_,
    launchDone_launch hl, launchDone_fields s n l, fun _ => ⟨by rw [launchDone_mem],
    by rw [launchDone_pool]⟩, fun x v hirq hx hv => launchDone_outbox_of_irq hirq hx hv,
    launchDone_outbox_of_silent⟩, fun x hcompl hx hhbm hwf halign hfree => launchComplete_writes hl
      hdone hwait hover hcompl hx hhbm hwf halign hfree, fun e hcompl he hparks hgate => ?_⟩⟩
  · rw [launchComplete_of_over hl hdone hwait hover, if_pos hcompl]
  · rw [launchComplete_of_over hl hdone hwait hover, if_neg hcompl, he]
    simp [hparks, hgate]

end Sys2Proof.Claims

/-- Settles O48: the checks of a launch take the branch that the judgement of its ranges names, and a launch
that is over writes its word by `homePut`, which `rd_homePut` describes, before its vector goes out. -/
theorem launchesAreCheckedAndComplete : Obligations.LaunchesAreCheckedAndComplete :=
  ⟨Sys2Proof.Claims.launchChecks, Sys2Proof.Claims.launchCompletion⟩

/-! # Placement, swap-outs and slices (O41)

Each event of a distributor has one equation or one lemma per branch below. A field that leaves its core is
followed through the write of its slot: only `saveSlot` touches it afterwards, and marks whether its slot
still waits. -/

namespace Sys2Proof.Machine
open Sys2Proof Sys2Proof.Claims

/-! ### Placement (R9, R113 to R118, R315) -/

theorem fieldPlace_stays_of_idle {s : State} {core : Nat} (h : s.placing = false ∨ 192 ≤ core) :
    exec (.fieldPlace core) s = .next s := by
  rw [exec_fieldPlace, execFieldPlace]
  exact if_pos (by simpa using h)

/-- What a distributor does while it places (R113 to R118). -/
theorem fieldPlace_of_placing {s : State} {core : Nat} (h : s.placing = true) (hcore : core < 192) :
    exec (.fieldPlace core) s = match (waitOrder s).find? (hopeless s) with
      | some c => .next (s.failCapacity c)
      | none =>
        match (waitOrder s).find? (fun c => (dieCores (core / 48)).any (fitsOn s c [])) with
        | none => .next s
        | some c =>
          match seatsOf s c core (standingBut s []) with
          | some seats => .next (s.seat c seats)
          | none => .next s := by
  rw [exec_fieldPlace, execFieldPlace]
  exact if_neg (by simp [h, hcore])

/-- The first field of a launch that is no meadow stands at its seat with image slot 0 (R108, R110). -/
theorem placeFresh_field {s : State} {n : Nat} {l : Launch} (seat : Seat)
    (hl : mget s.launches n = some l) (hmw : l.lrec.mw = 0) (hslots : l.slots = []) :
    (s.placeFresh n l [seat]).field? s.nextFid = some (firstField l n l.next 0 0 0 seat) := by
  have hslot : (mget s.launches n).bind (fun m => lowestNot m.slots (m.slots.length + 1)) = some 0 := by
    rw [hl, Option.bind_some, hslots]; rfl
  simp only [State.placeFresh, List.zipIdx_singleton, List.foldl_cons, List.foldl_nil, hslot, hmw,
    if_true]
  exact ((logField_sameCores _ _ _).field? _).trans (mget_mput_same _ _ _)

theorem firstField_swath {l : Launch} {n num mx my slot i : Nat} {seat : Seat} {w : Swath}
    (h : (i, w) ∈ (firstField l n num mx my slot seat).sws) : w.regs.pc = l.lrec.scode ∧
      w.regs.x = [] ∧ w.regs.v = [] ∧ w.meet.hs = .idle ∧ w.ctl.level = 0 := by
  obtain ⟨p, -, hp⟩ := List.mem_map.mp h
  obtain ⟨-, rfl⟩ := Prod.mk.inj hp
  exact ⟨rfl, rfl, rfl, rfl, rfl⟩

/-! ### The slot of a field that leaves (R125, R284, R298) -/

/-- A field's slot holds its state, and what waited to be written there waits no longer. -/
def State.slotSaved (s : State) (fid : Nat) (f : Field) (l : Launch) : State :=
  { s.updField fid (fun g => { g with saving := false }) with
    slotWaits := s.slotWaits.filter (fun x => !(x.ctx == f.ctx && decide (slotVa l.lrec f ≤ x.va) &&
      decide (x.va < slotVa l.lrec f + l.lrec.slotSize))) }

section
variable {s : State} {fid : Nat} {f : Field} {l : Launch} (hf : s.field? fid = some f)
  (hl : mget s.launches f.launch = some l)
include hf hl

theorem saveSlot_of_held {t : State}
    (h : slotHold s (f.core / 48) f.ctx (slotVa l.lrec f) l.lrec f = some t) :
    s.saveSlot fid = .waits (t.updField fid (fun g => { g with saving := true })) := by
  simp only [State.saveSlot, hf, hl, h]

theorem saveSlot_of_stored {t : State}
    (hfree : slotHold s (f.core / 48) f.ctx (slotVa l.lrec f) l.lrec f = none)
    (h : s.storeSlot (f.core / 48) f.ctx (slotVa l.lrec f) l.lrec f = .ok t) :
    s.saveSlot fid = .done (t.slotSaved fid f l) := by
  simp only [State.saveSlot, hf, hl, hfree, h]
  rfl

theorem groupOf_of_lone (hmw : l.lrec.mw = 0) : s.groupOf fid = [(fid, f)] := by
  simp [State.groupOf, hf, hl, hmw]

theorem swapGroup_of_lone (hmw : l.lrec.mw = 0) : s.swapGroup fid = s.swapOut fid := by
  rw [State.swapGroup, groupOf_of_lone hf hl hmw]
  rfl

end

/-- A field as it leaves its core for its slot (R125). -/
def State.fieldOut (s : State) (f : Field) : Field :=
  { f.leave .swapped with ready := (f.leave .swapped).resumable, readyAt := s.nextReady }

/-- The field has left its core. -/
def State.hasLeft (s : State) (fid : Nat) (f : Field) : State :=
  { s.setField fid (s.fieldOut f) with nextReady := s.nextReady + 1 }

/-- A swap-out is traced and counted (R421, R423). -/
def State.swapCounted (s : State) (f : Field) : State := (s.countFor f.ctx cSWAPS 1).logField f 2

theorem swapOut_of_resident {s : State} {fid : Nat} {f : Field} (hf : s.field? fid = some f)
    (hres : f.status = .resident) : s.swapOut fid = match (s.hasLeft fid f).saveSlot fid with
      | .done t => t.swapCounted f
      | .waits t => t.swapCounted f
      | .bad => (s.hasLeft fid f).imageInvalid fid f f.firstSw := by
  rw [State.swapOut, hf]
  exact if_neg (by simp [hres])

theorem hasLeft_field? (s : State) (fid : Nat) (f : Field) :
    (s.hasLeft fid f).field? fid = some (s.fieldOut f) := mget_mput_same _ _ _

theorem swapCounted_field? (s : State) (f : Field) (fid : Nat) :
    (s.swapCounted f).field? fid = s.field? fid :=
  ((countFor_sameCores _ _ _ _).trans (logField_sameCores _ _ _)).field? fid

theorem field?_updField {s : State} {fid : Nat} {f : Field} (hf : s.field? fid = some f)
    (g : Field → Field) : (s.updField fid g).field? fid = some (g f) := by
  rw [State.field?, State.updField_fields, mget_mupd_same, show mget s.fields fid = some f from hf]
  rfl

theorem field?_updField_ne (s : State) {fid e : Nat} (g : Field → Field) (h : fid ≠ e) :
    (s.updField e g).field? fid = s.field? fid := mget_mupd_ne _ _ h

section
variable {s t : State} {fid : Nat} {f : Field} {l : Launch} (hf : s.field? fid = some f)
  (hres : f.status = .resident) (hl : mget s.launches f.launch = some l) (hmw : l.lrec.mw = 0)
  (ht : t.field? fid = some (s.fieldOut f))
include hf hres hl hmw ht

/-- A lone field whose slot is written is out, with nothing left to save. -/
theorem swapGroup_field_of_stored
    (hfree : slotHold (s.hasLeft fid f) (f.core / 48) f.ctx (slotVa l.lrec (s.fieldOut f)) l.lrec
      (s.fieldOut f) = none)
    (hstore : (s.hasLeft fid f).storeSlot (f.core / 48) f.ctx (slotVa l.lrec (s.fieldOut f)) l.lrec
      (s.fieldOut f) = .ok t) :
    (s.swapGroup fid).field? fid = some { s.fieldOut f with saving := false } := by
  rw [swapGroup_of_lone hf hl hmw, swapOut_of_resident hf hres,
    saveSlot_of_stored (hasLeft_field? s fid f) hl hfree hstore]
  exact (swapCounted_field? _ _ _).trans (field?_updField ht _)

/-- A lone field whose slot waits for the host is out, and still to be saved. -/
theorem swapGroup_field_of_held
    (hheld : slotHold (s.hasLeft fid f) (f.core / 48) f.ctx (slotVa l.lrec (s.fieldOut f)) l.lrec
      (s.fieldOut f) = some t) :
    (s.swapGroup fid).field? fid = some { s.fieldOut f with saving := true } := by
  rw [swapGroup_of_lone hf hl hmw, swapOut_of_resident hf hres,
    saveSlot_of_held (hasLeft_field? s fid f) hl hheld]
  exact (swapCounted_field? _ _ _).trans (field?_updField ht _)

end

/-! ### Swap-outs (R125, R297, R298, R300, R415 to R417) -/

section
variable {s : State} {fid : Nat} {f : Field} (hf : s.field? fid = some f)
include hf

/-- What a distributor does with a field, by why it may have to leave. -/
theorem fieldSwapOut_of_field : exec (.fieldSwapOut fid) s =
    if f.stop.any (fun t => !t.halted) then
      .next (if ((s.swapGroup fid).groupOf fid).any (fun (_, f) => f.saving) then s.swapGroup fid
        else (s.swapGroup fid).stopDone fid)
    else if sliceOver s fid then .next (s.swapGroup fid)
    else match (if s.placing then roomFor s fid else none) with
      | some (c, core, l) => .next ((l.foldl (fun s g => s.swapGroup g) s).giveRoom c core)
      | none => .next s := by
  rw [exec_fieldSwapOut, execFieldSwapOut, hf] <;> rfl

theorem fieldSwapOut_of_stop {t : Stop} (hstop : f.stop = some t) (hrun : t.halted = false) :
    exec (.fieldSwapOut fid) s =
      .next (if ((s.swapGroup fid).groupOf fid).any (fun (_, f) => f.saving) then s.swapGroup fid
        else (s.swapGroup fid).stopDone fid) := by
  rw [fieldSwapOut_of_field hf, hstop]
  exact if_pos (by simp [hrun])

theorem fieldSwapOut_of_unstopped (hstop : f.stop = none) : exec (.fieldSwapOut fid) s =
    if sliceOver s fid then .next (s.swapGroup fid)
    else match (if s.placing then roomFor s fid else none) with
      | some (c, core, l) => .next ((l.foldl (fun s g => s.swapGroup g) s).giveRoom c core)
      | none => .next s := by
  rw [fieldSwapOut_of_field hf, hstop]
  rfl

theorem reconvWaitExpire_halts (hslice : f.slicing = true) (hres : f.status = .resident) :
    exec (.reconvWaitExpire fid) s = .next (s.swapGroup fid) := by
  simp [exec_reconvWaitExpire, execReconvWaitExpire, hf, hslice, hres]

theorem reconvWaitExpire_stays (hslice : f.slicing = false) :
    exec (.reconvWaitExpire fid) s = .next s := by
  simp [exec_reconvWaitExpire, execReconvWaitExpire, hf, hslice]

theorem swathAt_of_field {sw : Nat} {w : Swath} (hw : mget f.sws sw = some w) :
    s.swathAt fid sw = some w := by
  rw [State.swathAt, hf]
  exact hw

theorem registerLineScanOut_of_resident {sw : Nat} {w : Swath} (hw : mget f.sws sw = some w)
    (hres : f.status = .resident) (hsaved : f.saving = false) :
    exec (.registerLineScanOut fid sw) s = .next (s.scanLine fid sw f w) := by
  simp [exec_registerLineScanOut, execRegisterLineScanOut, hf, swathAt_of_field hf hw, hres, hsaved]

theorem registerLineScanOut_of_swapped {sw : Nat} {w : Swath} {l : Launch} {t : State}
    (hw : mget f.sws sw = some w) (hl : mget s.launches f.launch = some l) (hout : f.status = .swapped)
    (hserved : f.arena = false)
    (hfree : slotHold s (f.core / 48) f.ctx (slotVa l.lrec f) l.lrec f = none)
    (hstore : s.storeSlot (f.core / 48) f.ctx (slotVa l.lrec f) l.lrec f = .ok t) :
    exec (.registerLineScanOut fid sw) s = .next (t.slotSaved fid f l) := by
  simp [exec_registerLineScanOut, execRegisterLineScanOut, hf, swathAt_of_field hf hw, hout, hserved,
    saveSlot_of_stored hf hl hfree hstore]

end

theorem urgentClaim_halts {s : State} {core quad : Nat} {qs : List Nat} (hplacing : s.placing = true)
    (h : claimFor s (4 * core + quad) = some qs) : exec (.urgentClaim core quad) s =
      .next ((qs.flatMap (quadGroups s)).eraseDups.foldl (fun s g => s.swapGroup g) s) := by
  simp [exec_urgentClaim, execUrgentClaim, hplacing, h]

theorem urgentClaim_stays {s : State} {core quad : Nat}
    (h : s.placing = false ∨ claimFor s (4 * core + quad) = none) :
    exec (.urgentClaim core quad) s = .next s := by
  obtain h | h := h <;> simp [exec_urgentClaim, execUrgentClaim, h]

theorem scanLine_of_room {s : State} {fid sw : Nat} {f : Field} {w : Swath}
    (h : quadLines s f.core w.quad ≤ 2048) : s.scanLine fid sw f w = s := by
  unfold State.scanLine
  split
  · rfl
  · exact if_pos (by simp [registerCacheLines, h])

/-! ### Slices (R300) -/

/-- A candidate of another context that a context keeps from a quadrant of the candidate's own. -/
def keptFrom (s : State) (c core quad : Nat) (a : Waiter) : Bool :=
  (a.launch s).any (fun l =>
    l.ctx != c && (ownedQuads s l.ctx core).contains quad && cannotPlace s a)

/-- The groups of a context on a quadrant that are of a class or a less urgent one. -/
def sliceGroups (s : State) (c core quad cls : Nat) : List Nat :=
  (quadGroups s (4 * core + quad)).filter (fun g => (s.field? g).any (fun f =>
    f.ctx == c && decide (cls ≤ ((mget s.launches f.launch).map (·.cls)).getD 0)))

/-- The slices of fields end. -/
def State.endSlices (s : State) (fids : List Nat) : State :=
  fids.foldl (fun s i => s.updField i (fun f => { f with slicing := true })) s

theorem waiter_cls_of_launch {s : State} {a : Waiter} {l : Launch} (h : a.launch s = some l) :
    a.cls s = l.cls := by
  rw [Waiter.cls, h]
  rfl

/-- The class that a quantum's end looks for is that of the first candidate kept waiting. -/
theorem tenantSliceEnd_eq (s : State) (c core quad : Nat) : exec (.tenantSliceEnd c core quad) s =
    match ((waitOrder s).find? (keptFrom s c core quad)).map (Waiter.cls s) with
    | none => .next s
    | some cls => .next (s.endSlices (fieldsOf s (sliceGroups s c core quad cls))) := by
  have hgain : (fun a : Waiter => match a.launch s with
      | some l => if l.ctx != c && (ownedQuads s l.ctx core).contains quad && cannotPlace s a
          then some l.cls else none
      | none => none) = Option.map (Waiter.cls s) ∘ Option.guard (keptFrom s c core quad) := by
    funext a
    cases ha : a.launch s with
    | none => simp [keptFrom, Option.guard, ha]
    | some l =>
      have hkept : keptFrom s c core quad a =
          (l.ctx != c && (ownedQuads s l.ctx core).contains quad && cannotPlace s a) := by
        rw [keptFrom, ha]; rfl
      simp only [← hkept, Function.comp, Option.guard]
      split <;> simp [waiter_cls_of_launch ha]
  rw [List.find?_eq_findSome?_guard, List.map_findSome?, ← hgain]
  rfl

theorem endSlices_field? (s : State) (fids : List Nat) {fid : Nat} {f : Field}
    (hf : s.field? fid = some f) : (s.endSlices fids).field? fid =
      some { f with slicing := f.slicing || decide (fid ∈ fids) } := by
  induction fids generalizing s f with
  | nil => simpa [State.endSlices] using hf
  | cons e fids ih =>
    rw [State.endSlices, List.foldl_cons]
    by_cases he : fid = e
    · subst he
      refine (ih _ (field?_updField hf _)).trans ?_
      simp
    · refine (ih _ ((field?_updField_ne s _ he).trans hf)).trans ?_
      simp [he]

theorem endSlices_sameBytes (s : State) (fids : List Nat) : SameBytes s (s.endSlices fids) :=
  List.foldlRecOn fids _ (motive := SameBytes s) (fun _ => ⟨rfl, rfl⟩) fun _ h _ _ => h

theorem mem_fieldsOf_sliceGroups {s : State} {c core quad cls fid : Nat} :
    fid ∈ fieldsOf s (sliceGroups s c core quad cls) ↔
      ∃ e h, e ∈ quadGroups s (4 * core + quad) ∧ s.field? e = some h ∧ h.ctx = c ∧
        cls ≤ ((mget s.launches h.launch).map (·.cls)).getD 0 ∧ fid ∈ (s.groupOf e).map (·.1) := by
  simp only [fieldsOf, sliceGroups, List.mem_flatMap, List.mem_filter, Option.any_eq_true,
    Bool.and_eq_true, beq_iff_eq, decide_eq_true_eq]
  constructor
  · rintro ⟨e, ⟨he, h, hh, hctx, hcls⟩, hmem⟩
    exact ⟨e, h, he, hh, hctx, hcls, hmem⟩
  · rintro ⟨e, h, he, hh, hctx, hcls, hmem⟩
    exact ⟨e, ⟨he, h, hh, hctx, hcls⟩, hmem⟩

/-- At the end of a quantum the fields of the groups in question end their slices, and no others. -/
theorem tenantSliceEnd_ends {s : State} {c core quad fid : Nat} {f : Field} {a : Waiter} {l : Launch}
    (hf : s.field? fid = some f) (ha : (waitOrder s).find? (keptFrom s c core quad) = some a)
    (hl : a.launch s = some l) :
    ∃ t, exec (.tenantSliceEnd c core quad) s = .next t ∧ SameBytes s t ∧
      ∃ g, t.field? fid = some g ∧ g = { f with slicing := g.slicing } ∧
        (g.slicing = true ↔ f.slicing = true ∨
          ∃ e h, e ∈ quadGroups s (4 * core + quad) ∧ s.field? e = some h ∧ h.ctx = c ∧
            l.cls ≤ ((mget s.launches h.launch).map (·.cls)).getD 0 ∧
            fid ∈ (s.groupOf e).map (·.1)) := by
  refine ⟨_, ?_, endSlices_sameBytes s (fieldsOf s (sliceGroups s c core quad l.cls)), _,
    endSlices_field? s _ hf, rfl, ?_⟩
  · rw [tenantSliceEnd_eq, ha, Option.map_some, waiter_cls_of_launch hl]
  · rw [Bool.or_eq_true, decide_eq_true_eq, mem_fieldsOf_sliceGroups]

theorem tenantSliceEnd_stays {s : State} {c core quad : Nat}
    (h : (waitOrder s).find? (keptFrom s c core quad) = none) :
    exec (.tenantSliceEnd c core quad) s = .next s := by
  rw [tenantSliceEnd_eq, h]
  rfl

end Sys2Proof.Machine

namespace Sys2Proof.Claims
open Sys2Proof Sys2Proof.Machine

theorem placement : Placement := by
  intro s core
  refine ⟨fieldPlace_stays_of_idle, fun hplacing hcore => ⟨fun c hc => ?_, fun hnone =>
    ⟨fun c seats hc hseats => ?_, fun hempty => ?_⟩⟩, fun n l seat hl hmw hslots => ?_⟩
  · rw [fieldPlace_of_placing hplacing hcore, hc]
  · rw [fieldPlace_of_placing hplacing hcore, hnone, hc]
    simp only [hseats]
  · rw [fieldPlace_of_placing hplacing hcore, hempty]
    rfl
  · exact ⟨_, placeFresh_field seat hl hmw hslots, rfl, rfl, rfl, rfl, rfl, rfl, rfl, rfl, rfl, rfl,
      List.length_replicate, fun _ _ => firstField_swath⟩

theorem swapOuts : SwapOuts := by
  intro s fid sw core quad c f hf
  refine ⟨fun t hstop hrun => ⟨fun hsaved => ?_, fun g hg hsaving => ?_⟩, fun hstop hover => ?_,
    fun hstop hover hplacing c core l hroom => ⟨fun seats hseats => ?_, fun hseats => ?_⟩,
    fun hstop hover hstay => ?_, fun l hres hl hmw => ⟨fun hfree t hstore ht => ?_, fun t hheld ht => ?_⟩,
    reconvWaitExpire_halts hf, reconvWaitExpire_stays hf, fun hplacing _ => urgentClaim_halts hplacing,
    urgentClaim_stays, fun l w t hw hl hout hserved hfree hstore => ?_, fun w hw hres hsaved =>
    ⟨registerLineScanOut_of_resident hf hw hres hsaved, scanLine_of_room⟩, tenantSliceEnd_stays,
    fun a l => tenantSliceEnd_ends hf⟩
  · rw [fieldSwapOut_of_stop hf hstop hrun, if_neg]
    simpa using hsaved
  · rw [fieldSwapOut_of_stop hf hstop hrun, if_pos]
    exact List.any_eq_true.mpr ⟨g, hg, hsaving⟩
  · rw [fieldSwapOut_of_unstopped hf hstop, if_pos hover]
  · simp [fieldSwapOut_of_unstopped hf hstop, hover, hplacing, hroom, State.giveRoom, hseats]
  · simp [fieldSwapOut_of_unstopped hf hstop, hover, hplacing, hroom, State.giveRoom, hseats]
  · obtain hstay | hstay := hstay <;> simp [fieldSwapOut_of_unstopped hf hstop, hover, hstay]
  · exact ⟨_, swapGroup_field_of_stored hf hres hl hmw ht hfree hstore, rfl, rfl, rfl⟩
  · exact ⟨_, swapGroup_field_of_held hf hres hl hmw ht hheld, rfl, rfl, rfl⟩
  · exact registerLineScanOut_of_swapped hf hw hl hout hserved hfree hstore

end Sys2Proof.Claims

/-- Settles O41: a candidate is placed, a field leaves and a slice ends in the branch of the model that the
clause's hypotheses name; what a swap-out leaves of the field is `swapGroup_field_of_stored`, and whose slice
a quantum's end ends `endSlices_field?`. -/
theorem fieldsArePlacedAndLeave : Obligations.FieldsArePlacedAndLeave :=
  ⟨Sys2Proof.Claims.placement, Sys2Proof.Claims.swapOuts⟩
